-- ==== Sys2Proof/Word.lean ====
section
/-! DEFINITION. The word types of the Denlar 1640: bytes as the carriage frame carries them, and the index types
of its fixed tables (R41, R1, R151, R84, R130, R96, R143). -/

namespace Sys2Proof

/-- One byte of a carriage frame (section 3.2). -/
abbrev Byte := BitVec 8

/-- A line port, 0..15 (R41). -/
abbrev PortIx := Fin 16

/-- A booking index, 0..255 (R1). -/
abbrev BookingIx := Fin 256

/-- A tariff index, 0..15 (R151). -/
abbrev TariffIx := Fin 16

/-- An ident pattern index, 0..31 (R84). -/
abbrev PatternIx := Fin 32

/-- A watch counter, 0..7 (R130). -/
abbrev CounterIx := Fin 8

/-- A probe number, 0..255 (R96). -/
abbrev ProbeNo := Fin 256

/-- The two legs a booking may have (R3). -/
inductive LegId where
  | main
  | backup
  deriving DecidableEq, Repr

end Sys2Proof
end

