-- ==== Sys2Proof/Syntax.lean ====
section
/-! DEFINITION. The commands of the device, one constructor per row of spec/opcode_table.json, with their operands.
An event of the world (light, a frame, a timer) carries what the world brings. A request carries the port and tag it
came with and its body's fields: `none` stands for a body that is not of good form (R171). A field is a `Nat` as
wide as the wire carries it, so that a value outside its stated range can be written down and refused RANGE (R169). -/

namespace Sys2Proof

/-- What the world fixes at a command besides its operands: how much reference-clock time has passed since the
command before it, how many records the scan in flight has visited by now (R27, R38), and the order in which things
of this one instant are taken wherever the manual says "in either order" (R99, R116, R136, R138, R145, R149, R150,
R176, section 10.6). Every order is reachable, none is picked. DESIGN CHOICE, log entries 3 and 4. -/
structure Moment where
  /-- Reference-clock ticks since the command before. -/
  dt : Nat
  /-- Records, from index 0 up, that the scan in flight has visited by now (R27). -/
  visits : Nat
  /-- Bookings to take first, in this order; the others follow in index order. -/
  bookings : List BookingIx
  /-- Watch counters to take first, in this order; the others follow in index order (R138). -/
  counters : List CounterIx
  /-- Whether the backup leg's cause request is taken before the main leg's (R116). -/
  backupFirst : Bool
  /-- Whether an auto-probe request is taken before the merge unit's and tracker's work (R99). -/
  autoFirst : Bool
  /-- Whether the watch counters act at a boundary before the scheduler (R136). -/
  watchFirst : Bool
  /-- Raises of the event that reach the fault unit first: each number is a class (section 9.1) whose earliest raise not
  taken yet is taken next; the others follow in the order they were made. Raises of one class so keep the order in which
  they were made, as the ends of the probes at a RESTART must (R109, R145). -/
  raises : List Nat
  /-- Raises of a received frame's own counting that are taken before the request the frame carries, named in the same
  way; the others are taken with those of the request's effect, after it (R145, R149, R150, R176). -/
  beforeRequest : List Nat
  /-- How many of the raises of a request, the last ones in their order, are taken after its response is offered (R145):
  the CONTROL_DROP of a response that a full queue discards may be taken before them. -/
  afterAnswer : Nat
  deriving DecidableEq, Repr

/-- The moment with no time passed, no visit and index order throughout. -/
def Moment.plain : Moment :=
  { dt := 0, visits := 0, bookings := [], counters := [], backupFirst := false, autoFirst := false, watchFirst := false,
    raises := [], beforeRequest := [], afterAnswer := 0 }

/-- The strap pins read at power-on (R179). -/
structure Straps where
  /-- NODE, 6 pins. -/
  node : Fin 64
  /-- OPPORT, 4 pins. -/
  opport : PortIx
  /-- PRBFIT, one pin per port. -/
  prbfit : BitVec 16
  deriving DecidableEq, Repr

/-- How a request reached the control channel unit: its port, its tag (R168, R174) and its moment. -/
structure Req where
  /-- The port the request arrived on. -/
  port : PortIx
  /-- The tag the response echoes. -/
  tag : BitVec 16
  /-- When it is taken. -/
  m : Moment
  deriving DecidableEq, Repr

/-- A request body's fields, or `none` when the request is not of good form (R171). -/
abbrev Body (α : Type) := Option α

/-- TIME SET (R8). -/
structure TimeSetArgs where
  sec : Nat
  ms : Nat
  idleClose : Nat
  deriving DecidableEq, Repr

/-- PORT SET (R43). -/
structure PortSetArgs where
  port : Nat
  role : Nat
  capacity : Nat
  reserve : Nat
  demarcation : Nat
  cls : Nat
  autoProbe : Bool
  deriving DecidableEq, Repr

/-- One leg of a BOOK body (R3, R170). -/
structure LegArgs where
  port : Nat
  label : Nat
  pattern : Option Nat
  policy : Nat
  deriving DecidableEq, Repr

/-- One destination of a BOOK body (R3, R170). -/
structure DestArgs where
  port : Nat
  label : Nat
  deriving DecidableEq, Repr

/-- BOOK (R10, R170). -/
structure BookArgs where
  customer : Nat
  tariff : Nat
  rate : Nat
  start : Nat
  finish : Nat
  armLead : Nat
  allowance : Nat
  mode : Option Nat
  legs : List LegArgs
  dests : List DestArgs
  deriving DecidableEq, Repr

/-- EXTEND (R21). -/
structure ExtendArgs where
  index : Nat
  seconds : Nat
  deriving DecidableEq, Repr

/-- MODE (R83). -/
structure ModeArgs where
  index : Nat
  mode : Nat
  deriving DecidableEq, Repr

/-- The pattern a PATTERN SET that names an index carries: the index, 32 reference bytes, 32 marks (R84). -/
structure PatternWrite where
  index : Nat
  reference : List Byte
  mask : List Bool
  deriving DecidableEq, Repr

/-- PATTERN SET; `target` is `none` for the value NONE (R84). -/
structure PatternSetArgs where
  target : Option PatternWrite
  silenceMs : Nat
  identTimeout : Nat
  deriving DecidableEq, Repr

/-- TARIFF SET (R151, R152). -/
structure TariffSetArgs where
  index : Nat
  price : Nat
  multiplier : Nat
  disc1 : Nat
  disc2 : Nat
  disc3 : Nat
  t1 : Nat
  t2 : Nat
  t3 : Nat
  creditFactor : Nat
  creditUnknown : Bool
  rounding : Nat
  lateWindow : Nat
  latePercent : Nat
  deriving DecidableEq, Repr

/-- One segment of a probe configuration (R105). -/
structure SegmentArgs where
  first : Nat
  last : Nat
  exponent : Nat
  shadow : Nat
  threshold : Nat
  deriving DecidableEq, Repr

/-- PROBE CONFIG (R112). -/
structure ProbeConfigArgs where
  segments : List SegmentArgs
  silence : Nat
  preMs : Nat
  breakThreshold : Nat
  q : Nat
  deriving DecidableEq, Repr

/-- WATCH SET (R140); the scope as section 11.2 carries it. -/
structure WatchSetArgs where
  counter : Nat
  event : Nat
  scopeKind : Nat
  scopePort : Nat
  scopeBooking : Nat
  scopeLeg : Nat
  matchLabel : Nat
  matchKind : Nat
  matchEnd : Nat
  maskLabel : Nat
  maskKind : Nat
  maskEnd : Nat
  threshold : Nat
  edge : Bool
  invert : Bool
  notice : Bool
  member : Bool
  action : Nat
  startValue : Nat
  deriving DecidableEq, Repr

/-- What the optics measured in a probe phase (R103): the highest amplitude of a silence phase, or the samples of every
shot of a segment, each shot from sample 0 to the segment's last. -/
inductive Measured where
  | silence (highest : Nat)
  | samples (shots : List (List Nat))
  deriving DecidableEq, Repr

/-- The trace of a probe phase, with the number of the probe whose work it is (R96, R103). -/
structure Trace where
  probe : ProbeNo
  measured : Measured
  deriving DecidableEq, Repr

/-- The commands, in the table's order. -/
inductive Instr where
  | powerOn (straps : Straps)
  | secondBoundary (m : Moment)
  | lightLost (m : Moment) (p : PortIx)
  | lightReturns (m : Moment) (p : PortIx)
  | frameReceived (m : Moment) (p : PortIx) (bytes : List Byte)
  | slotStart (m : Moment) (p : PortIx)
  | transmitterPasses (m : Moment)
  | silenceTimerExpiry (m : Moment) (b : BookingIx) (leg : LegId)
  | identTimeoutExpiry (m : Moment) (b : BookingIx) (leg : LegId)
  | phaseTimerExpiry (m : Moment)
  | traceDelivered (m : Moment) (trace : Trace)
  | admissionCompletion (m : Moment)
  | unknownRequestCode (r : Req) (code : Nat)
  | identify (r : Req) (body : Body Unit)
  | restart (r : Req) (body : Body Unit)
  | noticeSet (r : Req) (body : Body Nat)
  | timeSet (r : Req) (body : Body TimeSetArgs)
  | timeRead (r : Req) (body : Body Unit)
  | portSet (r : Req) (body : Body PortSetArgs)
  | portRead (r : Req) (body : Body Nat)
  | book (r : Req) (body : Body BookArgs)
  | cancel (r : Req) (body : Body Nat)
  | close (r : Req) (body : Body Nat)
  | extend (r : Req) (body : Body ExtendArgs)
  | mode (r : Req) (body : Body ModeArgs)
  | bookingRead (r : Req) (body : Body Nat)
  | patternSet (r : Req) (body : Body PatternSetArgs)
  | patternRead (r : Req) (body : Body Nat)
  | tariffSet (r : Req) (body : Body TariffSetArgs)
  | tariffRead (r : Req) (body : Body Nat)
  | probe (r : Req) (body : Body Nat)
  | probeRead (r : Req) (body : Body (Option Nat))
  | probeConfig (r : Req) (body : Body ProbeConfigArgs)
  | watchSet (r : Req) (body : Body WatchSetArgs)
  | watchRead (r : Req) (body : Body (Option Nat))
  | watchUnfreeze (r : Req) (body : Body Unit)
  | faultRead (r : Req) (body : Body Unit)
  | faultClear (r : Req) (body : Body (List Nat))
  | faultMask (r : Req) (body : Body (Vector Bool 14))
  | billRead (r : Req) (body : Body Unit)
  | billRelease (r : Req) (body : Body Nat)
  deriving DecidableEq, Repr

/-- The request code of a request row (section 11.3). -/
def Instr.requestCode : Instr → Option Nat
  | .powerOn _ => none
  | .secondBoundary _ => none
  | .lightLost _ _ => none
  | .lightReturns _ _ => none
  | .frameReceived _ _ _ => none
  | .slotStart _ _ => none
  | .transmitterPasses _ => none
  | .silenceTimerExpiry _ _ _ => none
  | .identTimeoutExpiry _ _ _ => none
  | .phaseTimerExpiry _ => none
  | .traceDelivered _ _ => none
  | .admissionCompletion _ => none
  | .unknownRequestCode _ _ => none
  | .identify _ _ => some 1
  | .restart _ _ => some 2
  | .noticeSet _ _ => some 3
  | .timeSet _ _ => some 8
  | .timeRead _ _ => some 9
  | .portSet _ _ => some 16
  | .portRead _ _ => some 17
  | .book _ _ => some 24
  | .cancel _ _ => some 25
  | .close _ _ => some 26
  | .extend _ _ => some 27
  | .mode _ _ => some 28
  | .bookingRead _ _ => some 29
  | .patternSet _ _ => some 32
  | .patternRead _ _ => some 33
  | .tariffSet _ _ => some 40
  | .tariffRead _ _ => some 41
  | .probe _ _ => some 48
  | .probeRead _ _ => some 49
  | .probeConfig _ _ => some 50
  | .watchSet _ _ => some 56
  | .watchRead _ _ => some 57
  | .watchUnfreeze _ _ => some 58
  | .faultRead _ _ => some 64
  | .faultClear _ _ => some 65
  | .faultMask _ _ => some 66
  | .billRead _ _ => some 72
  | .billRelease _ _ => some 73

/-- The request codes of the table of section 11.3. -/
def knownRequestCodes : List Nat :=
  [1, 2, 3, 8, 9, 16, 17, 24, 25, 26, 27, 28, 29, 32, 33, 40, 41, 48, 49, 50, 56, 57, 58, 64, 65, 66, 72, 73]

/-- Whether an OBSERVER port may send the request (section 11.3): the read requests and IDENTIFY. -/
def observerMaySend (code : Nat) : Bool :=
  decide (code ∈ [1, 9, 17, 29, 33, 41, 49, 57, 64, 72])

end Sys2Proof
end

