-- ==== Sys2Proof/Decode.lean ====
section
/-! DEFINITION. Reading commands: `decodeTableWord` over the rows of spec/opcode_table.json that give bits (none of the
41 rows does), and the control channel unit's own reading of a request payload (sections 11.2 and 11.3; R168 to R171),
which FRAME_RECEIVED uses. -/

namespace Sys2Proof

/-- The command a word spells by the table's bits. No row of the table gives bits, so no word spells one (log
entry 2). -/
def decodeTableWord (_nbits _w : Nat) : Option Instr := none

namespace Wire

/-- A 1-byte number (R169). -/
def u8 : List Byte → Option (Nat × List Byte)
  | a :: t => some (a.toNat, t)
  | [] => none

/-- A 2-byte number, most significant byte first (R169, section 3.2). -/
def u16 : List Byte → Option (Nat × List Byte)
  | a :: b :: t => some (a.toNat * 256 + b.toNat, t)
  | _ => none

/-- A 4-byte number, most significant byte first. -/
def u32 : List Byte → Option (Nat × List Byte)
  | a :: b :: c :: d :: t => some (((a.toNat * 256 + b.toNat) * 256 + c.toNat) * 256 + d.toNat, t)
  | _ => none

/-- A byte of set or clear, yes or no, on or off: 0 or 1, anything else is bad form (R171). -/
def toggle : List Byte → Option (Bool × List Byte)
  | a :: t => if a = 0 then some (false, t) else if a = 1 then some (true, t) else none
  | [] => none

/-- `n` bytes as they stand. -/
def bytes : Nat → List Byte → Option (List Byte × List Byte)
  | 0, l => some ([], l)
  | n + 1, a :: t => (bytes n t).map fun x => (a :: x.1, x.2)
  | _ + 1, [] => none

/-- An optional field of the given width: a presence byte, then the field, or zero bytes when absent (R169, R171). -/
def optional {α : Type} (width : Nat) (field : List Byte → Option (α × List Byte)) :
    List Byte → Option (Option α × List Byte)
  | a :: t =>
    if a = 0 then
      match bytes width t with
      | some (z, rest) => if z.all (· == 0) then some (none, rest) else none
      | none => none
    else if a = 1 then
      match field t with
      | some (x, rest) => some (some x, rest)
      | none => none
    else none
  | [] => none

/-- `n` items one after another. -/
def items {α : Type} (item : List Byte → Option (α × List Byte)) : Nat → List Byte → Option (List α × List Byte)
  | 0, l => some ([], l)
  | n + 1, l => do
    let (x, l) ← item l
    let (xs, l) ← items item n l
    pure (x :: xs, l)

/-- A list of varying length: a 1-byte count, then the items (R169). -/
def listOf {α : Type} (item : List Byte → Option (α × List Byte)) (l : List Byte) : Option (List α × List Byte) := do
  let (n, l) ← u8 l
  items item n l

/-- The whole body is one field's bytes, no fewer and no more (R171). -/
def whole {α : Type} (field : List Byte → Option (α × List Byte)) (l : List Byte) : Option α :=
  match field l with
  | some (x, []) => some x
  | _ => none

/-- The eight marks of a mask byte, the first in the most significant bit (R169). -/
def marksOf (b : Byte) : List Bool :=
  [b.getLsbD 7, b.getLsbD 6, b.getLsbD 5, b.getLsbD 4, b.getLsbD 3, b.getLsbD 2, b.getLsbD 1, b.getLsbD 0]

/-- An empty body. -/
def empty (l : List Byte) : Option (Unit × List Byte) := some ((), l)

def timeSet (l : List Byte) : Option (TimeSetArgs × List Byte) := do
  let (sec, l) ← u32 l
  let (ms, l) ← u16 l
  let (idleClose, l) ← u32 l
  pure ({ sec, ms, idleClose }, l)

def portSet (l : List Byte) : Option (PortSetArgs × List Byte) := do
  let (port, l) ← u8 l
  let (role, l) ← u8 l
  let (capacity, l) ← u16 l
  let (reserve, l) ← u16 l
  let (demarcation, l) ← u16 l
  let (cls, l) ← u8 l
  let (autoProbe, l) ← toggle l
  pure ({ port, role, capacity, reserve, demarcation, cls, autoProbe }, l)

def leg (l : List Byte) : Option (LegArgs × List Byte) := do
  let (port, l) ← u8 l
  let (label, l) ← u16 l
  let (pattern, l) ← optional 1 u8 l
  let (policy, l) ← u8 l
  pure ({ port, label, pattern, policy }, l)

def dest (l : List Byte) : Option (DestArgs × List Byte) := do
  let (port, l) ← u8 l
  let (label, l) ← u16 l
  pure ({ port, label }, l)

def book (l : List Byte) : Option (BookArgs × List Byte) := do
  let (customer, l) ← u16 l
  let (tariff, l) ← u8 l
  let (rate, l) ← u16 l
  let (start, l) ← u32 l
  let (finish, l) ← u32 l
  let (armLead, l) ← u32 l
  let (allowance, l) ← u32 l
  let (mode, l) ← optional 1 u8 l
  let (legs, l) ← listOf leg l
  let (dests, l) ← listOf dest l
  pure ({ customer, tariff, rate, start, finish, armLead, allowance, mode, legs, dests }, l)

def extend (l : List Byte) : Option (ExtendArgs × List Byte) := do
  let (index, l) ← u8 l
  let (seconds, l) ← u32 l
  pure ({ index, seconds }, l)

def mode (l : List Byte) : Option (ModeArgs × List Byte) := do
  let (index, l) ← u8 l
  let (mode, l) ← u8 l
  pure ({ index, mode }, l)

def patternSet (l : List Byte) : Option (PatternSetArgs × List Byte) := do
  let (index, l) ← u8 l
  let (silenceMs, l) ← u16 l
  let (identTimeout, l) ← u32 l
  if index = 255 then pure ({ target := none, silenceMs, identTimeout }, l)
  else
    let (reference, l) ← bytes 32 l
    let (mask, l) ← bytes 4 l
    pure ({ target := some { index, reference, mask := mask.flatMap marksOf }, silenceMs, identTimeout }, l)

def tariffSet (l : List Byte) : Option (TariffSetArgs × List Byte) := do
  let (index, l) ← u8 l
  let (price, l) ← u16 l
  let (multiplier, l) ← u8 l
  let (disc1, l) ← u8 l
  let (disc2, l) ← u8 l
  let (disc3, l) ← u8 l
  let (t1, l) ← u16 l
  let (t2, l) ← u16 l
  let (t3, l) ← u16 l
  let (creditFactor, l) ← u8 l
  let (creditUnknown, l) ← toggle l
  let (rounding, l) ← u8 l
  let (lateWindow, l) ← u16 l
  let (latePercent, l) ← u8 l
  pure ({ index, price, multiplier, disc1, disc2, disc3, t1, t2, t3, creditFactor, creditUnknown, rounding,
          lateWindow, latePercent }, l)

def segment (l : List Byte) : Option (SegmentArgs × List Byte) := do
  let (first, l) ← u16 l
  let (last, l) ← u16 l
  let (exponent, l) ← u8 l
  let (shadow, l) ← u8 l
  let (threshold, l) ← u16 l
  pure ({ first, last, exponent, shadow, threshold }, l)

def probeConfig (l : List Byte) : Option (ProbeConfigArgs × List Byte) := do
  let (segments, l) ← listOf segment l
  let (silence, l) ← u16 l
  let (preMs, l) ← u16 l
  let (breakThreshold, l) ← u16 l
  let (q, l) ← u16 l
  pure ({ segments, silence, preMs, breakThreshold, q }, l)

/-- A port or a counter, or ALL, which is 255 (R169). -/
def orAll (l : List Byte) : Option (Option Nat × List Byte) := do
  let (n, l) ← u8 l
  pure (if n = 255 then none else some n, l)

def watchSet (l : List Byte) : Option (WatchSetArgs × List Byte) := do
  let (counter, l) ← u8 l
  let (event, l) ← u8 l
  let (scopeKind, l) ← u8 l
  let (scopePort, l) ← u8 l
  let (scopeBooking, l) ← u8 l
  let (scopeLeg, l) ← u8 l
  let (matchLabel, l) ← u16 l
  let (matchKind, l) ← u8 l
  let (matchEnd, l) ← u8 l
  let (maskLabel, l) ← u16 l
  let (maskKind, l) ← u8 l
  let (maskEnd, l) ← u8 l
  let (threshold, l) ← u32 l
  let (edge, l) ← toggle l
  let (invert, l) ← toggle l
  let (notice, l) ← toggle l
  let (member, l) ← toggle l
  let (action, l) ← u8 l
  let (startValue, l) ← u32 l
  pure ({ counter, event, scopeKind, scopePort, scopeBooking, scopeLeg, matchLabel, matchKind, matchEnd, maskLabel,
          maskKind, maskEnd, threshold, edge, invert, notice, member, action, startValue }, l)

/-- The fourteen masks in class order, a set byte for a masked class (R150; DESIGN CHOICE, log entry 7). -/
def masks (l : List Byte) : Option (Vector Bool 14 × List Byte) := do
  let (a, l) ← toggle l
  let (b, l) ← toggle l
  let (c, l) ← toggle l
  let (d, l) ← toggle l
  let (e, l) ← toggle l
  let (f, l) ← toggle l
  let (g, l) ← toggle l
  let (h, l) ← toggle l
  let (i, l) ← toggle l
  let (j, l) ← toggle l
  let (k, l) ← toggle l
  let (x, l) ← toggle l
  let (y, l) ← toggle l
  let (z, l) ← toggle l
  pure (#v[a, b, c, d, e, f, g, h, i, j, k, x, y, z], l)

/-- The command a request payload of code `code` is: `good` says that payload byte 1 is zero (R171). -/
def requestOf (r : Req) (good : Bool) (body : List Byte) (code : Nat) : Instr :=
  let form {α : Type} (field : List Byte → Option (α × List Byte)) : Body α := if good then whole field body else none
  match code with
  | 1 => .identify r (form empty)
  | 2 => .restart r (form empty)
  | 3 => .noticeSet r (form u8)
  | 8 => .timeSet r (form timeSet)
  | 9 => .timeRead r (form empty)
  | 16 => .portSet r (form portSet)
  | 17 => .portRead r (form u8)
  | 24 => .book r (form book)
  | 25 => .cancel r (form u8)
  | 26 => .close r (form u8)
  | 27 => .extend r (form extend)
  | 28 => .mode r (form mode)
  | 29 => .bookingRead r (form u8)
  | 32 => .patternSet r (form patternSet)
  | 33 => .patternRead r (form u8)
  | 40 => .tariffSet r (form tariffSet)
  | 41 => .tariffRead r (form u8)
  | 48 => .probe r (form u8)
  | 49 => .probeRead r (form orAll)
  | 50 => .probeConfig r (form probeConfig)
  | 56 => .watchSet r (form watchSet)
  | 57 => .watchRead r (form orAll)
  | 58 => .watchUnfreeze r (form empty)
  | 64 => .faultRead r (form empty)
  | 65 => .faultClear r (form (listOf u8))
  | 66 => .faultMask r (form masks)
  | 72 => .billRead r (form empty)
  | 73 => .billRelease r (form u8)
  | c => .unknownRequestCode r c

/-- The request a control payload holds: none when it is shorter than 4 bytes or its code is 128 or more, and the
frame is discarded unanswered (R168). -/
def request (p : PortIx) (m : Moment) : List Byte → Option Instr
  | code :: reserved :: hi :: lo :: body =>
    if 128 ≤ code.toNat then none
    else some (requestOf { port := p, tag := hi ++ lo, m := m } (reserved == 0) body code.toNat)
  | _ => none

end Wire

end Sys2Proof
end

