-- ==== Sys2Proof/Config.lean ====
section
/-! DEFINITION. The fixed figures of the device, each with the rule that gives it, and the two values the manual states
nowhere: free values, which have no body, so that no proof can lean on them. The choices the manual leaves to the order in
which things of one instant are taken are operands of the commands (`Moment` in Syntax.lean). -/

namespace Sys2Proof.Config

/-- The reference clock is counted in tenths of a nanosecond, so that a slot of `(length + 8) × 0.8 ns` (R57), a
sample of 5 ns (R105) and a microsecond (R66) are all whole counts. DESIGN CHOICE, log entry 3. -/
def ticksPerMicro : Nat := 10000
/-- Ticks in a millisecond. -/
def ticksPerMilli : Nat := 10000000
/-- Ticks in a network second (R7). -/
def ticksPerSecond : Nat := 10000000000

/-- The greatest network second and the greatest 32-bit count (R7, R88). -/
def maxU32 : Nat := 4294967295
/-- The modulus of the network second and of the 32-bit counts that wrap (R7, R73, R88). -/
def wrap32 : Nat := 4294967296

/-- Waiting admissions behind the scan in flight (R25). -/
def admissionPlaces : Nat := 4
/-- Waiting probes behind the probe in flight (R96). -/
def probePlaces : Nat := 8
/-- Frames a media queue holds (R55). -/
def mediaQueueDepth : Nat := 256
/-- Frames a control queue holds (R56). -/
def controlQueueDepth : Nat := 16
/-- Billing records the billing queue holds (R163). -/
def billQueueDepth : Nat := 64
/-- Outage records a booking holds (R114). -/
def outageRecordMax : Nat := 8
/-- The longest overrun allowance, in seconds (R2). -/
def maxAllowance : Nat := 7200
/-- Bad checks of a second above which a port in UP enters LOF (R51). -/
def badCheckLimit : Nat := 8
/-- Good frames in a row that bring a port to UP (R50). -/
def goodRunToUp : Nat := 3
/-- The greatest gap that is counted as loss (R90). -/
def maxCountedGap : Nat := 1024
/-- Peaks a probe result keeps (R107). -/
def keptPeaks : Nat := 5
/-- Ticks a control head waits before it may escalate: 2 ms (R57). -/
def escalationTicks : Nat := 20000000
/-- Ticks of one reflectometer sample: 5 ns (R105). -/
def ticksPerSample : Nat := 50
/-- Ticks a byte holds the line: 0.8 ns (R57). -/
def ticksPerLineByte : Nat := 8
/-- Delimiting bytes of a slot (R57). -/
def delimitBytes : Nat := 8
/-- The indefinite charge (R159). -/
def indefiniteCharge : Nat := 4294967295
/-- The greatest ordinary charge (R159). -/
def maxCharge : Nat := 4294967294

/-- Vendor code of IDENTIFY (R177). -/
def vendorCode : Nat := 30215
/-- Part code of IDENTIFY (R177). -/
def partCode : Nat := 1640
/-- Revision of IDENTIFY (R177). -/
def revision : Nat := 1

/-! ## Free values -/

/-- The seconds from `since` to `upto`, two recorded network seconds, where the later one was recorded after the second
count wrapped (R7) and so is the smaller: R156 subtracts them and states no value for this. Any 32-bit count.
DESIGN CHOICE, log entry 31. -/
opaque wrappedSeconds (since upto : Nat) : BitVec 32

/-- Whether the ADMISSION raise of a BOOK entry that completes CANCELLED carries the port, and the second or label, of a
CONFLICT or CLASH that its scan found: R34 gives the outcome as CANCELLED and does not say. DESIGN CHOICE, log entry 32. -/
opaque cancelledNamesVerdict : Bool

end Sys2Proof.Config
end

