-- ==== Sys2Proof/Machine/State.lean ====
section
/-! DEFINITION. The state of the device, block by block as the manual's block diagram owns it (chapter 0), its
power-on values, and the reasons a step can stop. Every field is plain data. A field the manual calls absent is an
`Option`; a FREE booking record is `none` (R1). -/

namespace Sys2Proof.Machine

/-! ## Line ports (chapter 3) -/

/-- A port's role (R41, R42). -/
inductive Role where
  | off | venue | taker | mixed
  deriving DecidableEq, Repr

/-- A port's entitlement on the control channel (R41, R168). -/
inductive ControlClass where
  | none | observer | operator
  deriving DecidableEq, Repr

/-- The link state of a port. The light is DARK exactly in DOWN (section 3.3), so it is read off this. -/
inductive Link where
  | down | acquiring | up | lof
  deriving DecidableEq, Repr

/-- A media copy in an egress queue, with the booking index and destination position it carries unsent (R55, R70). -/
structure MediaCopy where
  booking : BookingIx
  /-- The destination's position, 1 to 4. -/
  position : Nat
  label : Nat
  flags : Byte
  seq : Nat
  payload : List Byte
  deriving DecidableEq, Repr

/-- A response or notice in a control queue, with the instant it was enqueued (R56, R57). -/
structure ControlFrame where
  payload : List Byte
  enqueued : Nat
  deriving DecidableEq, Repr

/-- One line port: settings (R41), receive side (R49 to R53), egress queues and arbiter (R55 to R58). -/
structure Port where
  role : Role
  capacity : Nat
  reserve : Nat
  demarcation : Nat
  cls : ControlClass
  autoProbe : Bool
  link : Link
  /-- The good-frame run (R50). -/
  goodRun : Nat
  /-- Bad checks of the second in progress (R51). -/
  badChecks : Nat
  /-- Whether the port was UP at every instant so far of the second in progress (R53). -/
  upWhole : Bool
  /-- The up-whole indication of the last whole second (R45, R53). -/
  upLast : Bool
  class1 : List MediaCopy
  class2 : List MediaCopy
  control : List ControlFrame
  /-- The frame in transmission, as its bytes, or none when the line stands idle (R57). -/
  sending : Option (List Byte)
  /-- The instant the line becomes free of that frame (R57). -/
  freeAt : Nat
  /-- Whether the previous slot's frame was sent by escalation (R57). -/
  escalated : Bool
  deriving DecidableEq, Repr

/-! ## Bookings (chapters 1, 5 and 7) -/

/-- The states of a record that is not FREE (R1). -/
inductive BookingState where
  | pending | confirmed | armed | live | overrun | closing | closed | refused | cancelled | expired
  deriving DecidableEq, Repr

/-- The protection modes (R2, R82). -/
inductive ProtectionMode where
  | merge | mainOnly | backupOnly
  deriving DecidableEq, Repr

/-- A leg's ident policy (R3). -/
inductive IdentPolicy where
  | none | check | require
  deriving DecidableEq, Repr

/-- The cut reasons, which are also the close reasons held until the boundary (R4). -/
inductive CutReason where
  | endReached | allowanceEnd | sourceIdle | sourceEnded | closed | closedEarly | cancelledArmed | restart | lateCancel
  deriving DecidableEq, Repr

/-- Why a scan refused: CONFLICT with a port and a second, CLASH with a port and a label (R30, R32). -/
inductive Verdict where
  | conflict (port : PortIx) (second : Nat)
  | clash (port : PortIx) (label : Nat)
  deriving DecidableEq, Repr

/-- The last extend outcome (R4, R21). -/
inductive ExtendOutcome where
  | ok | clamped
  | conflict (port : PortIx) (second : Nat)
  | clash (port : PortIx) (label : Nat)
  | state
  deriving DecidableEq, Repr

/-- The leg states (R77). -/
inductive LegState where
  | idle | waiting | receiving | silent
  deriving DecidableEq, Repr

/-- The ident states (R85). -/
inductive IdentState where
  | notChecked | awaiting | matched | mismatched | unconfirmed
  deriving DecidableEq, Repr

/-- A leg of a record: its terms (R3) and what the merge unit keeps for it (R77, R81, R85). -/
structure Leg where
  port : PortIx
  label : Nat
  pattern : Option PatternIx
  policy : IdentPolicy
  state : LegState
  /-- The instant the silence timer expires, while it runs (R77, R79). -/
  silenceAt : Option Nat
  exIdent : Bool
  exWatch : Bool
  exManual : Bool
  /-- The ident state, absent until the booking arms (R85). -/
  ident : Option IdentState
  /-- The instant the ident timeout expires, while it runs (R85). -/
  identAt : Option Nat
  deriving DecidableEq, Repr

/-- Counts by quality band (R127, R128). -/
structure Bands where
  b0 : Nat
  b1 : Nat
  b2 : Nat
  b3 : Nat
  deriving DecidableEq, Repr

/-- The residency counts of a destination (R128). -/
structure Residency where
  deliveredLive : Nat
  undeliveredLive : Nat
  bandLive : Bands
  deliveredOver : Nat
  undeliveredOver : Nat
  bandOver : Bands
  deriving DecidableEq, Repr

/-- What a destination's record holds from LIVE on: the egress-drop counts (R73) and the residency (R128). -/
structure DestAccount where
  secondDrops : Nat
  totalDrops : Nat
  residency : Residency
  deriving DecidableEq, Repr

/-- A destination (R3). -/
structure Dest where
  port : PortIx
  label : Nat
  account : Option DestAccount
  deriving DecidableEq, Repr

/-- The per-leg merge counters (R88). -/
structure LegCounts where
  redundant : Nat
  policerDrops : Nat
  deriving DecidableEq, Repr

/-- The merge state (R88). -/
structure MergeState where
  lastFwd : Option Nat
  resync : Bool
  loss : Nat
  resyncCount : Nat
  main : LegCounts
  backup : LegCounts
  deriving DecidableEq, Repr

/-- A leg's situation (R115). -/
inductive Situation where
  | dark | line | ident | watch | source
  deriving DecidableEq, Repr

/-- The value of a cause (section 7.2). -/
inductive CauseValue where
  | network | venue | unknown
  | pending (probe : ProbeNo)
  deriving DecidableEq, Repr

/-- A break: the probe's port and break distance (R116). -/
structure Break where
  port : PortIx
  distance : Nat
  deriving DecidableEq, Repr

/-- A cause with its optional break (R116). -/
structure Cause where
  value : CauseValue
  brk : Option Break
  deriving DecidableEq, Repr

/-- What an outage record holds for one leg (section 7.3). -/
structure LegCause where
  held : Option Cause
  situation : Option Situation
  carried : Option Cause
  deriving DecidableEq, Repr

/-- An outage record (section 7.3). Its attribution and break are always those its causes give (R117), so they are
read off the causes (`OutageRecord.attribution`, `OutageRecord.brk`). -/
structure OutageRecord where
  start : Nat
  finish : Option Nat
  seconds : Nat
  main : LegCause
  backup : LegCause
  merged : Bool
  deriving DecidableEq, Repr

/-- The outage state of a booking (R114); the residency stands with each destination. -/
structure OutageState where
  flag : Bool
  touched : Bool
  run : Nat
  records : List OutageRecord
  deriving DecidableEq, Repr

/-- A booking record that is not FREE (R1 to R5). -/
structure Booking where
  state : BookingState
  customer : Nat
  tariff : TariffIx
  rate : Nat
  start : Nat
  finish : Nat
  armLead : Nat
  allowance : Nat
  mode : ProtectionMode
  main : Leg
  backup : Option Leg
  dests : List Dest
  /-- close-requested with its close reason (R4). -/
  closeReq : Option CutReason
  cancelReq : Bool
  extendPending : Bool
  restartClose : Bool
  liveFrom : Option Nat
  liveTo : Option Nat
  overrunFrom : Option Nat
  closeSecond : Option Nat
  cut : Option CutReason
  detail : Option Verdict
  lastExtend : Option ExtendOutcome
  merge : Option MergeState
  outage : Option OutageState
  deriving DecidableEq, Repr

/-! ## Admission (chapter 2) -/

/-- The kind of an admission entry (R25); an EXTEND entry carries the new total and the clamped indication. -/
inductive AdmissionKind where
  | book
  | extend (newTotal : Nat) (clamped : Bool)
  deriving DecidableEq, Repr

/-- An admission entry (R25). -/
structure AdmissionEntry where
  kind : AdmissionKind
  booking : BookingIx
  void : Bool
  deriving DecidableEq, Repr

/-- What a scan reads of a booking: rate, window [lo, hi), legs and destinations (R28). -/
structure Claim where
  rate : Nat
  lo : Nat
  hi : Nat
  legs : List (PortIx × Nat)
  dests : List (PortIx × Nat)
  deriving DecidableEq, Repr

/-- The scan in flight: its entry, the candidate read when it began, how many records it has visited and the
considered bookings as they stood at their visits (R27, R28). -/
structure Scan where
  entry : AdmissionEntry
  candidate : Claim
  visited : Nat
  seen : List Claim
  deriving DecidableEq, Repr

/-! ## Flow table (chapter 4) -/

/-- A flow entry with its leg's policer (R59, R65); the depth is `rate × 100,000`, and the last-refill instant is held
to the microsecond, as a count of the reference clock's microseconds. -/
structure FlowEntry where
  port : PortIx
  label : Nat
  booking : BookingIx
  leg : LegId
  rate : Nat
  tokens : Nat
  lastRefill : Nat
  deriving DecidableEq, Repr

/-! ## Pattern table (R84) -/

/-- A set ident pattern: 32 reference bytes and 32 marks. -/
structure Pattern where
  reference : List Byte
  mask : List Bool
  deriving DecidableEq, Repr

/-! ## Reflectometer (chapter 6) -/

/-- A segment of a probe configuration (R105). -/
structure Segment where
  first : Nat
  last : Nat
  exponent : Nat
  shadow : Nat
  threshold : Nat
  deriving DecidableEq, Repr

/-- The probe configuration (R112). -/
structure ProbeConfig where
  segments : List Segment
  silence : Nat
  preMs : Nat
  breakThreshold : Nat
  q : Nat
  deriving DecidableEq, Repr

/-- The phases of a probe in flight (R96); segments are numbered from 1. -/
inductive Phase where
  | preSilence
  | segment (k : Nat)
  | postSilence
  deriving DecidableEq, Repr

/-- A peak, at a sample index with an averaged amplitude (R106). -/
structure Peak where
  index : Nat
  amplitude : Nat
  deriving DecidableEq, Repr

/-- The probe in flight (R96, R102). `began` is the instant its phase's timer began, absent until the transmitter
has passed. -/
structure Flight where
  number : ProbeNo
  port : PortIx
  config : ProbeConfig
  phase : Phase
  began : Option Nat
  peaks : List Peak
  deriving DecidableEq, Repr

/-- A waiting probe (R96). -/
structure WaitingProbe where
  number : ProbeNo
  port : PortIx
  deriving DecidableEq, Repr

/-- The outcomes of a probe (R110). -/
inductive ProbeOutcome where
  | brk | noBreak | liveFibre | aborted | timeout
  deriving DecidableEq, Repr

/-- A kept peak, by its distance and averaged amplitude (R107, R111). -/
structure KeptPeak where
  distance : Nat
  amplitude : Nat
  deriving DecidableEq, Repr

/-- A port's last probe result (R111), with the time-set indication at its second (R170). -/
structure ProbeResult where
  number : ProbeNo
  outcome : ProbeOutcome
  peaks : List KeptPeak
  breakDistance : Option Nat
  second : Nat
  timeSet : Bool
  deriving DecidableEq, Repr

/-! ## Watch counters (chapter 8) -/

/-- The countable events (R130). -/
inductive WatchKind where
  | rxFrames | rxBadCheck | rxUnbooked | forwarded | policerDrops | redundant | mergeGaps | egressDrops
  | legSilentEntries | outageSeconds | liveBookings
  deriving DecidableEq, Repr

/-- A counter's scope (R130, R132). -/
inductive Scope where
  | any
  | port (p : PortIx)
  | booking (b : BookingIx)
  | leg (b : BookingIx) (l : LegId)
  deriving DecidableEq, Repr

/-- The label, kind and END positions of a match or a mask (R130, R133). -/
structure FrameBits where
  label : BitVec 12
  kind : BitVec 8
  endBit : BitVec 1
  deriving DecidableEq, Repr

/-- The overflow actions (R130, R139). -/
inductive WatchAction where
  | none | excludeLeg | probePort
  deriving DecidableEq, Repr

/-- A watch counter (R130). -/
structure Counter where
  event : WatchKind
  scope : Scope
  matchBits : FrameBits
  maskBits : FrameBits
  threshold : Nat
  edge : Bool
  invert : Bool
  notice : Bool
  member : Bool
  action : WatchAction
  value : Nat
  overflow : Bool
  secondTotal : Nat
  previousMet : Bool
  starting : Bool
  deriving DecidableEq, Repr

/-! ## Faults (chapter 9) -/

/-- The fault classes, 1 to 14 (section 9.1). -/
inductive FaultClass where
  | los | lof | legSilent | wrongSource | excess | feedLost | overrunEntered | overrunExhausted | missed | admission
  | billWait | watchOverflow | probeDone | controlDrop
  deriving DecidableEq, Repr

/-- The items a raise carries (section 9.1). -/
structure RaiseItems where
  port : Option PortIx
  booking : Option BookingIx
  leg : Option LegId
  deriving DecidableEq, Repr

/-- The detail two classes carry (section 9.1): ADMISSION's kind, outcome code and qualified value, WATCH_OVERFLOW's
counter (R175). -/
inductive Detail where
  | admission (extend : Bool) (outcome : Nat) (qualifier : Nat) (value : Nat)
  | watch (counter : CounterIx)
  deriving DecidableEq, Repr

/-- A raise on its way to the fault unit: its class, the items it carries and its detail (R144). -/
structure Raise where
  cls : FaultClass
  items : RaiseItems
  detail : Option Detail
  deriving DecidableEq, Repr

/-- A latched first-fault capture (R143). -/
structure Capture where
  cls : FaultClass
  items : RaiseItems
  second : Nat
  milli : Nat
  timeSet : Bool
  deriving DecidableEq, Repr

/-! ## Billing (chapter 10) -/

/-- The rounding modes (R151, R158). -/
inductive Rounding where
  | nearestEven | floor | ceiling
  deriving DecidableEq, Repr

/-- A set tariff (R151). -/
structure Tariff where
  price : Nat
  multiplier : Nat
  disc1 : Nat
  disc2 : Nat
  disc3 : Nat
  t1 : Nat
  t2 : Nat
  t3 : Nat
  creditFactor : Nat
  creditUnknown : Bool
  rounding : Rounding
  lateWindow : Nat
  latePercent : Nat
  deriving DecidableEq, Repr

/-- The bill kinds (R17). -/
inductive BillKind where
  | completed | cut | lateCancel
  deriving DecidableEq, Repr

/-- An attribution (R117). -/
inductive Attribution where
  | network | venue | unknown | pending
  deriving DecidableEq, Repr

/-- An outage record as a bill carries it (R161). -/
structure BillOutage where
  start : Nat
  finish : Option Nat
  seconds : Nat
  attribution : Attribution
  merged : Bool
  brk : Option Break
  deriving DecidableEq, Repr

/-- A destination line (R161). -/
structure BillLine where
  port : PortIx
  deliveredLive : Nat
  deliveredOver : Nat
  bandLive : Bands
  bandOver : Bands
  charge : Nat
  creditClamped : Bool
  saturated : Bool
  deriving DecidableEq, Repr

/-- A billing record (R161). -/
structure Bill where
  booking : BookingIx
  customer : Nat
  tariff : TariffIx
  kind : BillKind
  cut : CutReason
  start : Nat
  finish : Nat
  liveFrom : Option Nat
  liveTo : Option Nat
  closeSecond : Nat
  liveSeconds : Nat
  overSeconds : Nat
  outNetwork : Nat
  outVenue : Nat
  outUnknown : Nat
  outages : List BillOutage
  lines : List BillLine
  total : Nat
  saturated : Bool
  deriving DecidableEq, Repr

/-! ## Control channel (chapter 11) -/

/-- The start cause IDENTIFY reports (R178). -/
inductive StartCause where
  | none | powerOn | restart
  deriving DecidableEq, Repr

/-! ## The device -/

/-- The whole state of the device, and the queue of the commands that wait. -/
structure State where
  /-- The commands waiting, first in, first out (the model's own). -/
  pending : List Instr
  /-- The reference clock, in tenths of a nanosecond since power-on (R65, R77, R103). -/
  clock : Nat
  /-- Network time: the second count (R7). -/
  sec : Nat
  /-- Reference-clock ticks since the second in progress began; the millisecond count is read off it (R7). -/
  sub : Nat
  /-- Whether time is set (R7). -/
  timeSet : Bool
  /-- The idle-close setting, in seconds (R8). -/
  idleClose : Nat
  /-- Restart-in-progress (section 1.7). -/
  restart : Bool
  /-- The booking table; `none` is FREE (R1). -/
  bookings : Vector (Option Booking) 256
  /-- The scan in flight (R25). -/
  scan : Option Scan
  /-- The waiting admissions, head first (R25). -/
  waiting : List AdmissionEntry
  /-- The line ports (R41). -/
  ports : Vector Port 16
  /-- The flow entries (R59). -/
  flows : List FlowEntry
  /-- The deferred installations (R59, R60). -/
  deferred : List (BookingIx × LegId)
  /-- The pattern table; `none` is empty (R84). -/
  patterns : Vector (Option Pattern) 32
  /-- The leg-silence time, in milliseconds (R80). -/
  silenceMs : Nat
  /-- The ident timeout, in seconds (R84). -/
  identTimeout : Nat
  /-- The probe in flight (R96). -/
  flight : Option Flight
  /-- The waiting probes, head first (R96). -/
  probeWaiting : List WaitingProbe
  /-- The probe number counter (R96). -/
  probeCounter : ProbeNo
  /-- The probe configuration (R112). -/
  probeConfig : ProbeConfig
  /-- The last probe result of each port (R111). -/
  lastResults : Vector (Option ProbeResult) 16
  /-- The watch counters (R130). -/
  counters : Vector Counter 8
  /-- The frozen indication (R130). -/
  frozen : Bool
  /-- The sticky flags, in class order (R143). -/
  flags : Vector Bool 14
  /-- The notice masks, in class order; true is masked (R143). -/
  masks : Vector Bool 14
  /-- The first-fault capture; `none` is armed (R143). -/
  capture : Option Capture
  /-- The raises of the event in progress that have not reached the fault unit yet, in the order they were made; empty
  between commands (R145; the model's own, log entry 27). -/
  raised : List Raise
  /-- The tariff table; `none` is empty (R151). -/
  tariffs : Vector (Option Tariff) 16
  /-- The billing queue, head first (R163). -/
  bills : List Bill
  /-- The bill-waiting list, head first (R155). -/
  billWaiting : List Bill
  /-- The notice port (R176). -/
  noticePort : PortIx
  /-- The start cause (R178). -/
  startCause : StartCause
  /-- The strap values read at power-on (R179). -/
  straps : Straps
  deriving DecidableEq, Repr

/-- The faults of a step. The manual gives every command an effect in every state, so there is none: no meaning
answers with a fault. -/
inductive Fault where
  deriving DecidableEq, Repr

/-- The refusals of a step. -/
inductive Refusal where
  /-- A command that has no meaning yet, by its mnemonic; raised by `exec`'s arms alone, of which none is left. Safe:
  the model stops where the device goes on. -/
  | notModelled (mnemonic : String)
  deriving DecidableEq, Repr

/-! ## Power-on values -/

/-- A port after power-on, before its control class and with both queues and line empty (R41, R49, section 3.5). -/
def Port.initial : Port :=
  { role := .off, capacity := 960, reserve := 20, demarcation := 0, cls := .none, autoProbe := false,
    link := .down, goodRun := 0, badChecks := 0, upWhole := false, upLast := false,
    class1 := [], class2 := [], control := [], sending := none, freeAt := 0, escalated := false }

/-- No position compared (R130). -/
def FrameBits.zero : FrameBits := { label := 0, kind := 0, endBit := 0 }

/-- A counter after power-on and at restart completion (R130). -/
def Counter.initial : Counter :=
  { event := .rxFrames, scope := .any, matchBits := .zero, maskBits := .zero, threshold := 0, edge := false,
    invert := false, notice := false, member := false, action := .none, value := 0, overflow := false,
    secondTotal := 0, previousMet := false, starting := true }

/-- The probe configuration after power-on (R112). -/
def ProbeConfig.initial : ProbeConfig :=
  { segments := [{ first := 0, last := 65535, exponent := 4, shadow := 8, threshold := 256 }], silence := 64,
    preMs := 2, breakThreshold := 1024, q := 523 }

/-- The default masks, in class order: LEG_SILENT, EXCESS, OVERRUN_ENTERED, ADMISSION and PROBE_DONE are masked
(section 9.1). -/
def defaultMasks : Vector Bool 14 :=
  #v[false, false, true, false, true, false, true, false, false, true, false, false, true, false]

/-- Every block in its power-on state, with the strap values read (R179). -/
def State.powerOn (straps : Straps) (pending : List Instr) : State :=
  { pending := pending, clock := 0, sec := 0, sub := 0, timeSet := false, idleClose := 30, restart := false,
    bookings := Vector.replicate 256 none, scan := none, waiting := [],
    ports := (Vector.replicate 16 Port.initial).set straps.opport { Port.initial with cls := .operator },
    flows := [], deferred := [], patterns := Vector.replicate 32 none, silenceMs := 200, identTimeout := 10,
    flight := none, probeWaiting := [], probeCounter := 0, probeConfig := .initial,
    lastResults := Vector.replicate 16 none,
    counters := Vector.replicate 8 .initial, frozen := false, flags := Vector.replicate 14 false,
    masks := defaultMasks, capture := none, raised := [], tariffs := Vector.replicate 16 none, bills := [], billWaiting := [],
    noticePort := straps.opport, startCause := .powerOn, straps := straps }

/-- The strap pins at reset: all low. DESIGN CHOICE, log entry 1: the pins are outside inputs. -/
def lowStraps : Straps := { node := 0, opport := 0, prbfit := 0 }

/-- The machine right after reset: powered on with all straps low and no command waiting. -/
def State.reset : State := State.powerOn lowStraps []

end Sys2Proof.Machine
end

