-- ==== Sys2Proof/Machine/Ops.lean ====
section
/-! DEFINITION. The named operations over the state that every block uses: time (R7), the records, ports and their
fields, the orders a command's moment gives, and the accessors the rules read by. -/

namespace Sys2Proof.Machine
open Sys2Proof.Config

/-! ## Orders -/

/-- A list without its later repeats. -/
def distinct {α : Type} [DecidableEq α] : List α → List α
  | [] => []
  | x :: xs => x :: (distinct xs).filter (fun y => decide (y ≠ x))

/-- Everything of `all`, the listed ones first and in the order listed. -/
def firstThenRest {α : Type} [DecidableEq α] (first all : List α) : List α :=
  distinct first ++ all.filter (fun x => decide (x ∉ first))

/-- The order in which a moment takes the bookings: each of the 256 once. -/
def bookingOrder (m : Moment) : List BookingIx := firstThenRest m.bookings (List.finRange 256)

/-- The order in which a moment takes the watch counters: each of the eight once (R138). -/
def counterOrder (m : Moment) : List CounterIx := firstThenRest m.counters (List.finRange 8)

/-- The order in which a moment takes a booking's two legs (R116). -/
def legOrder (m : Moment) : List LegId := if m.backupFirst then [.backup, .main] else [.main, .backup]

/-! ## Time (R7) -/

/-- The millisecond count: 0..999, at 999 while the boundary is due and not yet taken. -/
def State.milli (s : State) : Nat := min 999 (s.sub / ticksPerMilli)

/-- Reference-clock time passes. -/
def State.elapse (dt : Nat) (s : State) : State := { s with clock := s.clock + dt, sub := s.sub + dt }

/-- An event begins after the time `dt`: nothing of it has been raised yet. -/
def State.beginEvent (dt : Nat) (s : State) : State := { s.elapse dt with raised := [] }

/-- Reference-clock time passes up to the instant `t`, or not at all when it is past. -/
def State.elapseTo (t : Nat) (s : State) : State := s.elapse (t - s.clock)

/-! ## Ports -/

/-- The port numbered `p`. -/
def State.port (s : State) (p : PortIx) : Port := s.ports[p]

/-- The port `p` replaced. -/
def State.setPort (s : State) (p : PortIx) (x : Port) : State := { s with ports := s.ports.set p x }

/-- A port is DARK exactly when it is DOWN (section 3.3). -/
def Port.lit (x : Port) : Bool := decide (x.link ≠ .down)

/-- The bookable capacity: capacity minus reserve, 0 when the reserve is the greater (R41). -/
def Port.bookable (x : Port) : Nat := x.capacity - x.reserve

/-- Probe availability, from the PRBFIT strap (R41, R179). -/
def State.fitted (s : State) (p : PortIx) : Bool := s.straps.prbfit.getLsbD p

/-- A frame is in transmission on the port's line (R102). -/
def State.lineBusy (s : State) (p : PortIx) : Bool :=
  (s.port p).sending.isSome && decide (s.clock < (s.port p).freeAt)

/-! ## Booking records -/

/-- The record numbered `b`, or none when it is FREE. -/
def State.booking (s : State) (b : BookingIx) : Option Booking := s.bookings[b]

/-- The record `b` replaced. -/
def State.setBooking (s : State) (b : BookingIx) (x : Option Booking) : State :=
  { s with bookings := s.bookings.set b x }

/-- The record `b` changed by `f`, unless it is FREE. -/
def State.updBooking (s : State) (b : BookingIx) (f : Booking → Booking) : State :=
  match s.booking b with
  | none => s
  | some r => s.setBooking b (some (f r))

/-- The leg named, if the booking has it (R3). -/
def Booking.leg (r : Booking) : LegId → Option Leg
  | .main => some r.main
  | .backup => r.backup

/-- The leg named changed by `f`. -/
def Booking.updLeg (r : Booking) (l : LegId) (f : Leg → Leg) : Booking :=
  match l with
  | .main => { r with main := f r.main }
  | .backup => { r with backup := r.backup.map f }

/-- The legs a booking has, main first. -/
def Booking.legs (r : Booking) : List Leg := r.main :: r.backup.toList

/-- The booking forwards, in LIVE or OVERRUN. -/
def Booking.forwarding (r : Booking) : Bool := decide (r.state = .live ∨ r.state = .overrun)

/-- The booking is ARMED, LIVE or OVERRUN: its legs have flow entries (R62). -/
def Booking.carrying (r : Booking) : Bool := decide (r.state = .armed ∨ r.state = .live ∨ r.state = .overrun)

/-- The booking counts for admission: CONFIRMED to CLOSING (R6, R28). -/
def Booking.counted (r : Booking) : Bool :=
  decide (r.state = .confirmed ∨ r.state = .armed ∨ r.state = .live ∨ r.state = .overrun ∨ r.state = .closing)

/-- The booking uses its ports against PORT SET: PENDING to CLOSING (R43). -/
def Booking.holdsPorts (r : Booking) : Bool := decide (r.state = .pending) || r.counted

/-- The booking names `p` as a leg port or destination port. -/
def Booking.usesPort (r : Booking) (p : PortIx) : Bool :=
  r.legs.any (fun l => decide (l.port = p)) || r.dests.any (fun d => decide (d.port = p))

/-- A leg is usable when it is RECEIVING and its exclusion set is empty (R81). -/
def Leg.usable (l : Leg) : Bool := decide (l.state = .receiving) && !l.exIdent && !l.exWatch && !l.exManual

/-- The booking has a usable leg. -/
def Booking.anyUsable (r : Booking) : Bool := r.legs.any Leg.usable

/-- The first second of the occupancy window (R6). -/
def Booking.windowStart (r : Booking) : Nat := r.start - r.armLead

/-- What a scan reads of a booking, with a window ending at `finish + allowance` (R28). -/
def Booking.claim (r : Booking) (allowance : Nat) : Claim :=
  { rate := r.rate, lo := r.windowStart, hi := r.finish + allowance,
    legs := r.legs.map fun l => (l.port, l.label), dests := r.dests.map fun d => (d.port, d.label) }

/-- The booking lived the second `s` in LIVE or OVERRUN, by its recorded times (R126). -/
def Booking.lived (r : Booking) (s : Nat) : Bool :=
  match r.liveFrom with
  | none => false
  | some from_ => decide (from_ ≤ s) && r.liveTo.all (fun t => decide (s < t))

/-- `s` is an overrun second of the booking (R126). -/
def Booking.overrunSecond (r : Booking) (s : Nat) : Bool := r.overrunFrom.any (fun t => decide (t ≤ s))

/-- The non-FREE records that satisfy a test exist. -/
def State.anyBooking (s : State) (test : Booking → Bool) : Bool := s.bookings.toList.any (·.any test)

/-- How many non-FREE records satisfy a test. -/
def State.countBookings (s : State) (test : Booking → Bool) : Nat := s.bookings.toList.countP (·.any test)

/-! ## The scan's visits (R27, R28, R38) -/

/-- What the scan reads at its visit of record `i`: the record's claim when it is considered. -/
def Scan.visit (sc : Scan) (table : Vector (Option Booking) 256) (i : BookingIx) : Option Claim :=
  match table[i] with
  | some r => if i ≠ sc.entry.booking && r.counted then some (r.claim r.allowance) else none
  | none => none

/-- The scan visits, in index order, every record below `n` it has not visited yet. -/
def Scan.visitTo (sc : Scan) (table : Vector (Option Booking) 256) (n : Nat) : Scan :=
  { sc with
    visited := max sc.visited (min n 256)
    seen := sc.seen ++
      ((List.finRange 256).filter (fun i => decide (sc.visited ≤ i.val ∧ i.val < n))).filterMap (sc.visit table) }

/-- The moment of a command: its time passes, and the scan in flight makes its visits. -/
def State.advance (m : Moment) (s : State) : State :=
  let s := s.beginEvent m.dt
  match s.scan with
  | none => s
  | some sc => { s with scan := some (sc.visitTo s.bookings m.visits) }

/-! ## Sequence numbers (chapter 0) -/

/-- `(s − l) mod 65,536`. -/
def seqDistance (s l : Nat) : Nat := (s + (65536 - l % 65536)) % 65536

/-- A 32-bit count that wraps. -/
def wrapAdd (n k : Nat) : Nat := (n + k) % wrap32

/-- A 32-bit count that holds at its top. -/
def holdAdd (n k : Nat) : Nat := min maxU32 (n + k)

end Sys2Proof.Machine
end

