-- ==== Sys2Proof/Machine/Wire.lean ====
section
/-! DEFINITION. The carriage frame and the encodings of fields: byte order (section 3.2), the frame check (R47), the
fields of a received frame and malformedness (R46, R48), and the field encodings of R169. -/

namespace Sys2Proof.Machine

/-! ## Field encodings (R169) -/

/-- One byte. -/
def enc8 (n : Nat) : List Byte := [BitVec.ofNat 8 n]
/-- Two bytes, most significant first. -/
def enc16 (n : Nat) : List Byte := [BitVec.ofNat 8 (n / 256), BitVec.ofNat 8 n]
/-- Four bytes, most significant first. -/
def enc32 (n : Nat) : List Byte :=
  [BitVec.ofNat 8 (n / 16777216), BitVec.ofNat 8 (n / 65536), BitVec.ofNat 8 (n / 256), BitVec.ofNat 8 n]
/-- Set or clear, yes or no, on or off. -/
def encBool (b : Bool) : List Byte := if b then [1] else [0]
/-- `n` zero bytes. -/
def zeros (n : Nat) : List Byte := List.replicate n 0
/-- An optional field of fixed width: its presence byte, then the field or zero bytes. -/
def encOpt {α : Type} (width : Nat) (enc : α → List Byte) : Option α → List Byte
  | some x => 1 :: enc x
  | none => 0 :: zeros width
/-- An optional field with no fixed width: absent, it is its presence byte alone, as R175 gives for a detail.
DEDUCED, log entry 8. -/
def encOptVar {α : Type} (enc : α → List Byte) : Option α → List Byte
  | some x => 1 :: enc x
  | none => [0]
/-- A list of varying length: a 1-byte count, then the items. -/
def encList {α : Type} (enc : α → List Byte) (l : List α) : List Byte := enc8 l.length ++ l.flatMap enc

/-- A byte of eight marks, the first in the most significant bit. -/
def encMarks (l : List Bool) : Byte := BitVec.ofNat 8 (l.foldl (fun n b => 2 * n + b.toNat) 0)

/-- A 32-mark compare mask as four bytes. -/
def encMask (l : List Bool) : List Byte :=
  [encMarks (l.take 8), encMarks ((l.drop 8).take 8), encMarks ((l.drop 16).take 8), encMarks ((l.drop 24).take 8)]

/-! Enumerated values: the position in the list where the owning rule first names them (R169). -/

def legCode : LegId → Nat
  | .main => 0 | .backup => 1
def legOfCode : Nat → Option LegId
  | 0 => some .main | 1 => some .backup | _ => none
def Role.code : Role → Nat
  | .off => 0 | .venue => 1 | .taker => 2 | .mixed => 3
def Role.ofCode : Nat → Option Role
  | 0 => some .off | 1 => some .venue | 2 => some .taker | 3 => some .mixed | _ => none
def ControlClass.code : ControlClass → Nat
  | .none => 0 | .observer => 1 | .operator => 2
def ControlClass.ofCode : Nat → Option ControlClass
  | 0 => some .none | 1 => some .observer | 2 => some .operator | _ => Option.none
/-- DOWN, ACQUIRING, UP, LOF, as section 3.3 lists them. -/
def Link.code : Link → Nat
  | .down => 0 | .acquiring => 1 | .up => 2 | .lof => 3
/-- FREE is 0 (R1). -/
def BookingState.code : BookingState → Nat
  | .pending => 1 | .confirmed => 2 | .armed => 3 | .live => 4 | .overrun => 5 | .closing => 6 | .closed => 7
  | .refused => 8 | .cancelled => 9 | .expired => 10
def ProtectionMode.code : ProtectionMode → Nat
  | .merge => 0 | .mainOnly => 1 | .backupOnly => 2
def ProtectionMode.ofCode : Nat → Option ProtectionMode
  | 0 => some .merge | 1 => some .mainOnly | 2 => some .backupOnly | _ => none
def IdentPolicy.code : IdentPolicy → Nat
  | .none => 0 | .check => 1 | .require => 2
def IdentPolicy.ofCode : Nat → Option IdentPolicy
  | 0 => some .none | 1 => some .check | 2 => some .require | _ => Option.none
/-- The list of R4; close reasons are held cut reasons and take the same codes (DEDUCED, log entry 9). -/
def CutReason.code : CutReason → Nat
  | .endReached => 0 | .allowanceEnd => 1 | .sourceIdle => 2 | .sourceEnded => 3 | .closed => 4 | .closedEarly => 5
  | .cancelledArmed => 6 | .restart => 7 | .lateCancel => 8
def LegState.code : LegState → Nat
  | .idle => 0 | .waiting => 1 | .receiving => 2 | .silent => 3
def IdentState.code : IdentState → Nat
  | .notChecked => 0 | .awaiting => 1 | .matched => 2 | .mismatched => 3 | .unconfirmed => 4
def Situation.code : Situation → Nat
  | .dark => 0 | .line => 1 | .ident => 2 | .watch => 3 | .source => 4
def CauseValue.code : CauseValue → Nat
  | .network => 0 | .venue => 1 | .unknown => 2 | .pending _ => 3
def Attribution.code : Attribution → Nat
  | .network => 0 | .venue => 1 | .unknown => 2 | .pending => 3
def ProbeOutcome.code : ProbeOutcome → Nat
  | .brk => 0 | .noBreak => 1 | .liveFibre => 2 | .aborted => 3 | .timeout => 4
/-- PRE_SILENCE 0, SEGMENT k as k, POST_SILENCE 6 (R170). -/
def Phase.code : Phase → Nat
  | .preSilence => 0 | .segment k => k | .postSilence => 6
def WatchKind.code : WatchKind → Nat
  | .rxFrames => 0 | .rxBadCheck => 1 | .rxUnbooked => 2 | .forwarded => 3 | .policerDrops => 4 | .redundant => 5
  | .mergeGaps => 6 | .egressDrops => 7 | .legSilentEntries => 8 | .outageSeconds => 9 | .liveBookings => 10
def WatchKind.ofCode : Nat → Option WatchKind
  | 0 => some .rxFrames | 1 => some .rxBadCheck | 2 => some .rxUnbooked | 3 => some .forwarded
  | 4 => some .policerDrops | 5 => some .redundant | 6 => some .mergeGaps | 7 => some .egressDrops
  | 8 => some .legSilentEntries | 9 => some .outageSeconds | 10 => some .liveBookings | _ => none
def WatchAction.code : WatchAction → Nat
  | .none => 0 | .excludeLeg => 1 | .probePort => 2
def WatchAction.ofCode : Nat → Option WatchAction
  | 0 => some .none | 1 => some .excludeLeg | 2 => some .probePort | _ => Option.none
/-- The class numbers of section 9.1. -/
def FaultClass.number : FaultClass → Nat
  | .los => 1 | .lof => 2 | .legSilent => 3 | .wrongSource => 4 | .excess => 5 | .feedLost => 6
  | .overrunEntered => 7 | .overrunExhausted => 8 | .missed => 9 | .admission => 10 | .billWait => 11
  | .watchOverflow => 12 | .probeDone => 13 | .controlDrop => 14
def Rounding.code : Rounding → Nat
  | .nearestEven => 0 | .floor => 1 | .ceiling => 2
def Rounding.ofCode : Nat → Option Rounding
  | 0 => some .nearestEven | 1 => some .floor | 2 => some .ceiling | _ => none
def BillKind.code : BillKind → Nat
  | .completed => 0 | .cut => 1 | .lateCancel => 2
def StartCause.code : StartCause → Nat
  | .none => 0 | .powerOn => 1 | .restart => 2

/-! ## The frame check (R47) -/

/-- One bit into the check register: shifted one place toward its least significant end, and exclusive-ORed with
3,988,292,384 when the bit shifted out differs from the bit taken. -/
def crcBit (reg : BitVec 32) (bit : Bool) : BitVec 32 :=
  let shifted := reg >>> 1
  if reg.getLsbD 0 != bit then shifted ^^^ 3988292384#32 else shifted

/-- One byte, least significant bit first. -/
def crcByte (reg : BitVec 32) (b : Byte) : BitVec 32 :=
  (List.range 8).foldl (fun r i => crcBit r (b.getLsbD i)) reg

/-- The check over the bytes: preset to all ones, complemented at the end. -/
def crc32 (bytes : List Byte) : BitVec 32 := ~~~ (bytes.foldl crcByte 0xFFFFFFFF#32)

/-- The four frame-check bytes, most significant first. -/
def checkBytes (bytes : List Byte) : List Byte := enc32 (crc32 bytes).toNat

/-! ## Frames (section 3.2) -/

/-- The four kinds of frame (R46). -/
inductive FrameKind where
  | media | ident | fill | control
  deriving DecidableEq, Repr

def FrameKind.code : FrameKind → Nat
  | .media => 1 | .ident => 2 | .fill => 3 | .control => 4
def FrameKind.ofCode : Nat → Option FrameKind
  | 1 => some .media | 2 => some .ident | 3 => some .fill | 4 => some .control | _ => none

/-- A frame with good check and header: its fields (R46). -/
structure Frame where
  label : Nat
  kind : FrameKind
  flags : Byte
  seq : Nat
  payload : List Byte
  deriving DecidableEq, Repr

/-- The END flag, bit 0 of the flags (section 3.2). -/
def Frame.endFlag (f : Frame) : Bool := f.flags.getLsbD 0

/-- The label, kind and END flag of a frame as received, for the watch counters; a frame of fewer than 8 bytes
carries none (R48). -/
def headerBits : List Byte → Option FrameBits
  | l1 :: l0 :: k :: f :: _ :: _ :: _ :: _ :: _ =>
    some { label := BitVec.ofNat 12 (l1.toNat * 256 + l0.toNat), kind := k, endBit := BitVec.ofBool (f.getLsbD 0) }
  | _ => none

/-- The frame the bytes are, or none when they are malformed (R48). -/
def readFrame (bytes : List Byte) : Option Frame :=
  match bytes with
  | l1 :: l0 :: k :: f :: s1 :: s0 :: n1 :: n0 :: rest =>
    let label := l1.toNat * 256 + l0.toNat
    let len := n1.toNat * 256 + n0.toNat
    let body := bytes.take (bytes.length - 4)
    if bytes.length < 12 ∨ 1452 < bytes.length then none
    else if bytes.drop (bytes.length - 4) ≠ checkBytes body then none
    else if 1440 < len ∨ 12 + len ≠ bytes.length then none
    else if 4096 ≤ label ∨ 2 ≤ f.toNat then none
    else
      match FrameKind.ofCode k.toNat with
      | none => none
      | some kind =>
        if (label = 0) ↔ (kind = .control) then
          some { label, kind, flags := f, seq := s1.toNat * 256 + s0.toNat, payload := rest.take len }
        else none
  | _ => none

/-- A frame's bytes, with the check newly computed (R46, R47). -/
def frameBytes (label kind : Nat) (flags : Byte) (seq : Nat) (payload : List Byte) : List Byte :=
  let body := enc16 label ++ enc8 kind ++ [flags] ++ enc16 seq ++ enc16 payload.length ++ payload
  body ++ checkBytes body

/-- A fill frame: label 4,095, everything else 0, no payload (R46). -/
def fillFrame : List Byte := frameBytes 4095 3 0 0 []

/-- A control frame: label 0, sequence number 0, flags 0 (R46). -/
def controlFrame (payload : List Byte) : List Byte := frameBytes 0 4 0 0 payload

/-- A media copy as sent (R46, R70). -/
def MediaCopy.frame (c : MediaCopy) : List Byte := frameBytes c.label 1 c.flags c.seq c.payload

/-- Ticks a frame of the given length holds the line: `(length + 8) × 0.8 ns` (R57). -/
def slotTicks (length : Nat) : Nat := (length + Config.delimitBytes) * Config.ticksPerLineByte

end Sys2Proof.Machine
end

