-- ==== Sys2Proof/Machine/Flags.lean ====
section
/-! DEFINITION. The fault unit's flags, masks, capture and notices (chapter 9), the offer of a frame to a control
queue (R56), and the response of the control channel unit (R173). -/

namespace Sys2Proof.Machine
open Sys2Proof.Config

/-- The class's place among the fourteen flags and masks. -/
def FaultClass.ix : FaultClass → Fin 14
  | .los => 0 | .lof => 1 | .legSilent => 2 | .wrongSource => 3 | .excess => 4 | .feedLost => 5
  | .overrunEntered => 6 | .overrunExhausted => 7 | .missed => 8 | .admission => 9 | .billWait => 10
  | .watchOverflow => 11 | .probeDone => 12 | .controlDrop => 13

/-- The detail's bytes (R175). -/
def Detail.bytes : Detail → List Byte
  | .admission extend outcome qualifier value => encBool extend ++ enc8 outcome ++ enc8 qualifier ++ enc32 value
  | .watch c => enc8 c.val

/-- No items. -/
def RaiseItems.none : RaiseItems := { port := .none, booking := .none, leg := .none }
/-- A port alone. -/
def RaiseItems.ofPort (p : PortIx) : RaiseItems := { port := some p, booking := .none, leg := .none }
/-- A booking alone. -/
def RaiseItems.ofBooking (b : BookingIx) : RaiseItems := { port := .none, booking := some b, leg := .none }
/-- An ingress port, a booking and a leg. -/
def RaiseItems.ofLeg (p : PortIx) (b : BookingIx) (l : LegId) : RaiseItems :=
  { port := some p, booking := some b, leg := some l }

/-- A notice's payload (R146, R175): code 255, the class number, a zero tag, then the items. -/
def noticePayload (c : FaultClass) (it : RaiseItems) (second milli : Nat) (timeSet : Bool) (d : Option Detail) :
    List Byte :=
  enc8 255 ++ enc8 c.number ++ enc16 0 ++
    encOpt 1 (fun p : PortIx => enc8 p.val) it.port ++
    encOpt 1 (fun b : BookingIx => enc8 b.val) it.booking ++
    encOpt 1 (fun l : LegId => enc8 (legCode l)) it.leg ++
    enc32 second ++ enc16 milli ++ encBool timeSet ++ encOptVar Detail.bytes d

/-- The flag set and, when the capture is armed, the raise latched (R144, R145). -/
def State.recordRaise (c : FaultClass) (it : RaiseItems) (s : State) : State :=
  { s with
    flags := s.flags.set c.ix true
    capture :=
      match s.capture with
      | some latched => some latched
      | none => some { cls := c, items := it, second := s.sec, milli := s.milli, timeSet := s.timeSet } }

/-- The control queue of `p` has room (R56). -/
def State.controlRoom (s : State) (p : PortIx) : Bool := decide ((s.port p).control.length < controlQueueDepth)

/-- A frame appended to the control queue of `p`. -/
def State.appendControl (p : PortIx) (payload : List Byte) (s : State) : State :=
  s.setPort p { s.port p with control := (s.port p).control ++ [{ payload := payload, enqueued := s.clock }] }

/-- CONTROL_DROP raised for the full control queue of `p`. Its own notice, discarded by a full queue, raises nothing
(R56, R147). -/
def State.raiseControlDrop (p : PortIx) (s : State) : State :=
  let t := s.recordRaise .controlDrop (.ofPort p)
  if t.masks[FaultClass.controlDrop.ix] then t
  else if t.controlRoom t.noticePort then
    t.appendControl t.noticePort (noticePayload .controlDrop (.ofPort p) t.sec t.milli t.timeSet none)
  else t

/-- A response or a notice offered to the control queue of `p` (R56). -/
def State.offerControl (p : PortIx) (payload : List Byte) (s : State) : State :=
  if s.controlRoom p then s.appendControl p payload else s.raiseControlDrop p

/-- The fault unit takes a raise of a class other than CONTROL_DROP, which only a full queue raises: the flag, the capture,
the notice (R144). -/
def State.takeRaise (x : Raise) (s : State) : State :=
  let t := s.recordRaise x.cls x.items
  if t.masks[x.cls.ix] then t
  else t.offerControl t.noticePort (noticePayload x.cls x.items t.sec t.milli t.timeSet x.detail)

/-- A block raises a class: the raise stands with the others of its event until the fault unit takes them (R144, R145). -/
def State.raise (c : FaultClass) (it : RaiseItems) (d : Option Detail) (s : State) : State :=
  { s with raised := s.raised ++ [{ cls := c, items := it, detail := d }] }

/-- Of raises in the order they were made, those that the class numbers name, in the order named, each number the
earliest raise of its class not named before; and the others. -/
def pickRaises : List Nat → List Raise → List Raise × List Raise
  | [], l => ([], l)
  | n :: ns, l =>
    match l.find? (fun x => decide (x.cls.number = n)) with
    | none => pickRaises ns l
    | some x =>
      let r := pickRaises ns (l.eraseP fun x => decide (x.cls.number = n))
      (x :: r.1, r.2)

/-- The raises of the event in the order in which the moment has the fault unit take them: the classes in any order
(R145), the raises of one class in the order they were made (R109). -/
def State.raiseOrder (m : Moment) (s : State) : List Raise :=
  let r := pickRaises m.raises s.raised
  r.1 ++ r.2

/-- The fault unit takes raises one after another, each whole (R144). -/
def State.takeRaises (l : List Raise) (s : State) : State := l.foldl (fun s x => s.takeRaise x) s

/-- The fault unit takes, of the raises that a received frame's counting made, those the moment has before the request the
frame carries (R145); the others still stand. -/
def State.takeEarly (m : Moment) (s : State) : State :=
  let r := pickRaises m.beforeRequest s.raised
  { s.takeRaises r.1 with raised := r.2 }

/-- The fault unit takes the raises of the event in the moment's order (R144, R145). -/
def State.flush (m : Moment) (s : State) : State := { s.takeRaises (s.raiseOrder m) with raised := [] }

/-! ## Results and responses -/

/-- The results of a response (section 11.4); CONFLICT and CLASH never are one. -/
inductive Result where
  | ok | accepted | clamped | empty | format | cls | range | timeUnset | state | inUse | noRoom | busy | liveFibre
  | unavailable
  deriving DecidableEq, Repr

/-- The result codes of section 11.4. -/
def Result.code : Result → Nat
  | .ok => 0 | .accepted => 1 | .clamped => 2 | .empty => 3 | .format => 16 | .cls => 17 | .range => 18
  | .timeUnset => 19 | .state => 20 | .inUse => 21 | .noRoom => 22 | .busy => 23 | .liveFibre => 26
  | .unavailable => 27

/-- A response's payload: the request's code + 128, the result, the tag, the body (section 11.2). -/
def responsePayload (code : Nat) (res : Result) (tag : BitVec 16) (body : List Byte) : List Byte :=
  enc8 (code + 128) ++ enc8 res.code ++ enc16 tag.toNat ++ body

/-- The response offered to the control queue of the port the request arrived on (R173), among the raises of the event:
they stand before it, but for those the moment leaves for after it (R145; log entries 4 and 27). -/
def State.respond (r : Req) (code : Nat) (res : Result) (body : List Byte) (s : State) : State :=
  let order := s.raiseOrder r.m
  let early := order.length - r.m.afterAnswer
  let t := (s.takeRaises (order.take early)).offerControl r.port (responsePayload code res r.tag body)
  { t.takeRaises (order.drop early) with raised := [] }

/-- What an owning block answers to a request: the state with its effect, the result and the body. -/
structure Answer where
  state : State
  result : Result
  body : List Byte

/-- A request refused, with nothing changed and an empty body (R172). -/
def Answer.refuse (s : State) (res : Result) : Answer := { state := s, result := res, body := [] }

/-- A request checked by its owning rule and, when no check fails, given its effect (R172). -/
def checked (check : Option Result) (s : State) (effect : Answer) : Answer :=
  match check with
  | some res => .refuse s res
  | none => effect

/-- A request taken whole (R168, R172, R173): discarded from a port of class NONE; FORMAT, then CLASS, then what the
owning block answers; the response offered to the port it arrived on, among the raises of its effect. -/
def State.takeRequest {α : Type} (r : Req) (code : Nat) (body : Body α) (act : α → State → Answer) (s : State) :
    State :=
  if (s.port r.port).cls = .none then s
  else
    match body with
    | none => s.respond r code .format []
    | some a =>
      if (s.port r.port).cls = .observer ∧ observerMaySend code = false then s.respond r code .cls []
      else
        let x := act a s
        x.state.respond r code x.result x.body

end Sys2Proof.Machine
end

