-- ==== Sys2Proof/Machine/Probe.lean ====
section
/-! DEFINITION. Probe requests (section 6.1): the probe queue, the probe number counter, joining, and entry into flight
(R96, R97, R100 to R102). What ends a probe stands in Reflectometer.lean. -/

namespace Sys2Proof.Machine
open Sys2Proof.Config

/-- The numbers existing probes hold (R96). -/
def State.heldNumbers (s : State) : List ProbeNo := (s.flight.map (·.number)).toList ++ s.probeWaiting.map (·.number)

/-- The number of the port's probe, waiting or in flight, if one exists (R97). -/
def State.probeOf (s : State) (p : PortIx) : Option ProbeNo :=
  match s.flight with
  | some f => if f.port = p then some f.number else (s.probeWaiting.find? (fun w => decide (w.port = p))).map (·.number)
  | none => (s.probeWaiting.find? (fun w => decide (w.port = p))).map (·.number)

/-- A probe of the port is in flight (R45, R58). -/
def State.underProbe (s : State) (p : PortIx) : Bool := s.flight.any (fun f => decide (f.port = p))

/-- The number a new probe takes: the first that no existing probe holds, counting up from the counter (R96). -/
def State.nextNumber (s : State) : ProbeNo :=
  (((List.range 256).map fun k => Fin.ofNat 256 (s.probeCounter.val + k)).find?
    (fun n => decide (n ∉ s.heldNumbers))).getD s.probeCounter

/-- A probe enters flight: it copies the configuration and takes the port's transmitter, at once when the line stands
idle (R102). -/
def State.enterFlight (number : ProbeNo) (p : PortIx) (s : State) : State :=
  let busy := s.lineBusy p
  let t := if busy then s else s.setPort p { s.port p with sending := none }
  { t with
    flight := some { number := number, port := p, config := s.probeConfig, phase := .preSilence,
                     began := if busy then none else some s.clock, peaks := [] } }

/-- A probe request for `p`, handled as R97 gives: the number it joins or receives, or none when refused full. -/
def State.probeRequest (p : PortIx) (s : State) : State × Option ProbeNo :=
  match s.probeOf p with
  | some n => (s, some n)
  | none =>
    if probePlaces ≤ s.probeWaiting.length then (s, none)
    else
      let n := s.nextNumber
      let t := { s with probeCounter := n + 1 }
      if t.flight.isNone then (t.enterFlight n p, some n)
      else ({ t with probeWaiting := t.probeWaiting ++ [{ number := n, port := p }] }, some n)

/-- A cause request for `p`: the number that will settle the cause, or none for NOT_POSSIBLE (R100). -/
def State.causeRequest (p : PortIx) (s : State) : State × Option ProbeNo :=
  match s.probeOf p with
  | some n => (s, some n)
  | none =>
    if (s.port p).autoProbe && s.fitted p && !s.restart then s.probeRequest p else (s, none)

/-- The auto-probe request at a loss of light on `p` (R99). -/
def State.autoProbe (p : PortIx) (s : State) : State :=
  if (s.port p).autoProbe && s.fitted p && !s.restart &&
      s.anyBooking (fun r => r.carrying && r.legs.any fun l => decide (l.port = p)) then
    (s.probeRequest p).1
  else s

/-- The PROBE_PORT action's request for `p` (R101). -/
def State.actionProbe (p : PortIx) (s : State) : State :=
  if !(s.port p).lit && decide ((s.port p).role ≠ .off) && s.fitted p && !s.restart then (s.probeRequest p).1 else s

end Sys2Proof.Machine
end

