-- ==== Sys2Proof/Machine/Tracker.lean ====
section
/-! DEFINITION. The outage tracker (chapter 7): situations and causes, the life of an outage record, settlement by
probe, and the classification of the second just ended. -/

namespace Sys2Proof.Machine
open Sys2Proof.Config

/-! ## Causes and attribution -/

/-- The strength order of causes: NETWORK, PENDING, UNKNOWN, VENUE (R117, R121). -/
def CauseValue.strength : CauseValue → Nat
  | .network => 3 | .pending _ => 2 | .unknown => 1 | .venue => 0

/-- The stronger of two causes, the first at equal strength (R121). -/
def Cause.stronger (a b : Cause) : Cause := if a.value.strength < b.value.strength then b else a

/-- The cause a leg reports: the stronger of the carried and the held cause, the carried at equal strength (R121). -/
def LegCause.reported (c : LegCause) : Option Cause :=
  match c.carried, c.held with
  | some a, some b => some (a.stronger b)
  | some a, none => some a
  | none, h => h

/-- The causes a record reports (R117). -/
def OutageRecord.reported (o : OutageRecord) : List Cause := o.main.reported.toList ++ o.backup.reported.toList

/-- The value is PENDING. -/
def CauseValue.isPending : CauseValue → Bool
  | .pending _ => true
  | _ => false

/-- The attribution of a record, by strength of its reported causes (R117). -/
def OutageRecord.attribution (o : OutageRecord) : Attribution :=
  if o.reported.any (fun c => decide (c.value = .network)) then .network
  else if o.reported.any (fun c => c.value.isPending) then .pending
  else if o.reported.any (fun c => decide (c.value = .unknown)) then .unknown
  else .venue

/-- The attribution a cause's value would give alone. -/
def CauseValue.attribution : CauseValue → Attribution
  | .network => .network | .venue => .venue | .unknown => .unknown | .pending _ => .pending

/-- A reported cause's break, when the cause equals the attribution (R117). -/
def OutageRecord.breakOf (o : OutageRecord) (c : Option Cause) : Option Break :=
  c.bind fun c => if c.value.attribution = o.attribution then c.brk else none

/-- The record's break: the main leg's, failing that the backup leg's (R117). -/
def OutageRecord.brk (o : OutageRecord) : Option Break :=
  match o.breakOf o.main.reported with
  | some b => some b
  | none => o.breakOf o.backup.reported

/-- The part of a record that stands for a leg. -/
def OutageRecord.legCause (o : OutageRecord) : LegId → LegCause
  | .main => o.main
  | .backup => o.backup

/-- A leg's part of a record changed by `f`. -/
def OutageRecord.updLegCause (o : OutageRecord) (l : LegId) (f : LegCause → LegCause) : OutageRecord :=
  match l with
  | .main => { o with main := f o.main }
  | .backup => { o with backup := f o.backup }

/-! ## Situations and captures -/

/-- The situation of a considered leg: the first test of R115 that holds. A usable leg has none. -/
def situationOf (link : Link) (l : Leg) : Option Situation :=
  match link with
  | .down => some .dark
  | .acquiring => some .dark
  | .lof => some .line
  | .up =>
    if l.exIdent then some .ident
    else if l.exWatch then some .watch
    else if l.state = .waiting ∨ l.state = .silent then some .source
    else none

/-- The last of a list changed by `f`. -/
def updLast {α : Type} (f : α → α) : List α → List α
  | [] => []
  | [x] => [f x]
  | x :: y :: t => x :: updLast f (y :: t)

/-- The open record, which can only be the last (R117, R121). -/
def OutageState.openRecord (o : OutageState) : Option OutageRecord :=
  match o.records.getLast? with
  | some r => if r.finish.isNone then some r else none
  | none => none

/-- The last record changed by `f`. -/
def OutageState.updRecord (o : OutageState) (f : OutageRecord → OutageRecord) : OutageState :=
  { o with records := updLast f o.records }

/-- The outage state changed by `f`, where there is one. -/
def Booking.updOutage (r : Booking) (f : OutageState → OutageState) : Booking := { r with outage := r.outage.map f }

/-- The cause a situation gives on port `p`, with the cause request a DOWN port brings (R115, R116). -/
def State.causeFor (sit : Situation) (p : PortIx) (s : State) : State × Cause :=
  match sit with
  | .dark =>
    if (s.port p).link = .down then
      match s.causeRequest p with
      | (t, some n) => (t, { value := .pending n, brk := none })
      | (t, none) => (t, { value := .unknown, brk := none })
    else (s, { value := .unknown, brk := none })
  | .line => (s, { value := .network, brk := none })
  | .ident => (s, { value := .venue, brk := none })
  | .watch => (s, { value := .unknown, brk := none })
  | .source => (s, { value := .venue, brk := none })

/-- The cause of leg `l` of booking `b` captured in the open record: kept at the same situation, replaced at a
different one, and left alone while the leg is held out by MANUAL (R115, R118, R119). -/
def State.capture1 (b : BookingIx) (l : LegId) (s : State) : State :=
  match s.booking b with
  | none => s
  | some r =>
    match r.leg l, r.outage.bind (·.openRecord) with
    | some lg, some rec =>
      if lg.exManual then s
      else
        match situationOf (s.port lg.port).link lg with
        | none => s
        | some sit =>
          if (rec.legCause l).situation = some sit then s
          else
            let (t, c) := s.causeFor sit lg.port
            t.updBooking b fun r => r.updOutage fun o => o.updRecord fun rec =>
              rec.updLegCause l fun x => { x with held := some c, situation := some sit }
    | _, _ => s

/-- The causes of several legs captured, one after another. -/
def State.captureLegs (b : BookingIx) (ls : List LegId) (s : State) : State := ls.foldl (fun s l => s.capture1 b l) s

/-- A record just opened, before its capture (R117). -/
def OutageRecord.opened (second : Nat) : OutageRecord :=
  { start := second, finish := none, seconds := 0,
    main := { held := none, situation := none, carried := none },
    backup := { held := none, situation := none, carried := none }, merged := false }

/-- What is carried forward at a merge: the reported cause, or the stronger with one already carried, which stands at
equal strength (R121). `LegCause.reported` is that cause. -/
def LegCause.carryForward (c : LegCause) : LegCause := { held := none, situation := none, carried := c.reported }

/-- Record 8 reopened for a merged outage (R121). -/
def OutageRecord.reopen (o : OutageRecord) : OutageRecord :=
  { o with finish := none, main := o.main.carryForward, backup := o.backup.carryForward, merged := true }

/-- The outage state at an entry: flag and touched mark set, a record opened or record 8 reopened (R117, R121). -/
def OutageState.enter (o : OutageState) (second : Nat) : OutageState :=
  { o with
    flag := true, touched := true
    records :=
      if o.records.length < outageRecordMax then o.records ++ [.opened second]
      else updLast OutageRecord.reopen o.records }

/-- The open record frozen with an end second, and the flag cleared (R120). -/
def OutageState.freeze (o : OutageState) (second : Nat) : OutageState :=
  { o with
    flag := false
    records := updLast (fun r => if r.finish.isNone then { r with finish := some second } else r) o.records }

/-- The tracker's part of an entry into outage, legs captured in the moment's order (R117, R121). -/
def State.trackEntry (m : Moment) (b : BookingIx) (s : State) : State :=
  (s.updBooking b fun r => r.updOutage (·.enter s.sec)).captureLegs b (legOrder m)

/-- The tracker's part of an exit (R120). -/
def State.trackExit (b : BookingIx) (s : State) : State :=
  s.updBooking b fun r => r.updOutage (·.freeze s.sec)

/-- The line port hands the tracker a loss of light or an entry into LOF: every leg on `p` of a booking in outage is
captured anew (R53, R118), after every leg on the port is SILENT and every outage judged. DESIGN CHOICE, log entry 30. -/
def State.recapturePort (m : Moment) (p : PortIx) (s : State) : State :=
  (bookingOrder m).foldl
    (fun s b =>
      match s.booking b with
      | none => s
      | some r =>
        if r.outage.any (·.flag) then
          s.captureLegs b ((legOrder m).filter fun l => (r.leg l).any fun lg => decide (lg.port = p))
        else s) s

/-! ## Settlement by probe (R122) -/

/-- The cause a probe's end settles PENDING as, against the demarcation distance (R122). -/
def settledCause (outcome : ProbeOutcome) (p : PortIx) (distance : Option Nat) (demarcation : Nat) : Cause :=
  match outcome, distance with
  | .brk, some d =>
    { value := if d ≤ demarcation then .network else .venue, brk := some { port := p, distance := d } }
  | .noBreak, _ => { value := .venue, brk := none }
  | _, _ => { value := .unknown, brk := none }

/-- A cause settled when it is PENDING on probe `n`. -/
def Cause.settle (n : ProbeNo) (settled c : Cause) : Cause := if c.value = .pending n then settled else c

def LegCause.settle (n : ProbeNo) (settled : Cause) (c : LegCause) : LegCause :=
  { c with held := c.held.map (Cause.settle n settled), carried := c.carried.map (Cause.settle n settled) }

def OutageRecord.settle (n : ProbeNo) (settled : Cause) (o : OutageRecord) : OutageRecord :=
  { o with main := o.main.settle n settled, backup := o.backup.settle n settled }

def Booking.settleCauses (n : ProbeNo) (settled : Cause) (r : Booking) : Booking :=
  r.updOutage fun o => { o with records := o.records.map (OutageRecord.settle n settled) }

/-- Every cause PENDING on probe `n`, held or carried, open or frozen, in every booking, is settled (R122). -/
def State.settleCauses (n : ProbeNo) (settled : Cause) (s : State) : State :=
  { s with bookings := s.bookings.map fun o => o.map (Booking.settleCauses n settled) }

/-! ## The second just ended (sections 7.5 and 7.6) -/

/-- The record was open at some instant of second `t` (R124). -/
def OutageRecord.openIn (o : OutageRecord) (t : Nat) : Bool :=
  decide (o.start ≤ t) && o.finish.all (fun e => decide (t ≤ e))

/-- One second added to the first record that was open in `t` (R124). -/
def addSecond (t : Nat) : List OutageRecord → List OutageRecord
  | [] => []
  | o :: rest => if o.openIn t then { o with seconds := o.seconds + 1 } :: rest else o :: addSecond t rest

/-- The outage state after the second `t` is taken (R124): the outage second assigned and the run counted, or the run
back at 0; the touched mark as the flag stands for the new second. -/
def OutageState.takeSecond (o : OutageState) (t : Nat) : OutageState :=
  if o.touched then { o with run := o.run + 1, records := addSecond t o.records, touched := o.flag }
  else { o with run := 0, touched := o.flag }

/-- The quality band of a loss value (R127). -/
def bandOf (tf : Tariff) (loss : Nat) : Nat :=
  if loss < tf.t1 then 0 else if loss < tf.t2 then 1 else if loss < tf.t3 then 2 else 3

/-- One more second in a band. -/
def Bands.add (x : Bands) (band : Nat) : Bands :=
  match band with
  | 0 => { x with b0 := x.b0 + 1 }
  | 1 => { x with b1 := x.b1 + 1 }
  | 2 => { x with b2 := x.b2 + 1 }
  | _ => { x with b3 := x.b3 + 1 }

/-- A lived second counted: undelivered (`none`), or delivered in a band (R127, R128). -/
def Residency.count (x : Residency) (overrun : Bool) (delivered : Option Nat) : Residency :=
  match overrun, delivered with
  | false, none => { x with undeliveredLive := x.undeliveredLive + 1 }
  | false, some b => { x with deliveredLive := x.deliveredLive + 1, bandLive := x.bandLive.add b }
  | true, none => { x with undeliveredOver := x.undeliveredOver + 1 }
  | true, some b => { x with deliveredOver := x.deliveredOver + 1, bandOver := x.bandOver.add b }

/-- A tariff a booking names; an empty one, which no booking names (R151), reads as all zero. -/
def State.tariff (s : State) (t : TariffIx) : Tariff :=
  (s.tariffs[t]).getD
    { price := 0, multiplier := 0, disc1 := 0, disc2 := 0, disc3 := 0, t1 := 0, t2 := 0, t3 := 0, creditFactor := 0,
      creditUnknown := false, rounding := .nearestEven, lateWindow := 0, latePercent := 0 }

/-- A destination after the second `t` (R127): counted, and its egress-drop second count back at 0 (R74). -/
def Dest.takeSecond (d : Dest) (outageSecond overrun upWhole : Bool) (tf : Tariff) (loss : Nat) : Dest :=
  { d with
    account := d.account.map fun a =>
      { a with
        secondDrops := 0
        residency := a.residency.count overrun
          (if !outageSecond && upWhole then some (bandOf tf (loss + a.secondDrops)) else none) } }

/-- A booking after the second `t`, which it lived (R124, R126, R127): `upWhole` is each port's indication for it. -/
def Booking.takeSecond (r : Booking) (t : Nat) (upWhole : Vector Bool 16) (tf : Tariff) : Booking :=
  { r with
    outage := r.outage.map (·.takeSecond t)
    merge := r.merge.map fun x => { x with loss := 0 }
    dests := r.dests.map fun d =>
      d.takeSecond (r.outage.any (·.touched)) (r.overrunSecond t) upWhole[d.port] tf ((r.merge.map (·.loss)).getD 0) }

/-- The booking takes the second `t` at the boundary that ends it: it lived it, in LIVE or OVERRUN until this boundary.
A record that closed before has been classified whole already and takes no second again, even when a TIME SET brings
its recorded seconds back (R126, R128; log entry 21). -/
def Booking.takes (r : Booking) (t : Nat) : Bool := r.forwarding && r.lived t

/-- The second `t` is an outage second of the booking, read before it is taken (R124). -/
def Booking.outageSecond (r : Booking) (t : Nat) : Bool := r.takes t && r.outage.any (·.touched)

/-- Every booking that lived the second `t` takes it (R126). -/
def State.classify (t : Nat) (s : State) : State :=
  { s with
    bookings := s.bookings.map fun o => o.map fun r =>
      if r.takes t then r.takeSecond t (s.ports.map (·.upLast)) (s.tariff r.tariff) else r }

/-- The booking's outage state is settled: no record's attribution is PENDING (R129). Its last lived second is
classified before it enters CLOSING, within the same boundary. -/
def Booking.settled (r : Booking) : Bool :=
  r.outage.all fun o => o.records.all fun x => decide (x.attribution ≠ .pending)

end Sys2Proof.Machine
end

