-- ==== Sys2Proof/Machine/Merge.lean ====
section
/-! DEFINITION. The merge unit (chapter 5): leg states, exclusions and protection mode, the ident check, the merge test,
and outage as the merge unit sees it. -/

namespace Sys2Proof.Machine
open Sys2Proof.Config

/-! ## Outage entry and exit (R92 to R94) -/

/-- Entry into outage: the tracker opens its record and captures the causes, and FEED_LOST is raised (R92). -/
def State.enterOutage (m : Moment) (b : BookingIx) (s : State) : State :=
  (s.raise .feedLost (.ofBooking b) none).trackEntry m b

/-- Exit from outage: the resync flag is set and the record frozen (R92, R120). -/
def State.exitOutage (b : BookingIx) (s : State) : State :=
  (s.updBooking b fun r => { r with merge := r.merge.map fun x => { x with resync := true } }).trackExit b

/-- The booking's usable legs judged after one event that changed the legs `changed`: entry, exit, or, within an
outage, the change handed to the tracker (R92, R94). Only LIVE and OVERRUN bookings are judged (R93). -/
def State.judge (m : Moment) (b : BookingIx) (changed : List LegId) (s : State) : State :=
  match s.booking b with
  | none => s
  | some r =>
    if r.forwarding then
      if r.outage.any (·.flag) then
        if r.anyUsable then s.exitOutage b
        else s.captureLegs b ((legOrder m).filter fun l => decide (l ∈ changed))
      else if r.anyUsable then s
      else s.enterOutage m b
    else s

/-! ## Arming, closing (R78) -/

/-- MANUAL on a leg under a protection mode (R82); a booking with one leg has no backup leg to leave it to. -/
def manualFor (mode : ProtectionMode) (l : LegId) : Bool :=
  match mode, l with
  | .mainOnly, .backup => true
  | .backupOnly, .main => true
  | _, _ => false

/-- A leg as its booking arms, at the instant `now` (R78, R85). -/
def Leg.arm (l : Leg) (manual : Bool) (now timeout : Nat) : Leg :=
  { l with
    state := .waiting, silenceAt := none, exIdent := false, exWatch := false, exManual := manual
    ident := some (if l.policy = .none then .notChecked else .awaiting)
    identAt := if l.policy = .none then none else some (now + timeout * ticksPerSecond) }

/-- The merge fields at arming (R88). -/
def MergeState.atArming : MergeState :=
  { lastFwd := none, resync := false, loss := 0, resyncCount := 0,
    main := { redundant := 0, policerDrops := 0 }, backup := { redundant := 0, policerDrops := 0 } }

/-- The merge unit's part of arming (R78). -/
def Booking.armLegs (r : Booking) (now timeout : Nat) : Booking :=
  { r with
    main := r.main.arm (manualFor r.mode .main) now timeout
    backup := r.backup.map fun l => l.arm (manualFor r.mode .backup) now timeout
    merge := some .atArming }

/-- A leg as its booking enters CLOSING: IDLE, timers stopped, exclusions gone; the ident state stays (R78). -/
def Leg.toIdle (l : Leg) : Leg :=
  { l with state := .idle, silenceAt := none, exIdent := false, exWatch := false, exManual := false, identAt := none }

/-- The merge unit's part of an entry to CLOSING (R78). -/
def Booking.idleLegs (r : Booking) : Booking := { r with main := r.main.toIdle, backup := r.backup.map Leg.toIdle }

/-! ## MODE (R83) -/

/-- The exclusion set of a leg after MODE: MANUAL by the new mode, WATCH removed. -/
def Leg.applyMode (l : Leg) (manual : Bool) : Leg := { l with exManual := manual, exWatch := false }

/-- The new mode written, and, in ARMED, LIVE or OVERRUN, both exclusion sets changed (R83). -/
def Booking.applyMode (r : Booking) (mode : ProtectionMode) : Booking :=
  if r.carrying then
    { r with
      mode := mode
      main := r.main.applyMode (manualFor mode .main)
      backup := r.backup.map fun l => l.applyMode (manualFor mode .backup) }
  else { r with mode := mode }

/-- The legs on which a MODE changes an exclusion set. -/
def Booking.modeChanges (r : Booking) (mode : ProtectionMode) : List LegId :=
  [LegId.main, LegId.backup].filter fun l =>
    (r.leg l).any fun lg => decide (lg.exManual ≠ manualFor mode l) || lg.exWatch

/-! ## Ident check (R86) -/

/-- The first 32 payload bytes equal the reference wherever the mask marks; fewer than 32 bytes fail (R86). -/
def Pattern.matchesIdent (p : Pattern) (payload : List Byte) : Bool :=
  decide (32 ≤ payload.length) &&
    ((payload.take 32).zip (p.reference.zip p.mask)).all fun x => !x.2.2 || decide (x.1 = x.2.1)

/-- An IDENT frame compared with the leg's pattern (R86). A leg with CHECK or REQUIRE names a set pattern (R10). -/
def State.identMatches (l : Leg) (payload : List Byte) (s : State) : Bool :=
  match l.pattern with
  | none => false
  | some ix =>
    match s.patterns[ix] with
    | none => false
    | some p => p.matchesIdent payload

/-- An IDENT frame of leg `l` of booking `b` (R86). -/
def State.identFrame (m : Moment) (b : BookingIx) (l : LegId) (payload : List Byte) (s : State) : State :=
  match s.booking b with
  | none => s
  | some r =>
    match r.leg l with
    | none => s
    | some lg =>
      if lg.policy = .none then s
      else if s.identMatches lg payload then
        (s.updBooking b fun r => r.updLeg l fun x =>
          { x with ident := some .matched, identAt := none, exIdent := false }).judge m b
            (if lg.exIdent then [l] else [])
      else
        let t := s.updBooking b fun r => r.updLeg l fun x =>
          { x with ident := some .mismatched, identAt := none, exIdent := true }
        let t := if lg.ident = some .mismatched then t else t.raise .wrongSource (.ofLeg lg.port b l) none
        t.judge m b (if lg.exIdent then [] else [l])

/-- The ident timeout of an AWAITING leg expires (R87). -/
def State.identExpire (m : Moment) (b : BookingIx) (l : LegId) (s : State) : State :=
  match s.booking b with
  | none => s
  | some r =>
    match r.leg l with
    | none => s
    | some lg =>
      let add := decide (lg.policy = .require)
      (s.updBooking b fun r => r.updLeg l fun x =>
        { x with ident := some .unconfirmed, identAt := none, exIdent := x.exIdent || add }).judge m b
          (if add && !lg.exIdent then [l] else [])

/-! ## Media (R79, R88 to R91) -/

/-- The per-leg counts of a leg changed by `f`. -/
def MergeState.updCounts (x : MergeState) (l : LegId) (f : LegCounts → LegCounts) : MergeState :=
  match l with
  | .main => { x with main := f x.main }
  | .backup => { x with backup := f x.backup }

/-- The merge test's outcomes (R90): forward with the gap counted as loss, or keep as redundant. -/
inductive MergeVerdict where
  | forward (gap : Nat)
  | redundant
  deriving DecidableEq, Repr

/-- The merge test of a frame of sequence number `seq` arrived on leg `l` (R90). -/
def MergeState.test (x : MergeState) (l : LegId) (seq : Nat) : MergeVerdict × MergeState :=
  if x.resync then (.forward 0, { x with lastFwd := some seq, resync := false })
  else
    let d := seqDistance seq (x.lastFwd.getD seq)
    if d = 0 ∨ 32768 ≤ d then
      (.redundant, x.updCounts l fun k => { k with redundant := wrapAdd k.redundant 1 })
    else if d - 1 ≤ maxCountedGap then
      (.forward (d - 1), { x with lastFwd := some seq, loss := holdAdd x.loss (d - 1) })
    else (.forward 0, { x with lastFwd := some seq, resyncCount := wrapAdd x.resyncCount 1 })

/-- A passing MEDIA frame puts its leg in RECEIVING and restarts the silence timer (R79); legs of a booking that is
not ARMED, LIVE or OVERRUN keep their state (R78). -/
def State.legReceives (m : Moment) (b : BookingIx) (l : LegId) (s : State) : State :=
  match s.booking b with
  | none => s
  | some r =>
    match r.leg l with
    | none => s
    | some lg =>
      if r.carrying then
        (s.updBooking b fun r => r.updLeg l fun x =>
          { x with state := .receiving, silenceAt := some (s.clock + s.silenceMs * ticksPerMilli) }).judge m b
            (if lg.state = .receiving then [] else [l])
      else s

/-- A forwarded END flag asks an OVERRUN booking to close, SOURCE_ENDED (R91). -/
def Booking.onForwardedEnd (r : Booking) : Booking :=
  if r.state = .overrun then
    { r with closeReq := match r.closeReq with
                         | some reason => some reason
                         | none => some .sourceEnded }
  else r

/-- The verdict on a frame after its leg was updated (R89): none keeps it uncounted. -/
def Booking.verdict (r : Booking) (l : LegId) (seq : Nat) : Option (MergeVerdict × MergeState) :=
  if r.forwarding && (r.leg l).any Leg.usable then r.merge.map fun x => x.test l seq else none

end Sys2Proof.Machine
end

