-- ==== Sys2Proof/Machine/Watch.lean ====
section
/-! DEFINITION. The watch counters (chapter 8): events, scopes and filters, counting, overflow, the freeze group and the
overflow actions; and a leg's entry into SILENT (R80), which hands on such an event. -/

namespace Sys2Proof.Machine
open Sys2Proof.Config

/-- An event handed to the watch counters (section 8.2). -/
structure WatchEvent where
  kind : WatchKind
  port : Option PortIx
  booking : Option BookingIx
  leg : Option LegId
  bits : Option FrameBits
  weight : Nat
  deriving DecidableEq, Repr

/-- The counter `i`. -/
def State.counter (s : State) (i : CounterIx) : Counter := s.counters[i]

/-- The counter `i` replaced. -/
def State.setCounter (s : State) (i : CounterIx) (c : Counter) : State := { s with counters := s.counters.set i c }

/-- The kinds whose events are frame events (section 8.2). -/
def WatchKind.isFrame : WatchKind → Bool
  | .legSilentEntries | .outageSeconds | .liveBookings => false
  | .rxFrames | .rxBadCheck | .rxUnbooked | .forwarded | .policerDrops | .redundant | .mergeGaps | .egressDrops => true

/-- The event lies within the scope (R132). -/
def Scope.covers (sc : Scope) (e : WatchEvent) : Bool :=
  match sc with
  | .any => true
  | .port p => decide (e.port = some p)
  | .booking b => decide (e.booking = some b)
  | .leg b l => decide (e.booking = some b) && decide (e.leg = some l)

/-- The frame fields equal the match wherever the mask marks (R133). -/
def FrameBits.agree (mask pattern x : FrameBits) : Bool :=
  decide (x.label &&& mask.label = pattern.label &&& mask.label ∧
    x.kind &&& mask.kind = pattern.kind &&& mask.kind ∧
    x.endBit &&& mask.endBit = pattern.endBit &&& mask.endBit)

/-- The filter of a counter (R133): applied to frame events only; a frame event without fields passes an all-zero
mask alone. -/
def Counter.passes (c : Counter) (e : WatchEvent) : Bool :=
  if e.kind.isFrame then
    match e.bits with
    | some x => c.maskBits.agree c.matchBits x
    | none => decide (c.maskBits = .zero)
  else true

/-- The event reaches the counter (R131). -/
def Counter.reaches (c : Counter) (e : WatchEvent) : Bool := decide (c.event = e.kind) && c.scope.covers e && c.passes e

/-- The port, booking and leg a scope names (R137). -/
def Scope.items : Scope → RaiseItems
  | .any => .none
  | .port p => .ofPort p
  | .booking b => .ofBooking b
  | .leg b l => { port := none, booking := some b, leg := some l }

/-- WATCH added to a leg's exclusion set by an overflow action (R81, R139). -/
def State.excludeLeg (m : Moment) (b : BookingIx) (l : LegId) (s : State) : State :=
  match s.booking b with
  | none => s
  | some r =>
    match r.leg l with
    | none => s
    | some lg =>
      if r.carrying && !lg.exWatch then
        (s.updBooking b fun r => r.updLeg l fun x => { x with exWatch := true }).judge m b [l]
      else s

/-- The overflow action of a counter (R139). -/
def State.runAction (m : Moment) (c : Counter) (s : State) : State :=
  match c.action, c.scope with
  | .excludeLeg, .leg b l => s.excludeLeg m b l
  | .probePort, .port p => s.actionProbe p
  | _, _ => s

/-- The group freezes: the second totals of its members are discarded (R138). -/
def State.freezeGroup (s : State) : State :=
  { s with
    frozen := true
    counters := s.counters.map fun c => if c.member then { c with secondTotal := 0 } else c }

/-- A member of a frozen group counts nothing (R138). -/
def State.halted (s : State) (c : Counter) : Bool := s.frozen && c.member

/-- Counter `i` has passed its top and stands wrapped at `value` (R137). -/
def State.overflowAt (m : Moment) (i : CounterIx) (value : Nat) (s : State) : State :=
  let c := s.counter i
  let t := s.setCounter i { c with value := value, overflow := true }
  let t := if c.notice then t.raise .watchOverflow c.scope.items (some (.watch i)) else t
  let t := if c.member then t.freezeGroup else t
  t.runAction m c

/-- `weight` added to the value of counter `i`, with its overflow past the top (R134, R135). -/
def State.addValue (m : Moment) (i : CounterIx) (weight : Nat) (s : State) : State :=
  let c := s.counter i
  if maxU32 < c.value + weight then s.overflowAt m i (c.value + weight - wrap32)
  else s.setCounter i { c with value := c.value + weight }

/-- One event taken by counter `i` (R131, R134, R135). -/
def State.countEvent (m : Moment) (e : WatchEvent) (i : CounterIx) (s : State) : State :=
  let c := s.counter i
  if s.halted c || !c.reaches e then s
  else if c.threshold = 0 then s.addValue m i e.weight
  else s.setCounter i { c with secondTotal := holdAdd c.secondTotal e.weight }

/-- An event handed to the watch counters, each taking it in the moment's order (R131, R138). -/
def State.watch (m : Moment) (e : WatchEvent) (s : State) : State :=
  (counterOrder m).foldl (fun s i => s.countEvent m e i) s

/-! ## The second just ended (R135, R136) -/

/-- A booking that lived the second within a counter's scope (R136): a port scope asks for a leg or destination on the
port, a leg scope for that leg. -/
def Scope.coversLived (sc : Scope) (b : BookingIx) (r : Booking) : Bool :=
  match sc with
  | .any => true
  | .port p => r.usesPort p
  | .booking b' => decide (b = b')
  | .leg b' l => decide (b = b') && (r.leg l).isSome

/-- The event of an outage second of booking `b` (R124). -/
def outageSecondEvent (b : BookingIx) : WatchEvent :=
  { kind := .outageSeconds, port := none, booking := some b, leg := none, bits := none, weight := 1 }

/-- What counter `i` reads of the second just ended: the outage seconds and lived bookings within its scope (R136). -/
def Counter.secondEvents (c : Counter) (outages : List BookingIx) (lived : List (BookingIx × Booking)) : Nat :=
  match c.event with
  | .outageSeconds => outages.countP fun b => c.scope.covers (outageSecondEvent b)
  | .liveBookings => lived.countP fun x => c.scope.coversLived x.1 x.2
  | _ => 0

/-- The per-second evaluation of a counter with a threshold above 0 (R135): the rise, and the counter after it. -/
def Counter.evaluate (c : Counter) (total : Nat) : Nat × Counter :=
  if c.starting then (0, { c with secondTotal := 0, starting := false, previousMet := false })
  else
    let met := if c.invert then decide (total < c.threshold) else decide (c.threshold ≤ total)
    (if met && !(c.edge && c.previousMet) then 1 else 0, { c with secondTotal := 0, previousMet := met })

/-- Counter `i` at a second boundary (R134 to R136). A raw counter takes the second events; a per-second one evaluates
the second just ended. The manual leaves open how the events of one boundary interleave over the counters: here a counter
takes those of all bookings before the next counter takes any. DESIGN CHOICE, log entry 14. Open too is the previous-met
of a member whose own rise overflows and freezes the group, which R135 writes after the rise and R138 keeps from the
overflow on: here it is written as the second was found, met. DESIGN CHOICE, log entry 13. -/
def State.boundaryCount (m : Moment) (outages : List BookingIx) (lived : List (BookingIx × Booking)) (i : CounterIx)
    (s : State) : State :=
  let c := s.counter i
  if s.halted c then s
  else if c.threshold = 0 then
    match c.event with
    | .outageSeconds => (outages.filter fun b => c.scope.covers (outageSecondEvent b)).foldl
        (fun s _ => if s.halted (s.counter i) then s else s.addValue m i 1) s
    | .liveBookings => s.addValue m i (c.secondEvents outages lived)
    | _ => s
  else
    let x := c.evaluate (holdAdd c.secondTotal (c.secondEvents outages lived))
    (s.setCounter i x.2).addValue m i x.1

/-- All eight counters at a second boundary, one after another in the moment's order, each with all the boundary's events.
DESIGN CHOICE, log entry 14: R134 gives no order for the events of several bookings among the counters. -/
def State.watchBoundary (m : Moment) (outages : List BookingIx) (lived : List (BookingIx × Booking)) (s : State) :
    State :=
  (counterOrder m).foldl (fun s i => s.boundaryCount m outages lived i) s

/-! ## Entry into SILENT (R79, R80) -/

/-- Leg `l` of booking `b` becomes SILENT: its timer stops, LEG_SILENT is raised, the booking is judged, and the entry
is handed to the watch counters (R79, R80, R92, R95). -/
def State.legSilent (m : Moment) (b : BookingIx) (l : LegId) (s : State) : State :=
  match s.booking b with
  | none => s
  | some r =>
    match r.leg l with
    | none => s
    | some lg =>
      if lg.state = .waiting ∨ lg.state = .receiving then
        let t := s.updBooking b fun r => r.updLeg l fun x => { x with state := .silent, silenceAt := none }
        let t := t.raise .legSilent (.ofLeg lg.port b l) none
        let t := t.judge m b [l]
        t.watch m
          { kind := .legSilentEntries, port := some lg.port, booking := some b, leg := some l, bits := none,
            weight := 1 }
      else s

end Sys2Proof.Machine
end

