-- ==== Sys2Proof/Machine/Egress.lean ====
section
/-! DEFINITION. The egress side of a port (section 3.5) and the forwarding engine's fan-out and drop accounting
(sections 4.5 and 4.6); the meaning of SLOT_START. -/

namespace Sys2Proof.Machine
open Sys2Proof.Config

/-- The label, kind and END of a media copy (R76). -/
def MediaCopy.bits (c : MediaCopy) : FrameBits :=
  { label := BitVec.ofNat 12 c.label, kind := 1, endBit := BitVec.ofBool (c.flags.getLsbD 0) }

/-- A list with its element at position `n`, counted from 1, changed by `f`. -/
def updAt {α : Type} (f : α → α) : Nat → List α → List α
  | _, [] => []
  | 0, l => l
  | 1, x :: t => f x :: t
  | n + 2, x :: t => x :: updAt f (n + 1) t

/-- Both egress-drop counts of a destination up by one (R73). -/
def Dest.drop (d : Dest) : Dest :=
  { d with account := d.account.map fun a =>
      { a with secondDrops := a.secondDrops + 1, totalDrops := wrapAdd a.totalDrops 1 } }

/-- The drop counted for the destination at the copy's position, when the booking is LIVE or OVERRUN (R73). -/
def Booking.countDrop (r : Booking) (position : Nat) : Booking :=
  if r.forwarding then { r with dests := updAt Dest.drop position r.dests } else r

/-- An egress drop on port `p`: counted, and handed to the watch counters (R55, R73). -/
def State.egressDrop (m : Moment) (p : PortIx) (c : MediaCopy) (s : State) : State :=
  (s.updBooking c.booking fun r => r.countDrop c.position).watch m
    { kind := .egressDrops, port := some p, booking := some c.booking, leg := none, bits := some c.bits, weight := 1 }

/-- Both media queues of `p` emptied, every frame an egress drop (R44, R55, R73). The manual gives no order for the drops;
the model hands on those of class 1 from the head, then those of class 2, the queues empty before the first drop and each
drop counted and taken by the watch counters, with the actions that follow, before the next. DESIGN CHOICE, log entries 10
and 30. -/
def State.emptyMedia (m : Moment) (p : PortIx) (s : State) : State :=
  let gone := (s.port p).class1 ++ (s.port p).class2
  gone.foldl (fun s c => s.egressDrop m p c) (s.setPort p { s.port p with class1 := [], class2 := [] })

/-- The queue a copy goes to: class 1 for a booking with two legs, class 2 for one leg (R71). -/
def Port.mediaQueue (x : Port) (twoLegs : Bool) : List MediaCopy := if twoLegs then x.class1 else x.class2

/-- A copy appended to its class's queue. -/
def Port.appendMedia (x : Port) (twoLegs : Bool) (c : MediaCopy) : Port :=
  if twoLegs then { x with class1 := x.class1 ++ [c] } else { x with class2 := x.class2 ++ [c] }

/-- The port takes a copy: UP, role other than OFF, and room in the queue (R55). -/
def Port.takesCopy (x : Port) (twoLegs : Bool) : Bool :=
  decide (x.link = .up ∧ x.role ≠ .off ∧ (x.mediaQueue twoLegs).length < mediaQueueDepth)

/-- A copy offered to port `p` (R55): appended with its FORWARDED event (R72), or an egress drop. -/
def State.offerCopy (m : Moment) (p : PortIx) (twoLegs : Bool) (leg : LegId) (c : MediaCopy) (s : State) : State :=
  if (s.port p).takesCopy twoLegs then
    (s.setPort p ((s.port p).appendMedia twoLegs c)).watch m
      { kind := .forwarded, port := some p, booking := some c.booking, leg := some leg, bits := some c.bits,
        weight := 1 }
  else s.egressDrop m p c

/-- The copies of a forwarded frame, one for each destination in destination order, numbered from 1 (R70). -/
def copiesOf (b : BookingIx) (r : Booking) (f : Frame) : List (PortIx × MediaCopy) :=
  (r.dests.zipIdx 1).map fun x =>
    (x.1.port, { booking := b, position := x.2, label := x.1.label, flags := f.flags, seq := f.seq,
                 payload := f.payload })

/-- The fan-out of a forwarded frame of booking `b` (R70). -/
def State.fanOut (m : Moment) (b : BookingIx) (r : Booking) (leg : LegId) (f : Frame) (s : State) : State :=
  (copiesOf b r f).foldl (fun s x => s.offerCopy m x.1 r.backup.isSome leg x.2) s

/-! ## The arbiter (R57) -/

/-- What the arbiter chose to send. -/
inductive SlotChoice where
  | escalated (f : ControlFrame)
  | class1 (c : MediaCopy)
  | class2 (c : MediaCopy)
  | control (f : ControlFrame)
  | fill
  deriving DecidableEq, Repr

/-- The choice at the start of a slot at the instant `now` (R57, steps 2 to 6). -/
def Port.choose (x : Port) (now : Nat) : SlotChoice :=
  match x.control, x.class1, x.class2 with
  | f :: _, c1, c2 =>
    if escalationTicks < now - f.enqueued ∧ x.escalated = false then .escalated f
    else
      match c1, c2 with
      | c :: _, _ => .class1 c
      | [], c :: _ => .class2 c
      | [], [] => .control f
  | [], c :: _, _ => .class1 c
  | [], [], c :: _ => .class2 c
  | [], [], [] => .fill

/-- The bytes of the chosen frame (R46). -/
def SlotChoice.bytes : SlotChoice → List Byte
  | .escalated f => controlFrame f.payload
  | .control f => controlFrame f.payload
  | .class1 c => c.frame
  | .class2 c => c.frame
  | .fill => fillFrame

/-- The queues after the choice. -/
def Port.dequeue (x : Port) : SlotChoice → Port
  | .escalated _ => { x with control := x.control.tail }
  | .control _ => { x with control := x.control.tail }
  | .class1 _ => { x with class1 := x.class1.tail }
  | .class2 _ => { x with class2 := x.class2.tail }
  | .fill => x

/-- The slot begun at the instant `now`: the chosen frame in transmission (R57). -/
def Port.beginSlot (x : Port) (now : Nat) : Port :=
  let choice := x.choose now
  let bytes := choice.bytes
  { x.dequeue choice with
    sending := some bytes
    freeAt := now + slotTicks bytes.length
    escalated := match choice with
                 | .escalated _ => true
                 | _ => false }

/-- SLOT_START (R57): the line of `p` is free, at the end of the frame it sent or at once when it stood idle. While a
probe of the port is in flight the arbiter begins no slot (R58). -/
def execSlotStart (m : Moment) (p : PortIx) (s : State) : Host.Outcome State Fault Refusal :=
  let s := s.advance m
  if s.underProbe p then .next s
  else
    let s := if s.lineBusy p then s.elapseTo (s.port p).freeAt else s
    .next (s.setPort p ((s.port p).beginSlot s.clock))

end Sys2Proof.Machine
end

