-- ==== Sys2Proof/Machine/Billing.lean ====
section
/-! DEFINITION. The billing unit (chapter 10): the charge, the billing record, the billing queue and the bill-waiting
list. -/

namespace Sys2Proof.Machine
open Sys2Proof.Config

/-- A positive quotient made whole by the rounding mode (R158). -/
def roundQuotient (mode : Rounding) (n d : Nat) : Nat :=
  let q := n / d
  let r := n % d
  match mode with
  | .floor => q
  | .ceiling => if r = 0 then q else q + 1
  | .nearestEven => if 2 * r < d then q else if d < 2 * r then q + 1 else if q % 2 = 0 then q else q + 1

/-- A charge checked against the ceiling: the charge and whether it is saturated (R159). -/
def ceilCharge (n : Nat) : Nat × Bool := if maxCharge < n then (indefiniteCharge, true) else (n, false)

/-- The bill kind, by the cut reason (R17). -/
def CutReason.kind : CutReason → BillKind
  | .endReached | .allowanceEnd | .sourceIdle | .sourceEnded | .closed => .completed
  | .closedEarly | .cancelledArmed | .restart => .cut
  | .lateCancel => .lateCancel

/-- The percent-seconds of a band count under a tariff (R156). -/
def Tariff.weigh (t : Tariff) (b : Bands) : Nat :=
  b.b0 * 100 + b.b1 * (100 - t.disc1) + b.b2 * (100 - t.disc2) + b.b3 * (100 - t.disc3)

/-- The seconds from one recorded second to another: their difference (R156). Where the second count wrapped between the
two the difference is negative and R156 states no value: a free value. A booking that goes LIVE in second 4,294,967,295,
its end, and is closed after the wrap has such an L. DESIGN CHOICE, log entry 31. -/
def secondsBetween (since upto : Nat) : Nat :=
  if since ≤ upto then upto - since else (wrappedSeconds since upto).toNat

/-- L, the live seconds (R156); log entry 31 where the second count wrapped while the booking was LIVE. -/
def Booking.liveSeconds (r : Booking) : Nat :=
  match r.liveFrom with
  | none => 0
  | some f =>
    match r.overrunFrom with
    | some o => secondsBetween f o
    | none => secondsBetween f (r.liveTo.getD f)

/-- V, the overrun seconds (R156). No run has the second count wrap in OVERRUN, since R10 and R21 keep the end of the
allowance at 4,294,967,295 or below. -/
def Booking.overSeconds (r : Booking) : Nat :=
  match r.overrunFrom with
  | none => 0
  | some o => secondsBetween o (r.liveTo.getD o)

/-- The outage records of a booking. -/
def Booking.outageRecords (r : Booking) : List OutageRecord := (r.outage.map (·.records)).getD []

/-- The seconds of the records with one attribution (R156). -/
def secondsOf (a : Attribution) (l : List OutageRecord) : Nat :=
  ((l.filter fun o => decide (o.attribution = a)).map (·.seconds)).sum

/-- O_cred (R156). -/
def Booking.creditedSeconds (r : Booking) (t : Tariff) : Nat :=
  secondsOf .network r.outageRecords + if t.creditUnknown then secondsOf .unknown r.outageRecords else 0

/-- Residency with every count 0 (R128, R161). -/
def Residency.zero : Residency :=
  { deliveredLive := 0, undeliveredLive := 0, bandLive := ⟨0, 0, 0, 0⟩,
    deliveredOver := 0, undeliveredOver := 0, bandOver := ⟨0, 0, 0, 0⟩ }

/-- The residency of a destination, every count 0 before it went LIVE (R128, R161). -/
def Dest.residency (d : Dest) : Residency := (d.account.map (·.residency)).getD .zero

/-- N of a line (R157), exactly. -/
def lineN (r : Booking) (t : Tariff) (x : Residency) : Int :=
  (r.rate : Int) * t.price *
    (16 * (t.weigh x.bandLive : Int) + t.multiplier * (t.weigh x.bandOver : Int)
      - 1600 * t.creditFactor * r.creditedSeconds t)

/-- The destination line (R157 to R159, R161). -/
def lineOf (r : Booking) (t : Tariff) (d : Dest) : BillLine :=
  let x := d.residency
  let n := lineN r t x
  let charge := if 0 < n then ceilCharge (roundQuotient t.rounding n.toNat 96000) else (0, false)
  { port := d.port, deliveredLive := x.deliveredLive, deliveredOver := x.deliveredOver, bandLive := x.bandLive,
    bandOver := x.bandOver, charge := charge.1, creditClamped := decide (n < 0), saturated := charge.2 }

/-- The total of the lines: indefinite when a line is, or when the sum passes the ceiling (R159). -/
def totalOf (lines : List BillLine) : Nat × Bool :=
  if lines.any (·.saturated) then (indefiniteCharge, true) else ceilCharge (lines.map (·.charge)).sum

/-- The charge of a LATE_CANCEL bill (R160). -/
def lateCancelCharge (r : Booking) (t : Tariff) : Nat × Bool :=
  let minutes := (r.finish - r.start + 59) / 60
  let n := r.rate * t.price * minutes * t.latePercent
  if n = 0 then (0, false) else ceilCharge (roundQuotient t.rounding n 100)

/-- An outage record as the bill carries it (R161). -/
def OutageRecord.onBill (o : OutageRecord) : BillOutage :=
  { start := o.start, finish := o.finish, seconds := o.seconds, attribution := o.attribution, merged := o.merged,
    brk := o.brk }

/-- The billing record of booking `b` (R156 to R161). -/
def billOf (b : BookingIx) (r : Booking) (t : Tariff) : Bill :=
  let cut := r.cut.getD .lateCancel
  let late := decide (cut.kind = .lateCancel)
  let lines := if late then [] else r.dests.map (lineOf r t)
  let total := if late then lateCancelCharge r t else totalOf lines
  let records := if late then [] else r.outageRecords
  { booking := b, customer := r.customer, tariff := r.tariff, kind := cut.kind, cut := cut, start := r.start,
    finish := r.finish, liveFrom := if late then none else r.liveFrom, liveTo := if late then none else r.liveTo,
    closeSecond := r.closeSecond.getD 0,
    liveSeconds := if late then 0 else r.liveSeconds, overSeconds := if late then 0 else r.overSeconds,
    outNetwork := secondsOf .network records, outVenue := secondsOf .venue records,
    outUnknown := secondsOf .unknown records,
    outages := records.map OutageRecord.onBill, lines := lines, total := total.1, saturated := total.2 }

/-- A record becomes CLOSED. -/
def State.closeBooking (b : BookingIx) (s : State) : State := s.updBooking b fun r => { r with state := .closed }

/-- The bill of a settled CLOSING booking is computed and queued, or placed on the bill-waiting list with BILL_WAIT
raised (R154). -/
def State.billNow (b : BookingIx) (s : State) : State :=
  match s.booking b with
  | none => s
  | some r =>
    let x := billOf b r (s.tariff r.tariff)
    if s.bills.length < billQueueDepth then { s with bills := s.bills ++ [x] }.closeBooking b
    else { s with billWaiting := s.billWaiting ++ [x] }.raise .billWait (.ofBooking b) none

/-- The booking has a bill on the bill-waiting list already (R155). -/
def State.billWaits (s : State) (b : BookingIx) : Bool := s.billWaiting.any fun x => decide (x.booking = b)

/-- The tracker tells the billing unit that booking `b` is settled, when it is CLOSING, settled and not yet billed
(R129, R154). -/
def State.settleBooking (b : BookingIx) (s : State) : State :=
  match s.booking b with
  | none => s
  | some r =>
    if decide (r.state = .closing) && r.settled && !s.billWaits b then s.billNow b else s

/-- Every booking that has become settled is billed, in the moment's order (R129, section 10.6). -/
def State.settleAll (m : Moment) (s : State) : State := (bookingOrder m).foldl (fun s b => s.settleBooking b) s

end Sys2Proof.Machine
end

