-- ==== Sys2Proof/Machine/Reflectometer.lean ====
section
/-! DEFINITION. The reflectometer (chapter 6) from the phases of a probe to its end: the peak search, the result, the
end of a probe with its effects on causes and bills, and the meanings of TRANSMITTER_PASSES, PHASE_TIMER_EXPIRY and
TRACE_DELIVERED. -/

namespace Sys2Proof.Machine
open Sys2Proof.Config

/-! ## Peak search (R105, R106) -/

/-- The sums of the shots' amplitudes, sample by sample. -/
def sumShots : List (List Nat) → List Nat
  | [] => []
  | [shot] => shot
  | shot :: rest => List.zipWith (· + ·) shot (sumShots rest)

/-- The averaged amplitudes of a segment with their sample indexes, from its first sample to its last (R105). -/
def averaged (g : Segment) (shots : List (List Nat)) : List (Nat × Nat) :=
  (((sumShots shots).drop g.first).zipIdx g.first).map fun x => (x.2, x.1 / 2 ^ g.exponent)

/-- The search's candidate: index, amplitude and run count (R106). -/
structure Candidate where
  index : Nat
  amplitude : Nat
  run : Nat
  deriving DecidableEq, Repr

/-- One index of the search (R106): the candidate after it, and a peak when it declares one. -/
def searchStep (threshold shadow : Nat) (c : Option Candidate) (i x : Nat) : Option Candidate × Option Peak :=
  match c with
  | none => (if threshold < x then some { index := i, amplitude := x, run := 0 } else none, none)
  | some k =>
    if k.amplitude < x then (some { index := i, amplitude := x, run := 0 }, none)
    else if x = k.amplitude then (some { k with run := 0 }, none)
    else if k.run + 1 = shadow then (none, some { index := k.index, amplitude := k.amplitude })
    else (some { k with run := k.run + 1 }, none)

/-- The search of a segment: the declared peaks in index order; a candidate open at the end is dropped (R106). -/
def searchPeaks (threshold shadow : Nat) : Option Candidate → List (Nat × Nat) → List Peak
  | _, [] => []
  | c, (i, x) :: rest =>
    let r := searchStep threshold shadow c i x
    r.2.toList ++ searchPeaks threshold shadow r.1 rest

/-- The peaks of a segment (R105, R106). -/
def segmentPeaks (g : Segment) (shots : List (List Nat)) : List Peak :=
  searchPeaks g.threshold g.shadow none (averaged g shots)

/-! ## Result (R107) -/

/-- A kept peak's distance in metres (R107). -/
def peakDistance (q index : Nat) : Nat := (index * q + 512) / 1024

/-- The kept peaks by distance and amplitude (R107). -/
def keptOf (q : Nat) (peaks : List Peak) : List KeptPeak :=
  (peaks.take keptPeaks).map fun k => { distance := peakDistance q k.index, amplitude := k.amplitude }

/-- The break distance: that of the first kept peak at or above the break threshold (R107). -/
def breakOf (threshold : Nat) (kept : List KeptPeak) : Option Nat :=
  (kept.find? fun k => decide (threshold ≤ k.amplitude)).map (·.distance)

/-! ## The end of a probe (R110) -/

/-- What a probe ends with. -/
structure ProbeEnd where
  outcome : ProbeOutcome
  peaks : List KeptPeak
  distance : Option Nat

/-- An end that carries no peaks: LIVE_FIBRE, ABORTED or TIMEOUT (R110). -/
def ProbeEnd.bare (o : ProbeOutcome) : ProbeEnd := { outcome := o, peaks := [], distance := none }

/-- The end of a clean POST_SILENCE (R107). -/
def ProbeEnd.ofPeaks (c : ProbeConfig) (peaks : List Peak) : ProbeEnd :=
  let kept := keptOf c.q peaks
  match breakOf c.breakThreshold kept with
  | some d => { outcome := .brk, peaks := kept, distance := some d }
  | none => { outcome := .noBreak, peaks := kept, distance := none }

/-- The effects every end has: the last result, the settlement of causes with the bills it lets be computed, and
PROBE_DONE (R110, R111, R122, R129). -/
def State.concludeProbe (m : Moment) (n : ProbeNo) (p : PortIx) (e : ProbeEnd) (s : State) : State :=
  let t : State :=
    { s with
      lastResults := s.lastResults.set p
        (some { number := n, outcome := e.outcome, peaks := e.peaks, breakDistance := e.distance, second := s.sec,
                timeSet := s.timeSet }) }
  let t := t.settleCauses n (settledCause e.outcome p e.distance (t.port p).demarcation)
  let t := t.settleAll m
  t.raise .probeDone (.ofPort p) none

/-- The engine gives up the probe in flight: the transmitter, if it had passed, returns with its line idle (R110). -/
def State.leaveFlight (f : Flight) (s : State) : State :=
  let t := { s with flight := none }
  if f.began.isSome then t.setPort f.port { t.port f.port with sending := none } else t

/-- The head of the waiting probes enters flight (R102, R110). -/
def State.nextProbe (s : State) : State :=
  match s.probeWaiting with
  | [] => s
  | w :: rest => { s with probeWaiting := rest }.enterFlight w.number w.port

/-- The probe in flight ends (R110). -/
def State.endFlight (m : Moment) (f : Flight) (e : ProbeEnd) (s : State) : State :=
  ((s.concludeProbe m f.number f.port e).leaveFlight f).nextProbe

/-- The probe of `p`, in flight or waiting, ends without a result (R108, R109). -/
def State.endProbeOf (m : Moment) (p : PortIx) (o : ProbeOutcome) (s : State) : State :=
  match s.flight with
  | some f =>
    if f.port = p then s.endFlight m f (.bare o)
    else
      match s.probeWaiting.find? (fun w => decide (w.port = p)) with
      | some w =>
        { s with probeWaiting := s.probeWaiting.filter fun w => decide (w.port ≠ p) }.concludeProbe m w.number p (.bare o)
      | none => s
  | none =>
    match s.probeWaiting.find? (fun w => decide (w.port = p)) with
    | some w =>
      { s with probeWaiting := s.probeWaiting.filter fun w => decide (w.port ≠ p) }.concludeProbe m w.number p (.bare o)
    | none => s

/-- Every probe ends ABORTED at an accepted RESTART: the one in flight, then the waiting ones from the head, none
entering flight; the engine is left idle with an empty queue (R109). -/
def State.abortAll (m : Moment) (s : State) : State :=
  let waiting := s.probeWaiting
  let t : State := { s with probeWaiting := [] }
  let t :=
    match s.flight with
    | some f => (t.concludeProbe m f.number f.port (.bare .aborted)).leaveFlight f
    | none => t
  waiting.foldl (fun t w => t.concludeProbe m w.number w.port (.bare .aborted)) t

/-! ## Phases (R102 to R107) -/

/-- The segment of a phase. -/
def Flight.segment (f : Flight) : Option Segment :=
  match f.phase with
  | .segment k => f.config.segments[k - 1]?
  | _ => none

/-- The phase after segment `k` (R102). -/
def Flight.after (f : Flight) (k : Nat) : Phase :=
  if k < f.config.segments.length then .segment (k + 1) else .postSilence

/-- The time a phase's work takes (R104, R105). -/
def Flight.phaseTicks (f : Flight) : Nat :=
  match f.segment with
  | some g => 2 ^ g.exponent * (g.last + 1) * ticksPerSample
  | none => f.config.preMs * ticksPerMilli

/-- The samples are those of a segment: 2^a shots, each from sample 0 to the last (R105). -/
def Segment.fits (g : Segment) (shots : List (List Nat)) : Bool :=
  decide (shots.length = 2 ^ g.exponent) && shots.all fun x => decide (x.length = g.last + 1)

/-- A trace delivered in the current phase (R103 to R107). One that is not of the phase's form is not its trace and is
ignored (log entry 12). -/
def State.deliver (m : Moment) (f : Flight) (x : Measured) (s : State) : State :=
  match f.phase, x with
  | .preSilence, .silence a =>
    if f.config.silence < a then s.endFlight m f (.bare .liveFibre)
    else { s with flight := some { f with phase := .segment 1, began := some s.clock } }
  | .segment k, .samples shots =>
    match f.segment with
    | some g =>
      if g.fits shots then
        { s with
          flight := some { f with phase := f.after k, began := some s.clock, peaks := f.peaks ++ segmentPeaks g shots } }
      else s
    | none => s
  | .postSilence, .silence a =>
    if f.config.silence < a then s.endFlight m f (.bare .liveFibre)
    else s.endFlight m f (.ofPeaks f.config f.peaks)
  | _, _ => s

/-! ## Meanings -/

/-- TRANSMITTER_PASSES (R102): the frame in transmission ends, the transmitter passes and PRE_SILENCE's timer
begins. With no probe waiting for its transmitter nothing happens. -/
def execTransmitterPasses (m : Moment) (s : State) : Host.Outcome State Fault Refusal :=
  let s := s.advance m
  match s.flight with
  | some f =>
    if f.began.isNone then
      let s := s.elapseTo (s.port f.port).freeAt
      .next { s.setPort f.port { s.port f.port with sending := none } with
              flight := some { f with began := some s.clock } }
    else .next s
  | none => .next s

/-- PHASE_TIMER_EXPIRY (R103): one second after the phase began, the probe in flight ends TIMEOUT. -/
def execPhaseTimerExpiry (m : Moment) (s : State) : Host.Outcome State Fault Refusal :=
  let s := s.advance m
  match s.flight with
  | some f =>
    match f.began with
    | some t0 => .next (((s.elapseTo (t0 + ticksPerSecond)).endFlight m f (.bare .timeout)).flush m)
    | none => .next s
  | none => .next s

/-- TRACE_DELIVERED (R103 to R107): not before its phase's work is done. A trace of a probe that is not in flight, as one
that ended before, or of one with no phase begun, is ignored (R103; log entry 12). -/
def execTraceDelivered (m : Moment) (trace : Trace) (s : State) : Host.Outcome State Fault Refusal :=
  let s := s.advance m
  match s.flight with
  | some f =>
    if f.number = trace.probe then
      match f.began with
      | some t0 => .next (((s.elapseTo (t0 + f.phaseTicks)).deliver m f trace.measured).flush m)
      | none => .next s
    else .next s
  | none => .next s

end Sys2Proof.Machine
end

