-- ==== Sys2Proof/Machine/LinePorts.lean ====
section
/-! DEFINITION. The link state machine of a port and what it hands on (section 3.3): leaving UP, entry into LOF, loss
and return of light; the meanings of LIGHT_LOST and LIGHT_RETURNS. -/

namespace Sys2Proof.Machine
open Sys2Proof.Config

/-- The port moves every leg on it to SILENT (R53, R79). The manual does not say how the legs of several bookings
interleave: here each booking is taken whole, its leg SILENT, the booking judged and LEG_SILENT_ENTRIES handed to the
watch counters with the actions that follow, before the next booking's leg is touched. DESIGN CHOICE, log entry 30. -/
def State.silencePort (m : Moment) (p : PortIx) (s : State) : State :=
  (bookingOrder m).foldl
    (fun s b =>
      ([LegId.main, LegId.backup].filter fun l =>
          (s.booking b).any fun r => (r.leg l).any fun lg => decide (lg.port = p)).foldl
        (fun s l => s.legSilent m b l) s) s

/-- What leaving UP hands on, the new link state being in force: the legs, then the media queues (R53, R55). The order of
the two is log entry 10's. -/
def State.leaveUp (m : Moment) (p : PortIx) (s : State) : State := (s.silencePort m p).emptyMedia m p

/-- The link state written; an instant out of UP clears the up-whole indication (R53). -/
def State.setLink (p : PortIx) (link : Link) (s : State) : State :=
  s.setPort p { s.port p with link := link, upWhole := false }

/-- An UP port enters LOF (R51, R53). -/
def State.enterLof (m : Moment) (p : PortIx) (s : State) : State :=
  let s := s.setLink p .lof
  let s := s.raise .lof (.ofPort p) none
  let s := s.leaveUp m p
  s.recapturePort m p

/-- A lit port loses light (R49, R53, R99). -/
def State.loseLight (m : Moment) (p : PortIx) (s : State) : State :=
  let wasUp := decide ((s.port p).link = .up)
  let s := s.setLink p .down
  let s := s.raise .los (.ofPort p) none
  let s := if m.autoFirst then s.autoProbe p else s
  let s := if wasUp then s.leaveUp m p else s
  let s := s.recapturePort m p
  if m.autoFirst then s else s.autoProbe p

/-- LIGHT_LOST (R49): on a lit port; a dark port has no light to lose. -/
def execLightLost (m : Moment) (p : PortIx) (s : State) : Host.Outcome State Fault Refusal :=
  let s := s.advance m
  if (s.port p).lit then .next ((s.loseLight m p).flush m) else .next s

/-- LIGHT_RETURNS (R49, R108): on a dark port; a probe of the port ends LIVE_FIBRE. -/
def execLightReturns (m : Moment) (p : PortIx) (s : State) : Host.Outcome State Fault Refusal :=
  let s := s.advance m
  if (s.port p).lit then .next s
  else
    let s := s.setPort p { s.port p with link := .acquiring, goodRun := 0, upWhole := false }
    .next ((s.endProbeOf m p .liveFibre).flush m)

end Sys2Proof.Machine
end

