-- ==== Sys2Proof/Machine/Admission.lean ====
section
/-! DEFINITION. The admission unit (chapter 2): the queue, the scan's capacity and label checks, completions, void
entries; the freeing of a record; the meaning of ADMISSION_COMPLETION. -/

namespace Sys2Proof.Machine
open Sys2Proof.Config

/-! ## The checks (sections 2.3 and 2.4) -/

/-- The directions in which a port is loaded (R29). -/
inductive Direction where
  | ingress | egress
  deriving DecidableEq, Repr

/-- The (port, label) pairs a claim names in a direction. -/
def Claim.keys (c : Claim) : Direction → List (PortIx × Nat)
  | .ingress => c.legs
  | .egress => c.dests

/-- The claim loads port `p` in a direction (R29). -/
def Claim.loads (c : Claim) (dir : Direction) (p : PortIx) : Bool := (c.keys dir).any fun k => decide (k.1 = p)

/-- The claim's window contains second `t`. -/
def Claim.holdsAt (c : Claim) (t : Nat) : Bool := decide (c.lo ≤ t ∧ t < c.hi)

/-- The load at second `t` with the candidate's rate (R29). -/
def loadAt (cand : Claim) (seen : List Claim) (dir : Direction) (p : PortIx) (t : Nat) : Nat :=
  ((seen.filter fun c => c.loads dir p && c.holdsAt t).map (·.rate)).sum + cand.rate

/-- The evaluation points of a port and direction (R30). -/
def evaluationPoints (cand : Claim) (seen : List Claim) (dir : Direction) (p : PortIx) : List Nat :=
  cand.lo :: ((seen.filter fun c => c.loads dir p && decide (cand.lo < c.lo ∧ c.lo < cand.hi)).map (·.lo))

/-- The least of a list. -/
def leastOf : List Nat → Option Nat
  | [] => none
  | x :: t => match leastOf t with
    | none => some x
    | some y => some (min x y)

/-- The earliest second at which a port fails in a direction, if it fails (R30). -/
def failingSecond (cand : Claim) (seen : List Claim) (dir : Direction) (p : PortIx) (bookable : Nat) : Option Nat :=
  leastOf ((evaluationPoints cand seen dir p).filter fun t => decide (bookable < loadAt cand seen dir p t))

/-- The ports of the capacity check in order: the legs', then the destinations' (R29). -/
def Claim.checkedPorts (c : Claim) : List (Direction × PortIx) :=
  (c.legs.map fun k => (Direction.ingress, k.1)) ++ (c.dests.map fun k => (Direction.egress, k.1))

/-- The capacity check: the first failing port with its earliest failing second (R29, R30). -/
def capacityVerdict (cand : Claim) (seen : List Claim) (bookable : PortIx → Nat) : Option Verdict :=
  cand.checkedPorts.findSome? fun x =>
    (failingSecond cand seen x.1 x.2 (bookable x.2)).map fun t => .conflict x.2 t

/-- Two windows share a second. -/
def Claim.overlaps (a b : Claim) : Bool := decide (max a.lo b.lo < min a.hi b.hi)

/-- The label check: the candidate's first leg, then destination, that clashes (R32). -/
def labelVerdict (cand : Claim) (seen : List Claim) : Option Verdict :=
  let others := seen.filter fun c => cand.overlaps c
  match cand.legs.find? (fun k => others.any fun c => decide (k ∈ c.legs)) with
  | some k => some (.clash k.1 k.2)
  | none =>
    (cand.dests.find? (fun k => others.any fun c => decide (k ∈ c.dests))).map fun k => .clash k.1 k.2

/-- The verdict of a scan whose visits are done; none when the candidate fits (R29 to R33). -/
def Scan.verdict (sc : Scan) (bookable : PortIx → Nat) : Option Verdict :=
  match capacityVerdict sc.candidate sc.seen bookable with
  | some v => some v
  | none => labelVerdict sc.candidate sc.seen

/-! ## The queue (R26, R27) -/

/-- The allowance a scan weighs an entry's booking with (R28). -/
def AdmissionEntry.allowance (e : AdmissionEntry) (r : Booking) : Nat :=
  match e.kind with
  | .book => r.allowance
  | .extend total _ => total

/-- An entry's scan begins: the candidate's fields are read (R27, R28). -/
def State.beginScan (e : AdmissionEntry) (s : State) : State :=
  match s.booking e.booking with
  | some r =>
    { s with scan := some { entry := e, candidate := r.claim (e.allowance r), visited := 0, seen := [] } }
  | none =>
    { s with
      scan := some { entry := e, candidate := { rate := 0, lo := 0, hi := 0, legs := [], dests := [] }, visited := 0,
                     seen := [] } }

/-- An accepted BOOK or EXTEND hands its entry over (R26). -/
def State.handEntry (e : AdmissionEntry) (s : State) : State :=
  if s.scan.isNone then s.beginScan e else { s with waiting := s.waiting ++ [e] }

/-- The admission queue is full: four already wait (R10, R26). -/
def State.admissionFull (s : State) : Bool := decide (admissionPlaces ≤ s.waiting.length)

/-! ## Completions (sections 2.5 and 2.6) -/

/-- The qualifier and value of a verdict in an ADMISSION detail (R175). -/
def Verdict.qualified : Verdict → Nat × Nat
  | .conflict _ t => (1, t)
  | .clash _ l => (2, l)

/-- The port of a verdict. -/
def Verdict.port : Verdict → PortIx
  | .conflict p _ => p
  | .clash p _ => p

/-- The result code of a CONFLICT or a CLASH (section 11.4). -/
def Verdict.resultCode : Verdict → Nat
  | .conflict _ _ => 24
  | .clash _ _ => 25

/-- ADMISSION raised for a completion (R34): the booking, the port of a verdict, the kind, the outcome code. -/
def State.raiseAdmission (b : BookingIx) (extend : Bool) (code : Nat) (v : Option Verdict) (s : State) : State :=
  let q := (v.map Verdict.qualified).getD (0, 0)
  s.raise .admission { port := v.map Verdict.port, booking := some b, leg := none }
    (some (.admission extend code q.1 q.2))

/-- A BOOK scan completed with a verdict settles its record (R11, R33) and raises ADMISSION (R34): CONFIRMED 0,
REFUSED 1, CANCELLED 2. Nothing but the state and a refusal's detail is written, as R11 has it, so a CANCELLED record
keeps cancel-requested set, though the table of section 1.1 names admission completion among what changes that field:
DESIGN CHOICE, log entry 28. R34 does not say whether the ADMISSION of a CANCELLED entry names the port and the second or
label of a CONFLICT or CLASH that its scan found, so a free value of Config says it: DESIGN CHOICE, log entry 32. -/
def State.completeBook (b : BookingIx) (v : Option Verdict) (s : State) : State :=
  match s.booking b with
  | none => s
  | some r =>
    if r.cancelReq then
      (s.setBooking b (some { r with state := .cancelled })).raiseAdmission b false 2
        (if cancelledNamesVerdict then v else none)
    else
      match v with
      | none => (s.setBooking b (some { r with state := .confirmed })).raiseAdmission b false 0 none
      | some x =>
        (s.setBooking b (some { r with state := .refused, detail := some x })).raiseAdmission b false 1 (some x)

/-- The booking may still be extended at completion (R21, R35). -/
def Booking.extendable (r : Booking) : Bool :=
  (decide (r.state = .confirmed) || r.carrying) && r.closeReq.isNone && !r.restartClose

/-- The record after an EXTEND completes with a verdict (R21, R35). -/
def Booking.afterExtend (r : Booking) (total : Nat) (clamped : Bool) (v : Option Verdict) : Booking :=
  if r.extendable then
    match v with
    | none =>
      { r with extendPending := false, allowance := total, lastExtend := some (if clamped then .clamped else .ok) }
    | some (.conflict p t) => { r with extendPending := false, lastExtend := some (.conflict p t) }
    | some (.clash p l) => { r with extendPending := false, lastExtend := some (.clash p l) }
  else { r with extendPending := false, lastExtend := some .state }

/-- An EXTEND scan completed with a verdict writes its result and raises ADMISSION, the outcome by its result code
(R21, R34, R35, R175). -/
def State.completeExtend (b : BookingIx) (total : Nat) (clamped : Bool) (v : Option Verdict) (s : State) : State :=
  match s.booking b with
  | none => s.raiseAdmission b true 20 none
  | some r =>
    let t := s.setBooking b (some (r.afterExtend total clamped v))
    if r.extendable then
      match v with
      | none => t.raiseAdmission b true (if clamped then 2 else 0) none
      | some x => t.raiseAdmission b true x.resultCode (some x)
    else t.raiseAdmission b true 20 none

/-- A void entry completes with STATE and writes nothing (R36). -/
def State.completeVoid (b : BookingIx) (s : State) : State := s.raiseAdmission b true 20 none

/-- The waiting entries after a completion: void ones at the head complete at once, and the first other begins its
scan (R27, R36). -/
def State.startWaiting : List AdmissionEntry → State → State
  | [], s => { s with waiting := [] }
  | e :: rest, s =>
    if e.void then State.startWaiting rest ({ s with waiting := rest }.completeVoid e.booking)
    else { s with waiting := rest }.beginScan e

/-- An entry settled with its scan's verdict (R33, R35, R36). -/
def State.completeEntry (e : AdmissionEntry) (v : Option Verdict) (s : State) : State :=
  if e.void then s.completeVoid e.booking
  else
    match e.kind with
    | .book => s.completeBook e.booking v
    | .extend total clamped => s.completeExtend e.booking total clamped v

/-- The scan makes its last visits, its entry is settled, and the next scan begins at that instant (R27). -/
def State.completeScan (sc : Scan) (s : State) : State :=
  let done := sc.visitTo s.bookings 256
  let t := { s with scan := none }.completeEntry done.entry (done.verdict fun p => (s.port p).bookable)
  t.startWaiting t.waiting

/-! ## Freeing a record (R1, R36) -/

/-- An EXTEND entry naming `b` becomes void. -/
def AdmissionEntry.voidFor (b : BookingIx) (e : AdmissionEntry) : AdmissionEntry :=
  match e.kind with
  | .extend _ _ => if e.booking = b then { e with void := true } else e
  | .book => e

/-- The record `b` returns to FREE: every field absent, and any EXTEND entry naming it void (R1, R36). -/
def State.freeBooking (b : BookingIx) (s : State) : State :=
  let t := s.setBooking b none
  { t with
    scan := t.scan.map fun sc => { sc with entry := sc.entry.voidFor b }
    waiting := t.waiting.map (AdmissionEntry.voidFor b) }

/-! ## Meaning -/

/-- ADMISSION_COMPLETION (R27, R33, R35, R36): the scan in flight completes. With no scan in flight nothing
completes. -/
def execAdmissionCompletion (m : Moment) (s : State) : Host.Outcome State Fault Refusal :=
  let s := s.beginEvent m.dt
  match s.scan with
  | some sc => .next ((s.completeScan sc).flush m)
  | none => .next s

end Sys2Proof.Machine
end

