-- ==== Sys2Proof/Machine/Operands.lean ====
section
/-! DEFINITION. The operands of the requests: their refusal checks, each in the device's refusal order (R172), and the
forms they are written into the state in. -/

namespace Sys2Proof.Machine
open Sys2Proof.Config

/-- The result of the first check that fails, in the order given (R172). -/
def firstFailing (l : List (Bool × Result)) : Option Result := (l.find? (·.1)).map (·.2)

/-- A port number in range. -/
def portIx (n : Nat) : PortIx := Fin.ofNat 16 n
/-- A booking index in range. -/
def bookingIx (n : Nat) : BookingIx := Fin.ofNat 256 n
/-- A tariff index in range. -/
def tariffIx (n : Nat) : TariffIx := Fin.ofNat 16 n
/-- A pattern index in range. -/
def patternIx (n : Nat) : PatternIx := Fin.ofNat 32 n
/-- A counter number in range. -/
def counterIx (n : Nat) : CounterIx := Fin.ofNat 8 n

/-- The record an index names satisfies a test; a FREE record, or an index out of range, does not. -/
def State.recordIs (s : State) (index : Nat) (test : Booking → Bool) : Bool :=
  decide (index < 256) && (s.booking (bookingIx index)).any test

/-- A number outside a range. -/
def outside (lo hi n : Nat) : Bool := decide (n < lo ∨ hi < n)

/-- A number brought into a range. -/
def clamp (lo hi n : Nat) : Nat := min hi (max lo n)

/-- OK, or CLAMPED when a value was clamped. -/
def okOrClamped (clamped : Bool) : Result := if clamped then .clamped else .ok

/-! ## Device and time -/

/-- RESTART (R23). -/
def checkRestart (s : State) : Option Result :=
  firstFailing
    [(s.restart, .state),
     (decide (billQueueDepth - s.bills.length < s.countBookings fun r => r.carrying || decide (r.state = .closing)),
       .noRoom)]

/-- A request naming a port that a restart alone refuses: NOTICE SET (R176). -/
def checkNoticeSet (port : Nat) (s : State) : Option Result :=
  firstFailing [(decide (15 < port), .range), (s.restart, .state)]

/-- A booking that bars a TIME SET (R8). -/
def Booking.barsTimeSet (r : Booking) : Bool :=
  decide (r.state = .pending ∨ r.state = .armed ∨ r.state = .live ∨ r.state = .overrun ∨ r.state = .closing)

/-- TIME SET (R8). -/
def checkTimeSet (a : TimeSetArgs) (s : State) : Option Result :=
  firstFailing
    [(decide (999 < a.ms), .range), (s.restart, .state), (s.anyBooking Booking.barsTimeSet, .inUse)]

/-! ## Ports -/

/-- The request would change the capacity, the reserve or the role of the port (R43). -/
def PortSetArgs.changes (a : PortSetArgs) (x : Port) : Bool :=
  decide (a.capacity ≠ x.capacity) || decide (a.reserve ≠ x.reserve) || decide (a.role ≠ x.role.code)

/-- After the request no port would have class OPERATOR (R43). -/
def State.losesOperator (s : State) (a : PortSetArgs) : Bool :=
  decide (a.cls ≠ ControlClass.operator.code) &&
    (List.finRange 16).all fun q => decide (q = portIx a.port) || decide ((s.port q).cls ≠ .operator)

/-- PORT SET (R43). -/
def checkPortSet (a : PortSetArgs) (s : State) : Option Result :=
  firstFailing
    [(decide (15 < a.port ∨ 3 < a.role ∨ 2 < a.cls) || outside 1 960 a.capacity || decide (96 < a.reserve), .range),
     (s.restart, .state),
     (PortSetArgs.changes a (s.port (portIx a.port)) &&
        s.anyBooking (fun r => r.holdsPorts && r.usesPort (portIx a.port)), .inUse),
     (s.losesOperator a, .state)]

/-- The six settings of an accepted PORT SET written (R43). -/
def PortSetArgs.apply (a : PortSetArgs) (x : Port) : Port :=
  { x with
    role := (Role.ofCode a.role).getD .off, capacity := a.capacity, reserve := a.reserve,
    demarcation := a.demarcation, cls := (ControlClass.ofCode a.cls).getD .none, autoProbe := a.autoProbe }

/-- A read that names a port (R45). -/
def checkPort (port : Nat) : Option Result := firstFailing [(decide (15 < port), .range)]

/-! ## Bookings -/

/-- The commercial terms lie outside their ranges (R10). -/
def BookArgs.badTerms (a : BookArgs) (s : State) : Bool :=
  decide (a.customer = 0) ||
  decide (15 < a.tariff) || (s.tariffs[tariffIx a.tariff]).isNone ||
  outside 1 480 a.rate ||
  decide (a.finish < a.start + 60 ∨ a.start + 86400 < a.finish) ||
  outside 30 600 a.armLead ||
  decide (maxAllowance < a.allowance) ||
  decide (a.start < a.armLead ∨ maxU32 < a.finish + a.allowance) ||
  (s.timeSet && decide (a.finish ≤ s.sec))

/-- The leg port may be one (R42). -/
def Role.ingressAllowed : Role → Bool
  | .venue | .mixed => true
  | .off | .taker => false

/-- The destination port may be one (R42). -/
def Role.egressAllowed : Role → Bool
  | .taker | .mixed => true
  | .off | .venue => false

/-- A leg that BOOK refuses (R10). -/
def LegArgs.bad (a : LegArgs) (s : State) : Bool :=
  decide (15 < a.port) || outside 1 4095 a.label || !(s.port (portIx a.port)).role.ingressAllowed ||
  (a.pattern.any fun n => decide (31 < n) || (s.patterns[patternIx n]).isNone) ||
  decide (2 < a.policy) || (decide (a.policy ≠ IdentPolicy.none.code) && a.pattern.isNone)

/-- A destination that BOOK refuses (R10). -/
def DestArgs.bad (a : DestArgs) (s : State) : Bool :=
  decide (15 < a.port) || outside 1 4095 a.label || !(s.port (portIx a.port)).role.egressAllowed

/-- A list repeats an entry. -/
def repeats : List Nat → Bool
  | [] => false
  | x :: t => decide (x ∈ t) || repeats t

/-- The ports repeat as R3 forbids: within the legs, within the destinations, or between the two. -/
def BookArgs.portsRepeat (a : BookArgs) : Bool := repeats (a.legs.map (·.port) ++ a.dests.map (·.port))

/-- The mode names none, or is BACKUP_ONLY with one leg (R10). -/
def BookArgs.badMode (a : BookArgs) : Bool :=
  a.mode.any fun c => decide (2 < c) || decide (c = ProtectionMode.backupOnly.code ∧ a.legs.length = 1)

/-- BOOK (R10). -/
def checkBook (a : BookArgs) (s : State) : Option Result :=
  firstFailing
    [(BookArgs.badTerms a s || outside 1 2 a.legs.length || outside 1 4 a.dests.length ||
        a.legs.any (fun l => LegArgs.bad l s) || a.dests.any (fun d => DestArgs.bad d s) || BookArgs.portsRepeat a ||
        BookArgs.badMode a, .range),
     (!s.timeSet, .timeUnset),
     (s.restart, .state),
     (s.bookings.toList.all Option.isSome, .noRoom),
     (s.admissionFull, .busy)]

/-- A leg as BOOK writes it: IDLE, no exclusion, no ident state (R10, R77, R85). -/
def LegArgs.toLeg (a : LegArgs) : Leg :=
  { port := portIx a.port, label := a.label, pattern := a.pattern.map patternIx,
    policy := (IdentPolicy.ofCode a.policy).getD .none, state := .idle, silenceAt := none, exIdent := false,
    exWatch := false, exManual := false, ident := none, identAt := none }

/-- A destination as BOOK writes it. -/
def DestArgs.toDest (a : DestArgs) : Dest := { port := portIx a.port, label := a.label, account := none }

/-- A leg that names nothing; only a BOOK without legs, which is refused, would read it. -/
def Leg.unnamed : Leg :=
  { port := 0, label := 0, pattern := none, policy := .none, state := .idle, silenceAt := none, exIdent := false,
    exWatch := false, exManual := false, ident := none, identAt := none }

/-- The record BOOK writes: PENDING, optional fields absent, flags clear (R10). -/
def BookArgs.toBooking (a : BookArgs) : Booking :=
  { state := .pending, customer := a.customer, tariff := tariffIx a.tariff, rate := a.rate, start := a.start,
    finish := a.finish, armLead := a.armLead, allowance := a.allowance,
    mode := (a.mode.bind ProtectionMode.ofCode).getD .merge
    main := (a.legs.head?.map LegArgs.toLeg).getD .unnamed
    backup := a.legs.tail.head?.map LegArgs.toLeg
    dests := a.dests.map DestArgs.toDest
    closeReq := none, cancelReq := false, extendPending := false, restartClose := false, liveFrom := none,
    liveTo := none, overrunFrom := none, closeSecond := none, cut := none, detail := none, lastExtend := none,
    merge := none, outage := none }

/-- The lowest-indexed FREE record (R10). -/
def State.firstFree (s : State) : Option BookingIx := (List.finRange 256).find? fun i => (s.booking i).isNone

/-- A request naming a booking that certain states alone accept (R19, R20). -/
def checkBookingState (index : Nat) (accepts : Booking → Bool) (s : State) : Option Result :=
  firstFailing [(decide (255 < index), .range), (s.restart, .state), (!s.recordIs index accepts, .state)]

/-- CANCEL is accepted in PENDING, CONFIRMED, ARMED and LIVE (R19). -/
def Booking.cancellable (r : Booking) : Bool :=
  decide (r.state = .pending ∨ r.state = .confirmed ∨ r.state = .armed ∨ r.state = .live)

/-- EXTEND is accepted in CONFIRMED, ARMED, LIVE and OVERRUN with close-requested and extend-pending clear (R21). -/
def Booking.acceptsExtend (r : Booking) : Bool :=
  (decide (r.state = .confirmed) || r.carrying) && r.closeReq.isNone && !r.extendPending

/-- The new total of an EXTEND, before it is clamped (R21). -/
def ExtendArgs.total (a : ExtendArgs) (r : Booking) : Nat := r.allowance + a.seconds

/-- EXTEND (R21). -/
def checkExtend (a : ExtendArgs) (s : State) : Option Result :=
  firstFailing
    [(decide (255 < a.index) || outside 1 7200 a.seconds ||
        s.recordIs a.index (fun r => decide (maxU32 < r.finish + min maxAllowance (ExtendArgs.total a r))), .range),
     (s.restart, .state),
     (!s.recordIs a.index Booking.acceptsExtend, .state),
     (s.admissionFull, .busy)]

/-- MODE is accepted in PENDING, CONFIRMED, ARMED, LIVE and OVERRUN (R83). -/
def Booking.acceptsMode (r : Booking) : Bool := decide (r.state = .pending ∨ r.state = .confirmed) || r.carrying

/-- MODE (R83). -/
def checkMode (a : ModeArgs) (s : State) : Option Result :=
  firstFailing
    [(decide (255 < a.index ∨ 2 < a.mode) ||
        (decide (a.mode = ProtectionMode.backupOnly.code) && s.recordIs a.index fun r => r.backup.isNone), .range),
     (s.restart, .state),
     (!s.recordIs a.index Booking.acceptsMode, .state)]

/-- A read that names a booking (R22). -/
def checkBookingIndex (index : Nat) : Option Result := firstFailing [(decide (255 < index), .range)]

/-! ## Patterns and tariffs -/

/-- A leg of the booking carries the pattern while PATTERN SET may not rewrite it (R84). -/
def Booking.barsPattern (r : Booking) (ix : PatternIx) : Bool :=
  (decide (r.state = .confirmed) || r.carrying) && r.legs.any fun l => decide (l.pattern = some ix)

/-- PATTERN SET (R84). -/
def checkPatternSet (a : PatternSetArgs) (s : State) : Option Result :=
  firstFailing
    [((a.target.any fun w => decide (31 < w.index)) || outside 2 60 a.identTimeout, .range),
     (s.restart, .state),
     (a.target.any (fun w => s.anyBooking fun r => r.barsPattern (patternIx w.index)), .inUse)]

/-- The pattern a PATTERN SET carries. -/
def PatternWrite.toPattern (w : PatternWrite) : Pattern := { reference := w.reference, mask := w.mask }

/-- A read that names a pattern (R84). -/
def checkPattern (index : Nat) : Option Result := firstFailing [(decide (31 < index), .range)]

/-- A non-FREE record holds the tariff index (R152). -/
def State.tariffInUse (s : State) (ix : TariffIx) : Bool := s.anyBooking fun r => decide (r.tariff = ix)

/-- TARIFF SET (R152). -/
def checkTariffSet (a : TariffSetArgs) (s : State) : Option Result :=
  firstFailing
    [(decide (15 < a.index) || decide (a.price = 0) || outside 16 64 a.multiplier ||
        decide (100 < a.disc1 ∨ 100 < a.disc2 ∨ 100 < a.disc3) ||
        decide (a.t1 = 0 ∨ a.t2 = 0 ∨ a.t3 = 0 ∨ a.t2 ≤ a.t1 ∨ a.t3 ≤ a.t2) ||
        decide (8 < a.creditFactor) || decide (2 < a.rounding) || decide (2880 < a.lateWindow) ||
        decide (100 < a.latePercent), .range),
     (s.restart, .state),
     (s.tariffInUse (tariffIx a.index), .inUse)]

/-- The tariff a TARIFF SET carries (R151). -/
def TariffSetArgs.toTariff (a : TariffSetArgs) : Tariff :=
  { price := a.price, multiplier := a.multiplier, disc1 := a.disc1, disc2 := a.disc2, disc3 := a.disc3, t1 := a.t1,
    t2 := a.t2, t3 := a.t3, creditFactor := a.creditFactor, creditUnknown := a.creditUnknown,
    rounding := (Rounding.ofCode a.rounding).getD .nearestEven, lateWindow := a.lateWindow,
    latePercent := a.latePercent }

/-- A read that names a tariff (R153). -/
def checkTariff (index : Nat) : Option Result := firstFailing [(decide (15 < index), .range)]

/-! ## Reflectometer -/

/-- PROBE (R98); a PROBE that joins is never BUSY. -/
def checkProbe (port : Nat) (s : State) : Option Result :=
  firstFailing
    [(decide (15 < port) || decide ((s.port (portIx port)).role = .off), .range),
     (s.restart, .state),
     (!s.fitted (portIx port), .unavailable),
     ((s.port (portIx port)).lit, .liveFibre),
     ((s.probeOf (portIx port)).isNone && decide (probePlaces ≤ s.probeWaiting.length), .busy)]

/-- A read that names a port or ALL (R113). -/
def checkPortOrAll (port : Option Nat) : Option Result := firstFailing [(port.any fun n => decide (15 < n), .range)]

/-- A segment that PROBE CONFIG refuses (R112). -/
def SegmentArgs.bad (a : SegmentArgs) : Bool :=
  decide (a.last < a.first) || outside 1 64 a.shadow || decide (4095 < a.threshold)

/-- A segment after the first does not begin behind the one before it (R112). -/
def segmentsOverlap : List SegmentArgs → Bool
  | a :: b :: t => decide (b.first ≤ a.last) || segmentsOverlap (b :: t)
  | _ => false

/-- PROBE CONFIG (R112). -/
def checkProbeConfig (a : ProbeConfigArgs) (s : State) : Option Result :=
  firstFailing
    [(outside 1 5 a.segments.length || a.segments.any SegmentArgs.bad || segmentsOverlap a.segments || decide (4095 < a.silence ∨ 4095 < a.breakThreshold) ||
        outside 1 16 a.preMs, .range),
     (s.restart, .state)]

/-- A segment as written, the exponent clamped (R112). -/
def SegmentArgs.toSegment (a : SegmentArgs) : Segment :=
  { first := a.first, last := a.last, exponent := min 6 a.exponent, shadow := a.shadow, threshold := a.threshold }

/-- The configuration as written (R112). -/
def ProbeConfigArgs.toConfig (a : ProbeConfigArgs) : ProbeConfig :=
  { segments := a.segments.map SegmentArgs.toSegment, silence := a.silence, preMs := a.preMs,
    breakThreshold := a.breakThreshold, q := clamp 400 600 a.q }

/-- Some value of the configuration is clamped (R112). -/
def ProbeConfigArgs.clamps (a : ProbeConfigArgs) : Bool :=
  a.segments.any (fun g => decide (6 < g.exponent)) || outside 400 600 a.q

/-! ## Watch counters -/

/-- The scope a WATCH SET carries, when it names one (R140, section 11.2). -/
def WatchSetArgs.scope (a : WatchSetArgs) : Option Scope :=
  match a.scopeKind with
  | 0 => some .any
  | 1 => if a.scopePort < 16 then some (.port (portIx a.scopePort)) else none
  | 2 => if a.scopeBooking < 256 then some (.booking (bookingIx a.scopeBooking)) else none
  | 3 => if a.scopeBooking < 256 then (legOfCode a.scopeLeg).map fun l => .leg (bookingIx a.scopeBooking) l else none
  | _ => none

/-- The action asks for a scope of another kind (R140). -/
def WatchAction.mismatches : WatchAction → Scope → Bool
  | .excludeLeg, .leg _ _ => false
  | .excludeLeg, _ => true
  | .probePort, .port _ => false
  | .probePort, _ => true
  | .none, _ => false

/-- The combination of action and scope is refused, or one of them names none (R140). -/
def WatchSetArgs.badAction (a : WatchSetArgs) : Bool :=
  match WatchAction.ofCode a.action, WatchSetArgs.scope a with
  | some x, some sc => x.mismatches sc
  | _, _ => true

/-- WATCH SET (R140). -/
def checkWatchSet (a : WatchSetArgs) (s : State) : Option Result :=
  firstFailing
    [(decide (7 < a.counter) || (WatchKind.ofCode a.event).isNone || WatchSetArgs.badAction a, .range), (s.restart, .state)]

/-- The counter a WATCH SET writes (R140); match and mask in the widths of their fields. -/
def WatchSetArgs.toCounter (a : WatchSetArgs) : Counter :=
  { event := (WatchKind.ofCode a.event).getD .rxFrames, scope := (WatchSetArgs.scope a).getD .any
    matchBits :=
      { label := BitVec.ofNat 12 a.matchLabel, kind := BitVec.ofNat 8 a.matchKind, endBit := BitVec.ofNat 1 a.matchEnd }
    maskBits :=
      { label := BitVec.ofNat 12 a.maskLabel, kind := BitVec.ofNat 8 a.maskKind, endBit := BitVec.ofNat 1 a.maskEnd }
    threshold := a.threshold, edge := a.edge, invert := a.invert, notice := a.notice, member := a.member,
    action := (WatchAction.ofCode a.action).getD .none, value := a.startValue, overflow := false, secondTotal := 0,
    previousMet := false, starting := true }

/-- A read that names a counter or ALL (R141). -/
def checkCounterOrAll (counter : Option Nat) : Option Result :=
  firstFailing [(counter.any fun n => decide (7 < n), .range)]

/-- A request that a restart alone refuses: WATCH UNFREEZE, FAULT MASK (R142, R150). -/
def checkRunning (s : State) : Option Result := firstFailing [(s.restart, .state)]

/-! ## Faults and bills -/

/-- FAULT CLEAR (R149). -/
def checkFaultClear (classes : List Nat) (s : State) : Option Result :=
  firstFailing [(classes.any (outside 1 14), .range), (s.restart, .state)]

/-- BILL RELEASE (R165); accepted during a restart. -/
def checkBillRelease (index : Nat) (s : State) : Option Result :=
  firstFailing
    [(decide (255 < index), .range), (!(s.bills.head?.any fun x => decide (x.booking.val = index)), .state)]

end Sys2Proof.Machine
end

