-- ==== Sys2Proof/Machine/Report.lean ====
section
/-! DEFINITION. The bodies of the responses (R170), each field encoded as R169 gives. The widths R169 leaves to a field's
range are deduced in log entry 18; the codes of indications named in no numbered list are those of log entries 7
and 18. -/

namespace Sys2Proof.Machine
open Sys2Proof.Config

/-! ## Parts -/

/-- An optional network second. -/
def encSecond : Option Nat → List Byte := encOpt 4 enc32

/-- An enumerated value that may be absent. -/
def encEnum {α : Type} (code : α → Nat) : Option α → List Byte := encOpt 1 fun x => enc8 (code x)

/-- Light: LIT 0, DARK 1, as section 3.3 lists them. -/
def lightCode (x : Port) : Nat := if x.lit then 0 else 1

/-- The body of IDENTIFY (R177). -/
def State.identity (s : State) : List Byte :=
  enc16 vendorCode ++ enc16 partCode ++ enc8 revision ++ enc8 s.straps.node.val ++ enc8 s.startCause.code

/-- The body of TIME READ (R9). -/
def State.timeReport (s : State) : List Byte :=
  encBool s.timeSet ++ enc32 s.sec ++ enc16 s.milli ++ enc32 s.idleClose

/-- The body of PORT READ (R45). -/
def State.portReport (s : State) (p : PortIx) : List Byte :=
  let x := s.port p
  enc8 x.role.code ++ enc16 x.capacity ++ enc16 x.reserve ++ enc16 x.demarcation ++ enc8 x.cls.code ++
    encBool x.autoProbe ++ encBool (s.fitted p) ++ enc8 (lightCode x) ++ enc8 x.link.code ++ enc32 x.badChecks ++
    encBool x.upLast ++ enc16 x.class1.length ++ enc16 x.class2.length ++ enc8 x.control.length ++
    encBool (s.underProbe p)

/-! ## Bookings (R22, R170) -/

/-- A leg as the BOOK body carries it. -/
def Leg.terms (l : Leg) : List Byte :=
  enc8 l.port.val ++ enc16 l.label ++ encOpt 1 (fun p : PatternIx => enc8 p.val) l.pattern ++ enc8 l.policy.code

/-- A destination as the BOOK body carries it. -/
def Dest.terms (d : Dest) : List Byte := enc8 d.port.val ++ enc16 d.label

/-- The fields of the BOOK body, the protection mode present. -/
def Booking.terms (r : Booking) : List Byte :=
  enc16 r.customer ++ enc8 r.tariff.val ++ enc16 r.rate ++ enc32 r.start ++ enc32 r.finish ++ enc32 r.armLead ++
    enc32 r.allowance ++ encEnum ProtectionMode.code (some r.mode) ++ encList Leg.terms r.legs ++
    encList Dest.terms r.dests

/-- An admission detail: CONFLICT 0 or CLASH 1, the port, the second or label in 4 bytes. -/
def Verdict.report : Verdict → List Byte
  | .conflict p t => enc8 0 ++ enc8 p.val ++ enc32 t
  | .clash p l => enc8 1 ++ enc8 p.val ++ enc32 l

/-- A last extend outcome: OK 0, CLAMPED 1, CONFLICT 2, CLASH 3, STATE 4, as R4 lists them; then port and value. -/
def ExtendOutcome.report : ExtendOutcome → List Byte
  | .ok => enc8 0 ++ zeros 5
  | .clamped => enc8 1 ++ zeros 5
  | .conflict p t => enc8 2 ++ enc8 p.val ++ enc32 t
  | .clash p l => enc8 3 ++ enc8 p.val ++ enc32 l
  | .state => enc8 4 ++ zeros 5

/-- A leg's state, exclusion set and ident state. -/
def Leg.status (l : Leg) : List Byte :=
  enc8 l.state.code ++ encBool l.exIdent ++ encBool l.exWatch ++ encBool l.exManual ++ encEnum IdentState.code l.ident

/-- A leg's merge counts. -/
def LegCounts.report (k : LegCounts) : List Byte := enc32 k.redundant ++ enc32 k.policerDrops

/-- The merge state of a booking with or without a backup leg. -/
def MergeState.report (twoLegs : Bool) (x : MergeState) : List Byte :=
  encOpt 2 enc16 x.lastFwd ++ encBool x.resync ++ enc32 x.loss ++ enc32 x.resyncCount ++ x.main.report ++
    (if twoLegs then x.backup.report else [])

/-- The width of a merge state. -/
def mergeWidth (twoLegs : Bool) : Nat := if twoLegs then 28 else 20

/-- Egress-drop counts. -/
def DestAccount.drops (a : DestAccount) : List Byte := enc32 a.secondDrops ++ enc32 a.totalDrops

/-- Counts by band, band 0 first. -/
def Bands.report (x : Bands) : List Byte := enc32 x.b0 ++ enc32 x.b1 ++ enc32 x.b2 ++ enc32 x.b3

/-- Residency counts in the order of the table of R128. -/
def Residency.report (x : Residency) : List Byte :=
  enc32 x.deliveredLive ++ enc32 x.undeliveredLive ++ x.bandLive.report ++ enc32 x.deliveredOver ++
    enc32 x.undeliveredOver ++ x.bandOver.report

/-- A break: port and distance. -/
def Break.report (b : Break) : List Byte := enc8 b.port.val ++ enc16 b.distance

/-- The probe number of a PENDING cause, or zero. -/
def CauseValue.number : CauseValue → Nat
  | .pending n => n.val
  | .network | .venue | .unknown => 0

/-- A cause: its value, the number of a PENDING one or zero, its break. -/
def Cause.report (c : Cause) : List Byte :=
  enc8 c.value.code ++ enc8 c.value.number ++ encOpt 3 Break.report c.brk

/-- What an outage record holds for a leg. -/
def LegCause.report (c : LegCause) : List Byte :=
  encOpt 6 Cause.report c.held ++ encEnum Situation.code c.situation ++ encOpt 6 Cause.report c.carried

/-- An outage record, its legs those the booking has. -/
def OutageRecord.report (twoLegs : Bool) (o : OutageRecord) : List Byte :=
  enc32 o.start ++ encSecond o.finish ++ enc32 o.seconds ++ o.main.report ++
    (if twoLegs then o.backup.report else []) ++ enc8 o.attribution.code ++ encOpt 3 Break.report o.brk ++
    encBool o.merged

/-- The outage state with the residency of each destination. -/
def OutageState.report (twoLegs : Bool) (dests : List Dest) (o : OutageState) : List Byte :=
  encBool o.flag ++ encBool o.touched ++ enc32 o.run ++ encList (OutageRecord.report twoLegs) o.records ++
    dests.flatMap fun d => d.residency.report

/-- The body of BOOKING READ: the state, FREE alone, or the record's fields in the order of R170. -/
def bookingReport : Option Booking → List Byte
  | none => enc8 0
  | some r =>
    enc8 r.state.code ++ r.terms ++
      encBool r.closeReq.isSome ++ encEnum CutReason.code r.closeReq ++ encBool r.cancelReq ++
      encBool r.extendPending ++ encBool r.restartClose ++
      encSecond r.liveFrom ++ encSecond r.liveTo ++ encSecond r.overrunFrom ++ encSecond r.closeSecond ++
      encEnum CutReason.code r.cut ++ encOpt 6 Verdict.report r.detail ++
      encOpt 6 ExtendOutcome.report r.lastExtend ++ r.legs.flatMap Leg.status ++
      encOpt (mergeWidth r.backup.isSome) (MergeState.report r.backup.isSome) r.merge ++
      r.dests.flatMap (fun d => encOpt 8 DestAccount.drops d.account) ++
      encOptVar (OutageState.report r.backup.isSome r.dests) r.outage

/-! ## Patterns and tariffs -/

/-- The body of PATTERN READ (R84). -/
def State.patternReport (s : State) (ix : PatternIx) : List Byte :=
  encBool (s.patterns[ix]).isSome ++ enc16 s.silenceMs ++ enc32 s.identTimeout ++
    encOpt 36 (fun p : Pattern => p.reference ++ encMask p.mask) (s.patterns[ix])

/-- The fields of R151. -/
def Tariff.report (t : Tariff) : List Byte :=
  enc16 t.price ++ enc8 t.multiplier ++ enc8 t.disc1 ++ enc8 t.disc2 ++ enc8 t.disc3 ++ enc16 t.t1 ++ enc16 t.t2 ++
    enc16 t.t3 ++ enc8 t.creditFactor ++ encBool t.creditUnknown ++ enc8 t.rounding.code ++ enc16 t.lateWindow ++
    enc8 t.latePercent

/-- The body of TARIFF READ (R153); `inUse` is the condition of the IN_USE refusal. -/
def State.tariffReport (s : State) (ix : TariffIx) (inUse : Bool) : List Byte :=
  encBool (s.tariffs[ix]).isSome ++ encOpt 18 Tariff.report (s.tariffs[ix]) ++ encBool inUse

/-! ## Reflectometer (R98, R113) -/

/-- The place of a waiting probe, 1 being the head. -/
def waitingPlace (n : ProbeNo) (l : List WaitingProbe) : Option Nat :=
  (l.findIdx? fun w => decide (w.number = n)).map (· + 1)

/-- The body of an accepted PROBE: number, NEW 0 or JOINED 1, IN_FLIGHT 0 or WAITING 1, and the position. -/
def State.probeAnswer (s : State) (n : ProbeNo) (joined : Bool) : List Byte :=
  let position := waitingPlace n s.probeWaiting
  enc8 n.val ++ enc8 joined.toNat ++ enc8 position.isSome.toNat ++ encOpt 1 enc8 position

/-- A kept peak. -/
def KeptPeak.report (k : KeptPeak) : List Byte := enc16 k.distance ++ enc16 k.amplitude

/-- A last result. -/
def ProbeResult.report (x : ProbeResult) : List Byte :=
  enc8 x.number.val ++ enc8 x.outcome.code ++ encList KeptPeak.report x.peaks ++ encOpt 2 enc16 x.breakDistance ++
    enc32 x.second ++ encBool x.timeSet

/-- The port's probe: number, place, phase when in flight, position when waiting. -/
def State.portProbe (s : State) (p : PortIx) : Option (List Byte) :=
  (s.probeOf p).map fun n =>
    if s.underProbe p then
      enc8 n.val ++ enc8 0 ++ encEnum Phase.code (s.flight.map (·.phase)) ++ encOpt 1 enc8 none
    else enc8 n.val ++ enc8 1 ++ encEnum Phase.code none ++ encOpt 1 enc8 (waitingPlace n s.probeWaiting)

/-- The body of PROBE READ naming a port. -/
def State.probePortReport (s : State) (p : PortIx) : List Byte :=
  encOptVar ProbeResult.report (s.lastResults[p]) ++ encBool (s.fitted p) ++ enc8 (lightCode (s.port p)) ++
    encBool (s.port p).autoProbe ++ encOpt 6 (fun l => l) (s.portProbe p)

/-- A segment with the fields of R105. -/
def Segment.report (g : Segment) : List Byte :=
  enc16 g.first ++ enc16 g.last ++ enc8 g.exponent ++ enc8 g.shadow ++ enc16 g.threshold

/-- The configuration as PROBE CONFIG carries it. -/
def ProbeConfig.report (c : ProbeConfig) : List Byte :=
  encList Segment.report c.segments ++ enc16 c.silence ++ enc16 c.preMs ++ enc16 c.breakThreshold ++ enc16 c.q

/-- The body of PROBE READ naming ALL. -/
def State.probeAllReport (s : State) : List Byte :=
  s.probeConfig.report ++ enc8 s.probeCounter.val ++
    encOpt 3 (fun f : Flight => enc8 f.number.val ++ enc8 f.port.val ++ enc8 f.phase.code) s.flight ++
    encList (fun w : WaitingProbe => enc8 w.number.val ++ enc8 w.port.val) s.probeWaiting

/-! ## Watch counters (R141) -/

/-- A scope: its kind, then a port, a booking index and a leg, each zero where the kind names none. -/
def Scope.report : Scope → List Byte
  | .any => enc8 0 ++ enc8 0 ++ enc8 0 ++ enc8 0
  | .port p => enc8 1 ++ enc8 p.val ++ enc8 0 ++ enc8 0
  | .booking b => enc8 2 ++ enc8 0 ++ enc8 b.val ++ enc8 0
  | .leg b l => enc8 3 ++ enc8 0 ++ enc8 b.val ++ enc8 (legCode l)

/-- A match or a mask. -/
def FrameBits.report (x : FrameBits) : List Byte := enc16 x.label.toNat ++ enc8 x.kind.toNat ++ enc8 x.endBit.toNat

/-- The settings as WATCH SET carries them. -/
def Counter.settings (c : Counter) : List Byte :=
  enc8 c.event.code ++ c.scope.report ++ c.matchBits.report ++ c.maskBits.report ++ enc32 c.threshold ++
    encBool c.edge ++ encBool c.invert ++ encBool c.notice ++ encBool c.member ++ enc8 c.action.code

/-- One counter of WATCH READ. -/
def State.counterReport (s : State) (i : CounterIx) : List Byte :=
  let c := s.counter i
  enc8 i.val ++ c.settings ++ enc32 c.value ++ encBool c.overflow ++ enc32 c.secondTotal ++ encBool c.previousMet ++
    encBool !(s.halted c)

/-- The body of WATCH READ. -/
def State.watchReport (s : State) (which : List CounterIx) : List Byte :=
  encBool s.frozen ++ encList s.counterReport which

/-! ## Faults (R148) and bills (R161, R164) -/

/-- The latched capture. -/
def Capture.report (c : Capture) : List Byte :=
  enc8 c.cls.number ++ encOpt 1 (fun p : PortIx => enc8 p.val) c.items.port ++
    encOpt 1 (fun b : BookingIx => enc8 b.val) c.items.booking ++ encEnum legCode c.items.leg ++ enc32 c.second ++
    enc16 c.milli ++ encBool c.timeSet

/-- The body of FAULT READ. -/
def State.faultReport (s : State) : List Byte :=
  s.flags.toList.flatMap encBool ++ s.masks.toList.flatMap encBool ++ encOpt 14 Capture.report s.capture

/-- An outage record of a bill; its end second is always present (R161). -/
def BillOutage.report (o : BillOutage) : List Byte :=
  enc32 o.start ++ enc32 (o.finish.getD 0) ++ enc32 o.seconds ++ enc8 o.attribution.code ++ encBool o.merged ++
    encOpt 3 Break.report o.brk

/-- A destination line. -/
def BillLine.report (x : BillLine) : List Byte :=
  enc8 x.port.val ++ enc32 x.deliveredLive ++ enc32 x.deliveredOver ++ x.bandLive.report ++ x.bandOver.report ++
    enc32 x.charge ++ encBool x.creditClamped ++ encBool x.saturated

/-- A billing record, the fields of R161. -/
def Bill.report (x : Bill) : List Byte :=
  enc8 x.booking.val ++ enc16 x.customer ++ enc8 x.tariff.val ++ enc8 x.kind.code ++ enc8 x.cut.code ++ enc32 x.start ++
    enc32 x.finish ++ encSecond x.liveFrom ++ encSecond x.liveTo ++ enc32 x.closeSecond ++ enc32 x.liveSeconds ++
    enc32 x.overSeconds ++ enc32 x.outNetwork ++ enc32 x.outVenue ++ enc32 x.outUnknown ++
    encList BillOutage.report x.outages ++ encList BillLine.report x.lines ++ enc32 x.total ++ encBool x.saturated

/-- The body of BILL READ. -/
def State.billReport (s : State) : List Byte :=
  enc8 s.bills.length ++ enc8 s.billWaiting.length ++ encOptVar Bill.report s.bills.head?

end Sys2Proof.Machine
end

