-- ==== Sys2Proof/Machine/Device.lean ====
section
/-! DEFINITION. The meanings of the device, time and port requests (chapters 1, 3 and 11). Of each request a `req`
definition gives what happens when the control channel unit takes it, and the `exec` definition lets its moment pass
first. -/

namespace Sys2Proof.Machine
open Sys2Proof.Config

/-- An accepted request: its effect, OK, and its body. -/
def Answer.ok (s : State) (body : List Byte) : Answer := { state := s, result := .ok, body := body }

/-- An accepted request with another result than OK. -/
def Answer.with (s : State) (res : Result) (body : List Byte) : Answer := { state := s, result := res, body := body }

/-- A request code that is in no row of the table (R171): FORMAT under the received code, or, from 128 up, no request
at all (R168). -/
def reqUnknownRequestCode (r : Req) (code : Nat) (s : State) : State :=
  if 128 ≤ code then s else s.takeRequest (α := Unit) r code none fun _ s => .ok s []

/-- UNKNOWN_REQUEST_CODE (R171). -/
def execUnknownRequestCode (r : Req) (code : Nat) (s : State) : Host.Outcome State Fault Refusal :=
  .next (reqUnknownRequestCode r code (s.advance r.m))

/-- The effect of IDENTIFY: the identity reported and the start cause consumed (R177, R178). -/
def actIdentify (s : State) : Answer := .ok { s with startCause := .none } s.identity

/-- IDENTIFY taken. -/
def reqIdentify (r : Req) (body : Body Unit) (s : State) : State :=
  s.takeRequest r 1 body fun _ s => actIdentify s

/-- IDENTIFY (R177, R178). -/
def execIdentify (r : Req) (body : Body Unit) (s : State) : Host.Outcome State Fault Refusal :=
  .next (reqIdentify r body (s.advance r.m))

/-- restart-close set on every ARMED, LIVE and OVERRUN record (R4, R23). -/
def State.markRestart (s : State) : State :=
  { s with
    restart := true
    bookings := s.bookings.map fun o => o.map fun r => if r.carrying then { r with restartClose := true } else r }

/-- The effect of RESTART (R23, R109). -/
def actRestart (m : Moment) (s : State) : Answer := checked (checkRestart s) s (.ok (s.markRestart.abortAll m) [])

/-- RESTART taken. -/
def reqRestart (r : Req) (body : Body Unit) (s : State) : State :=
  s.takeRequest r 2 body fun _ s => actRestart r.m s

/-- RESTART (R23). -/
def execRestart (r : Req) (body : Body Unit) (s : State) : Host.Outcome State Fault Refusal :=
  .next (reqRestart r body (s.advance r.m))

/-- The effect of NOTICE SET (R176). -/
def actNoticeSet (port : Nat) (s : State) : Answer :=
  checked (checkNoticeSet port s) s (.ok { s with noticePort := portIx port } [])

/-- NOTICE SET taken. -/
def reqNoticeSet (r : Req) (body : Body Nat) (s : State) : State := s.takeRequest r 3 body actNoticeSet

/-- NOTICE SET (R176). -/
def execNoticeSet (r : Req) (body : Body Nat) (s : State) : Host.Outcome State Fault Refusal :=
  .next (reqNoticeSet r body (s.advance r.m))

/-- Network time loaded, marked set, and the idle-close setting written (R8). -/
def State.loadTime (a : TimeSetArgs) (s : State) : State :=
  { s with sec := a.sec, sub := a.ms * ticksPerMilli, timeSet := true, idleClose := clamp 5 300 a.idleClose }

/-- The effect of TIME SET (R8). -/
def actTimeSet (a : TimeSetArgs) (s : State) : Answer :=
  checked (checkTimeSet a s) s (.with (s.loadTime a) (okOrClamped (outside 5 300 a.idleClose)) [])

/-- TIME SET taken. -/
def reqTimeSet (r : Req) (body : Body TimeSetArgs) (s : State) : State := s.takeRequest r 8 body actTimeSet

/-- TIME SET (R8). -/
def execTimeSet (r : Req) (body : Body TimeSetArgs) (s : State) : Host.Outcome State Fault Refusal :=
  .next (reqTimeSet r body (s.advance r.m))

/-- The effect of TIME READ (R9). -/
def actTimeRead (s : State) : Answer := .ok s s.timeReport

/-- TIME READ taken. -/
def reqTimeRead (r : Req) (body : Body Unit) (s : State) : State :=
  s.takeRequest r 9 body fun _ s => actTimeRead s

/-- TIME READ (R9). -/
def execTimeRead (r : Req) (body : Body Unit) (s : State) : Host.Outcome State Fault Refusal :=
  .next (reqTimeRead r body (s.advance r.m))

/-- What a port whose role becomes OFF gives up: its queued media and its probe (R44, R109). -/
def State.switchOff (m : Moment) (p : PortIx) (s : State) : State := (s.emptyMedia m p).endProbeOf m p .aborted

/-- An accepted PORT SET on port `p` (R43, R44). Only a role that becomes OFF empties the media queues: copies of a closed
booking that still wait when the role becomes VENUE stay queued and are sent (R44, R57), though the table of R42 has a
VENUE port send no media. DESIGN CHOICE, log entry 29. -/
def State.writePort (m : Moment) (p : PortIx) (a : PortSetArgs) (s : State) : State :=
  let t := s.setPort p (PortSetArgs.apply a (s.port p))
  if (t.port p).role = .off ∧ (s.port p).role ≠ .off then t.switchOff m p else t

/-- The effect of PORT SET (R43). -/
def actPortSet (m : Moment) (a : PortSetArgs) (s : State) : Answer :=
  checked (checkPortSet a s) s (.ok (s.writePort m (portIx a.port) a) [])

/-- PORT SET taken. -/
def reqPortSet (r : Req) (body : Body PortSetArgs) (s : State) : State :=
  s.takeRequest r 16 body (actPortSet r.m)

/-- PORT SET (R43, R44). -/
def execPortSet (r : Req) (body : Body PortSetArgs) (s : State) : Host.Outcome State Fault Refusal :=
  .next (reqPortSet r body (s.advance r.m))

/-- The effect of PORT READ (R45). -/
def actPortRead (port : Nat) (s : State) : Answer := checked (checkPort port) s (.ok s (s.portReport (portIx port)))

/-- PORT READ taken. -/
def reqPortRead (r : Req) (body : Body Nat) (s : State) : State := s.takeRequest r 17 body actPortRead

/-- PORT READ (R45). -/
def execPortRead (r : Req) (body : Body Nat) (s : State) : Host.Outcome State Fault Refusal :=
  .next (reqPortRead r body (s.advance r.m))

end Sys2Proof.Machine
end

