-- ==== Sys2Proof/Machine/Bookings.lean ====
section
/-! DEFINITION. The meanings of the booking requests (section 1.6, R83). -/

namespace Sys2Proof.Machine
open Sys2Proof.Config

/-- The effect of BOOK: the lowest FREE record becomes PENDING and its admission is handed over (R10, R26). -/
def actBook (a : BookArgs) (s : State) : Answer :=
  checked (checkBook a s) s
    (let b := s.firstFree.getD 0
     .with ((s.setBooking b (some (BookArgs.toBooking a))).handEntry { kind := .book, booking := b, void := false })
       .accepted (enc8 b.val))

/-- BOOK taken. -/
def reqBook (r : Req) (body : Body BookArgs) (s : State) : State := s.takeRequest r 24 body actBook

/-- BOOK (R10). -/
def execBook (r : Req) (body : Body BookArgs) (s : State) : Host.Outcome State Fault Refusal :=
  .next (reqBook r body (s.advance r.m))

/-- close-requested set with a reason; a reason already held stands (R4). -/
def Booking.requestClose (r : Booking) (reason : CutReason) : Booking :=
  { r with closeReq := match r.closeReq with
                       | some held => some held
                       | none => some reason }

/-- The late-cancel fee applies: start − now, signed, is less than the tariff's window × 60 (R19). -/
def Booking.lateFee (r : Booking) (t : Tariff) (now : Nat) : Bool := decide (r.start < now + t.lateWindow * 60)

/-- The record at a LATE_CANCEL closing (R19). -/
def Booking.atLateCancel (r : Booking) (now : Nat) : Booking :=
  { r with state := .closing, cut := some .lateCancel, closeSecond := some now }

/-- The effect of CANCEL on a record that accepts it (R19); the indication is present for CONFIRMED alone, FREED 0 or
LATE_CANCEL 1 (R170). -/
def State.cancelBooking (b : BookingIx) (r : Booking) (s : State) : Answer :=
  match r.state with
  | .pending => .ok (s.setBooking b (some { r with cancelReq := true })) (encOpt 1 enc8 none)
  | .confirmed =>
    if r.lateFee (s.tariff r.tariff) s.sec then
      .ok ((s.setBooking b (some (r.atLateCancel s.sec))).settleBooking b) (encOpt 1 enc8 (some 1))
    else .ok (s.freeBooking b) (encOpt 1 enc8 (some 0))
  | .armed => .ok (s.setBooking b (some (r.requestClose .cancelledArmed))) (encOpt 1 enc8 none)
  | .live => .ok (s.setBooking b (some (r.requestClose .closedEarly))) (encOpt 1 enc8 none)
  | .overrun | .closing | .closed | .refused | .cancelled | .expired => .refuse s .state

/-- The effect of CANCEL (R19). -/
def actCancel (index : Nat) (s : State) : Answer :=
  checked (checkBookingState index Booking.cancellable s) s
    (match s.booking (bookingIx index) with
     | some r => s.cancelBooking (bookingIx index) r
     | none => .refuse s .state)

/-- CANCEL taken. -/
def reqCancel (r : Req) (body : Body Nat) (s : State) : State := s.takeRequest r 25 body actCancel

/-- CANCEL (R19). -/
def execCancel (r : Req) (body : Body Nat) (s : State) : Host.Outcome State Fault Refusal :=
  .next (reqCancel r body (s.advance r.m))

/-- The reason CLOSE gives in a state (R20). -/
def BookingState.closeReason : BookingState → CutReason
  | .armed => .cancelledArmed
  | .live => .closedEarly
  | .overrun | .pending | .confirmed | .closing | .closed | .refused | .cancelled | .expired => .closed

/-- The effect of CLOSE (R20). -/
def actClose (index : Nat) (s : State) : Answer :=
  checked (checkBookingState index Booking.carrying s) s
    (.ok (s.updBooking (bookingIx index) fun r => r.requestClose r.state.closeReason) [])

/-- CLOSE taken. -/
def reqClose (r : Req) (body : Body Nat) (s : State) : State := s.takeRequest r 26 body actClose

/-- CLOSE (R20). -/
def execClose (r : Req) (body : Body Nat) (s : State) : Host.Outcome State Fault Refusal :=
  .next (reqClose r body (s.advance r.m))

/-- The effect of EXTEND on a record that accepts it: extend-pending set and an admission with the new total handed
over (R21). -/
def State.extendBooking (b : BookingIx) (r : Booking) (a : ExtendArgs) (s : State) : Answer :=
  let clamped := decide (maxAllowance < ExtendArgs.total a r)
  .with
    ((s.setBooking b (some { r with extendPending := true })).handEntry
      { kind := .extend (min maxAllowance (ExtendArgs.total a r)) clamped, booking := b, void := false })
    (if clamped then .clamped else .accepted) []

/-- The effect of EXTEND (R21). -/
def actExtend (a : ExtendArgs) (s : State) : Answer :=
  checked (checkExtend a s) s
    (match s.booking (bookingIx a.index) with
     | some r => s.extendBooking (bookingIx a.index) r a
     | none => .refuse s .state)

/-- EXTEND taken. -/
def reqExtend (r : Req) (body : Body ExtendArgs) (s : State) : State := s.takeRequest r 27 body actExtend

/-- EXTEND (R21). -/
def execExtend (r : Req) (body : Body ExtendArgs) (s : State) : Host.Outcome State Fault Refusal :=
  .next (reqExtend r body (s.advance r.m))

/-- A MODE accepted for record `b`: the mode and the exclusions written together, then the legs judged once (R83). -/
def State.changeMode (m : Moment) (b : BookingIx) (r : Booking) (mode : ProtectionMode) (s : State) : State :=
  (s.setBooking b (some (r.applyMode mode))).judge m b (r.modeChanges mode)

/-- The effect of MODE (R83). -/
def actMode (m : Moment) (a : ModeArgs) (s : State) : Answer :=
  checked (checkMode a s) s
    (match s.booking (bookingIx a.index) with
     | some r => .ok (s.changeMode m (bookingIx a.index) r ((ProtectionMode.ofCode a.mode).getD .merge)) []
     | none => .refuse s .state)

/-- MODE taken. -/
def reqMode (r : Req) (body : Body ModeArgs) (s : State) : State := s.takeRequest r 28 body (actMode r.m)

/-- MODE (R83). -/
def execMode (r : Req) (body : Body ModeArgs) (s : State) : Host.Outcome State Fault Refusal :=
  .next (reqMode r body (s.advance r.m))

/-- The record's outcome is held for one BOOKING READ (R22). -/
def Booking.readFrees (r : Booking) : Bool :=
  decide (r.state = .refused ∨ r.state = .cancelled ∨ r.state = .expired)

/-- The effect of BOOKING READ: the record reported, and freed when it held an outcome (R22). -/
def actBookingRead (index : Nat) (s : State) : Answer :=
  checked (checkBookingIndex index) s
    (.ok
      (if (s.booking (bookingIx index)).any Booking.readFrees then s.freeBooking (bookingIx index) else s)
      (bookingReport (s.booking (bookingIx index))))

/-- BOOKING READ taken. -/
def reqBookingRead (r : Req) (body : Body Nat) (s : State) : State := s.takeRequest r 29 body actBookingRead

/-- BOOKING READ (R22). -/
def execBookingRead (r : Req) (body : Body Nat) (s : State) : Host.Outcome State Fault Refusal :=
  .next (reqBookingRead r body (s.advance r.m))

end Sys2Proof.Machine
end

