-- ==== Sys2Proof/Machine/Flow.lean ====
section
/-! DEFINITION. The flow table and the policers (sections 4.1 to 4.3), and the way of a MEDIA or IDENT frame from its
lookup to the offer of its last copy (R63 to R72, R89 to R91). -/

namespace Sys2Proof.Machine
open Sys2Proof.Config

/-! ## Entries (R59 to R61) -/

/-- The entry with the key (port, label). -/
def State.flowOf (s : State) (p : PortIx) (label : Nat) : Option FlowEntry :=
  s.flows.find? fun e => decide (e.port = p ∧ e.label = label)

/-- The depth of a policer (R65). -/
def policerDepth (rate : Nat) : Nat := rate * 100000

/-- A new entry for a leg, its policer full, at the instant `now` (R60, R65). -/
def FlowEntry.install (b : BookingIx) (l : LegId) (lg : Leg) (rate now : Nat) : FlowEntry :=
  { port := lg.port, label := lg.label, booking := b, leg := l, rate := rate, tokens := policerDepth rate,
    lastRefill := now / ticksPerMicro }

/-- One leg of booking `b` installed, or deferred while its key is held (R60). -/
def State.installLeg (b : BookingIx) (l : LegId) (s : State) : State :=
  match s.booking b with
  | none => s
  | some r =>
    match r.leg l with
    | none => s
    | some lg =>
      if (s.flowOf lg.port lg.label).isSome then { s with deferred := s.deferred ++ [(b, l)] }
      else { s with flows := s.flows ++ [.install b l lg r.rate s.clock] }

/-- The legs of an arming booking installed (R60). -/
def State.installLegs (b : BookingIx) (s : State) : State := (s.installLeg b .main).installLeg b .backup

/-- Every deferred leg whose key has come free is installed; the others stay deferred (R60, R61). -/
def State.installDeferred (s : State) : State :=
  s.deferred.foldl (fun s x => s.installLeg x.1 x.2) { s with deferred := [] }

/-- Everything of booking `b` leaves the table and the deferred list, and what waited for its keys is installed
(R60, R61). -/
def State.removeFlows (b : BookingIx) (s : State) : State :=
  { s with
    flows := s.flows.filter fun e => decide (e.booking ≠ b)
    deferred := s.deferred.filter fun x => decide (x.1 ≠ b) }.installDeferred

/-! ## The policer (R65 to R67) -/

/-- The refill at the instant `now`: the whole microseconds since the last refill, at `R × 10` bits each, up to the
depth (R66). -/
def FlowEntry.refill (e : FlowEntry) (now : Nat) : FlowEntry :=
  let elapsed := now / ticksPerMicro - e.lastRefill
  { e with
    tokens := min (policerDepth e.rate) (e.tokens + e.rate * 10 * elapsed)
    lastRefill := e.lastRefill + elapsed }

/-- The test of a frame of `bits` payload bits against a refilled policer: passed with the tokens taken, or dropped
with the count kept (R66). -/
def FlowEntry.police (e : FlowEntry) (bits : Nat) : Bool × FlowEntry :=
  if bits ≤ e.tokens then (true, { e with tokens := e.tokens - bits }) else (false, e)

/-- The entry of the same key replaced. -/
def State.setFlow (e : FlowEntry) (s : State) : State :=
  { s with flows := s.flows.map fun x => if x.port = e.port ∧ x.label = e.label then e else x }

/-- An event of a frame as received on port `p` (R76, R95). -/
def frameEvent (kind : WatchKind) (p : PortIx) (of_ : Option (BookingIx × LegId)) (bits : Option FrameBits)
    (weight : Nat) : WatchEvent :=
  { kind := kind, port := some p, booking := of_.map (·.1), leg := of_.map (·.2), bits := bits, weight := weight }

/-- A frame dropped by the policer of leg `l` of booking `b` (R67). -/
def State.policerDrop (m : Moment) (p : PortIx) (b : BookingIx) (l : LegId) (bits : Option FrameBits) (s : State) :
    State :=
  let s := s.updBooking b fun r =>
    { r with merge := r.merge.map fun x => x.updCounts l fun k => { k with policerDrops := wrapAdd k.policerDrops 1 } }
  let s := s.raise .excess (.ofLeg p b l) none
  s.watch m (frameEvent .policerDrops p (some (b, l)) bits 1)

/-! ## From the policer to the copies (R68 to R72, R89 to R91) -/

/-- A frame forwarded with a gap (R90): the merge state written, the gap handed on (R95), an END flag acted on (R91),
and the copies offered (R70). -/
def State.forwardFrame (m : Moment) (p : PortIx) (b : BookingIx) (l : LegId) (r : Booking) (x : MergeState) (gap : Nat)
    (f : Frame) (bits : Option FrameBits) (s : State) : State :=
  let r := { r with merge := some x }
  let r := if f.endFlag then r.onForwardedEnd else r
  let s := s.setBooking b (some r)
  let s := if gap = 0 then s else s.watch m (frameEvent .mergeGaps p (some (b, l)) bits gap)
  s.fanOut m b r l f

/-- A passing MEDIA frame at the merge unit: the leg is updated first, then the verdict is given and acted on
(R79, R89). -/
def State.mergeFrame (m : Moment) (p : PortIx) (b : BookingIx) (l : LegId) (f : Frame) (bits : Option FrameBits)
    (s : State) : State :=
  let s := s.legReceives m b l
  match s.booking b with
  | none => s
  | some r =>
    match r.verdict l f.seq with
    | none => s
    | some (.redundant, x) =>
      (s.setBooking b (some { r with merge := some x })).watch m (frameEvent .redundant p (some (b, l)) bits 1)
    | some (.forward gap, x) => s.forwardFrame m p b l r x gap f bits

/-- A MEDIA frame at the flow table (R63, R66, R67). -/
def State.mediaFrame (m : Moment) (p : PortIx) (f : Frame) (bits : Option FrameBits) (s : State) : State :=
  match s.flowOf p f.label with
  | none => s.watch m (frameEvent .rxUnbooked p none bits 1)
  | some e =>
    let x := (e.refill s.clock).police (f.payload.length * 8)
    let s := s.setFlow x.2
    if x.1 then s.mergeFrame m p e.booking e.leg f bits else s.policerDrop m p e.booking e.leg bits

/-- An IDENT frame at the flow table (R63, R64). -/
def State.identAtFlow (m : Moment) (p : PortIx) (f : Frame) (bits : Option FrameBits) (s : State) : State :=
  match s.flowOf p f.label with
  | none => s.watch m (frameEvent .rxUnbooked p none bits 1)
  | some e => s.identFrame m e.booking e.leg f.payload

end Sys2Proof.Machine
end

