-- ==== Sys2Proof/Machine/Scheduler.lean ====
section
/-! DEFINITION. The second boundary (sections 1.2, 1.4, 1.5 and 1.7): network time's step, the ports' seconds, the
scheduler's transitions, the completion of a restart; the timers of the merge unit; power-on. Meanings of POWER_ON,
SECOND_BOUNDARY, SILENCE_TIMER_EXPIRY and IDENT_TIMEOUT_EXPIRY. -/

namespace Sys2Proof.Machine
open Sys2Proof.Config

/-! ## The step of network time and the ports' second (R7, R51 to R53) -/

/-- The millisecond count returns to 0 and the second count steps, at the instant the second is over (R7). -/
def State.stepSecond (s : State) : State :=
  { s.elapse (ticksPerSecond - s.sub) with sec := (s.sec + 1) % wrap32, sub := 0 }

/-- A port at the boundary: the up-whole indication handed on, LOF left after a second without bad check, the count
back at 0, and the new second's indication begun (R51 to R53). -/
def Port.boundary (x : Port) : Port :=
  let link := if x.link = .lof ∧ x.badChecks = 0 then .up else x.link
  { x with link := link, badChecks := 0, upLast := x.upWhole, upWhole := decide (link = .up) }

/-- Every port at the boundary. -/
def State.portsBoundary (s : State) : State := { s with ports := s.ports.map Port.boundary }

/-! ## The scheduler's transitions (R12 to R17) -/

/-- CONFIRMED to EXPIRED, with MISSED raised (R12). -/
def State.expire (b : BookingIx) (r : Booking) (s : State) : State :=
  (s.setBooking b (some { r with state := .expired, closeSecond := some s.sec })).raise .missed (.ofBooking b) none

/-- CONFIRMED to ARMED: legs WAITING, ident timeouts started, flow entries installed (R12, R60, R78). -/
def State.armBooking (b : BookingIx) (r : Booking) (s : State) : State :=
  (s.setBooking b (some { r.armLegs s.clock s.identTimeout with state := .armed })).installLegs b

/-- Egress-drop counts and residency at LIVE entry (R73, R128). -/
def DestAccount.initial : DestAccount := { secondDrops := 0, totalDrops := 0, residency := .zero }

/-- The outage state at LIVE entry: out of outage (R13, R114, R125). -/
def OutageState.initial : OutageState := { flag := false, touched := false, run := 0, records := [] }

/-- The merge state at LIVE entry (R88). -/
def MergeState.atLive (x : MergeState) : MergeState := { x with lastFwd := none, resync := true, loss := 0 }

/-- The record at LIVE entry in the second `now` (R13). -/
def Booking.atLive (r : Booking) (now : Nat) : Booking :=
  { r with
    state := .live, liveFrom := some now
    merge := r.merge.map MergeState.atLive
    outage := some .initial
    dests := r.dests.map fun d => { d with account := some .initial } }

/-- ARMED to LIVE, and the legs judged after the entry (R13, R93). -/
def State.goLive (m : Moment) (b : BookingIx) (r : Booking) (s : State) : State :=
  (s.setBooking b (some (r.atLive s.sec))).judge m b []

/-- LIVE to OVERRUN, with OVERRUN_ENTERED raised (R14). -/
def State.enterOverrun (b : BookingIx) (r : Booking) (s : State) : State :=
  (s.setBooking b (some { r with state := .overrun, overrunFrom := some s.sec })).raise .overrunEntered
    (.ofBooking b) none

/-- The record at its entry to CLOSING in the second `now` (R4, R16, R17, R120). -/
def Booking.atClosing (r : Booking) (cut : CutReason) (now : Nat) : Booking :=
  { r.idleLegs with
    state := .closing
    outage := r.outage.map (·.freeze now)
    closeReq := none, restartClose := false
    liveTo := if r.forwarding then some now else r.liveTo
    closeSecond := some now, cut := some cut }

/-- Entry to CLOSING from ARMED, LIVE or OVERRUN (R17), and the bill when the booking is settled by it (R129). -/
def State.closeRecord (b : BookingIx) (r : Booking) (cut : CutReason) (s : State) : State :=
  (((s.removeFlows b).setBooking b (some (r.atClosing cut s.sec))).settleBooking b)

/-- What the scheduler does with a record at a boundary. -/
inductive Transition where
  | stay
  | expire
  | arm
  | goLive
  | overrun
  | close (cut : CutReason)
  deriving DecidableEq, Repr

/-- R12: a CONFIRMED record in the second `now`. -/
def Booking.confirmedStep (r : Booking) (now : Nat) (restart : Bool) : Transition :=
  if restart then .stay
  else if r.finish ≤ now then .expire
  else if r.windowStart ≤ now then .arm
  else .stay

/-- R13, R16: an ARMED record. -/
def Booking.armedStep (r : Booking) (now : Nat) : Transition :=
  if r.restartClose then .close .restart
  else if r.closeReq.isSome then .close .cancelledArmed
  else if r.start ≤ now then .goLive
  else .stay

/-- R14, R16: a LIVE record. -/
def Booking.liveStep (r : Booking) (now : Nat) : Transition :=
  if r.restartClose then .close .restart
  else if now < r.finish then (if r.closeReq.isSome then .close .closedEarly else .stay)
  else if r.closeReq.isSome ∨ r.finish + r.allowance ≤ now then .close .endReached
  else .overrun

/-- R15, R16: an OVERRUN record, its outage run counted through the second just ended (R125). -/
def Booking.overrunStep (r : Booking) (now idleClose : Nat) : Transition :=
  if r.restartClose then .close .restart
  else if r.finish + r.allowance ≤ now then .close .allowanceEnd
  else
    match r.closeReq with
    | some reason => .close reason
    | none => if r.outage.any (fun o => decide (idleClose ≤ o.run)) then .close .sourceIdle else .stay

/-- The one transition a record takes at a boundary, by the state it held before it (R12 to R16). -/
def Booking.transition (r : Booking) (now idleClose : Nat) (restart : Bool) : Transition :=
  match r.state with
  | .confirmed => r.confirmedStep now restart
  | .armed => r.armedStep now
  | .live => r.liveStep now
  | .overrun => r.overrunStep now idleClose
  | .pending | .closing | .closed | .refused | .cancelled | .expired => .stay

/-- A transition taken by record `b`; ALLOWANCE_END raises OVERRUN_EXHAUSTED (R15). -/
def State.applyTransition (m : Moment) (b : BookingIx) (r : Booking) (x : Transition) (s : State) : State :=
  match x with
  | .stay => s
  | .expire => s.expire b r
  | .arm => s.armBooking b r
  | .goLive => s.goLive m b r
  | .overrun => s.enterOverrun b r
  | .close cut =>
    let s := if cut = .allowanceEnd then s.raise .overrunExhausted (.ofBooking b) none else s
    s.closeRecord b r cut

/-- Record `b` at a boundary. -/
def State.scheduleOne (m : Moment) (b : BookingIx) (s : State) : State :=
  match s.booking b with
  | none => s
  | some r => s.applyTransition m b r (r.transition s.sec s.idleClose s.restart)

/-- The scheduler at a boundary: each record once, in the moment's order (section 1.4). -/
def State.schedule (m : Moment) (s : State) : State := (bookingOrder m).foldl (fun s b => s.scheduleOne m b) s

/-! ## The completion of a restart (R24, R40, R130, R143) -/

/-- What a record is after a restart completes: kept when CLOSED, with a discarded EXTEND resolved STATE (R40). -/
def Booking.afterRestart (r : Booking) : Option Booking :=
  if r.state = .closed then
    some (if r.extendPending then { r with extendPending := false, lastExtend := some .state } else r)
  else none

/-- The booking holds a restart open: it is ARMED, LIVE, OVERRUN or CLOSING (R24). -/
def Booking.holdsRestart (r : Booking) : Bool := r.carrying || decide (r.state = .closing)

/-- The completion of a restart (R24). -/
def State.finishRestart (s : State) : State :=
  { s with
    bookings := s.bookings.map fun o => o.bind Booking.afterRestart
    scan := none, waiting := []
    flows := [], deferred := []
    counters := Vector.replicate 8 .initial, frozen := false
    flags := Vector.replicate 14 false, capture := none
    restart := false, startCause := .restart }

/-- A restart in progress completes when no booking holds it open (R24); what the boundary raised before it has reached
the fault unit by then, whose flags and capture it clears. -/
def State.tryFinishRestart (m : Moment) (s : State) : State :=
  if s.restart && !s.anyBooking Booking.holdsRestart then (s.flush m).finishRestart else s

/-! ## The boundary -/

/-- The bookings whose second `t` is an outage second, read before the boundary takes it (R124, R136). -/
def State.outagesOf (m : Moment) (t : Nat) (s : State) : List BookingIx :=
  (bookingOrder m).filter fun b => (s.booking b).any fun r => r.outageSecond t

/-- The bookings that lived the second `t` (R126, R136). -/
def State.livedOf (m : Moment) (t : Nat) (s : State) : List (BookingIx × Booking) :=
  (bookingOrder m).filterMap fun b => (s.booking b).bind fun r => if r.lived t then some (b, r) else none

/-- A second boundary (R7): time steps, the ports take their second, the tracker classifies the second just ended, the
scheduler acts, a restart completes, and the watch counters evaluate, before the scheduler or after it (R136). R136 lets a
counter's evaluation come before the classification too; here it never does, so an outage that an EXCLUDE_LEG of a counter
begins at the boundary touches the new second alone (R124). DESIGN CHOICE, log entry 14. -/
def State.boundary (m : Moment) (s : State) : State :=
  let ended := s.sec
  let s := s.stepSecond.portsBoundary
  let outages := s.outagesOf m ended
  let lived := s.livedOf m ended
  let s := s.classify ended
  let s := if m.watchFirst then s.watchBoundary m outages lived else s
  let s := (s.schedule m).tryFinishRestart m
  if m.watchFirst then s else s.watchBoundary m outages lived

/-! ## Meanings -/

/-- POWER_ON (R179): the straps read, every block in its power-on state. -/
def execPowerOn (straps : Straps) (s : State) : Host.Outcome State Fault Refusal :=
  .next (State.powerOn straps s.pending)

/-- SECOND_BOUNDARY (R7). -/
def execSecondBoundary (m : Moment) (s : State) : Host.Outcome State Fault Refusal :=
  .next (((s.advance m).boundary m).flush m)

/-- Leg `l` of booking `b`, when the record and the leg exist. -/
def State.legOf (s : State) (b : BookingIx) (l : LegId) : Option Leg := (s.booking b).bind fun r => r.leg l

/-- SILENCE_TIMER_EXPIRY (R80): at the timer's instant, the RECEIVING leg becomes SILENT. A timer that does not run
does not expire (log entry 17). -/
def execSilenceTimerExpiry (m : Moment) (b : BookingIx) (l : LegId) (s : State) : Host.Outcome State Fault Refusal :=
  let s := s.advance m
  match (s.legOf b l).bind (·.silenceAt) with
  | some t => .next (((s.elapseTo t).legSilent m b l).flush m)
  | none => .next s

/-- IDENT_TIMEOUT_EXPIRY (R87): at the timeout's instant, of an AWAITING leg. A timeout that does not run does not
expire (log entry 17). -/
def execIdentTimeoutExpiry (m : Moment) (b : BookingIx) (l : LegId) (s : State) : Host.Outcome State Fault Refusal :=
  let s := s.advance m
  match (s.legOf b l).bind (·.identAt) with
  | some t => .next (((s.elapseTo t).identExpire m b l).flush m)
  | none => .next s

end Sys2Proof.Machine
end

