-- ==== Sys2Proof/Machine/Tables.lean ====
section
/-! DEFINITION. The meanings of the pattern, tariff, reflectometer, watch counter, fault and billing requests (R84,
R152, R153, R98, R112, R113, R140 to R142, R148 to R150, R164, R165). -/

namespace Sys2Proof.Machine
open Sys2Proof.Config

/-! ## Patterns -/

/-- An accepted PATTERN SET: the pattern, when one is named, and both settings (R84). -/
def State.writePattern (a : PatternSetArgs) (s : State) : State :=
  { s with
    patterns := match a.target with
                | some w => s.patterns.set (patternIx w.index) (some (PatternWrite.toPattern w))
                | none => s.patterns
    silenceMs := clamp 50 1000 a.silenceMs, identTimeout := a.identTimeout }

/-- The effect of PATTERN SET (R84). -/
def actPatternSet (a : PatternSetArgs) (s : State) : Answer :=
  checked (checkPatternSet a s) s (.with (s.writePattern a) (okOrClamped (outside 50 1000 a.silenceMs)) [])

/-- PATTERN SET taken. -/
def reqPatternSet (r : Req) (body : Body PatternSetArgs) (s : State) : State := s.takeRequest r 32 body actPatternSet

/-- PATTERN SET (R84). -/
def execPatternSet (r : Req) (body : Body PatternSetArgs) (s : State) : Host.Outcome State Fault Refusal :=
  .next (reqPatternSet r body (s.advance r.m))

/-- The effect of PATTERN READ (R84). -/
def actPatternRead (index : Nat) (s : State) : Answer :=
  checked (checkPattern index) s (.ok s (s.patternReport (patternIx index)))

/-- PATTERN READ taken. -/
def reqPatternRead (r : Req) (body : Body Nat) (s : State) : State := s.takeRequest r 33 body actPatternRead

/-- PATTERN READ (R84). -/
def execPatternRead (r : Req) (body : Body Nat) (s : State) : Host.Outcome State Fault Refusal :=
  .next (reqPatternRead r body (s.advance r.m))

/-! ## Tariffs -/

/-- The effect of TARIFF SET (R152). -/
def actTariffSet (a : TariffSetArgs) (s : State) : Answer :=
  checked (checkTariffSet a s) s
    (.ok { s with tariffs := s.tariffs.set (tariffIx a.index) (some (TariffSetArgs.toTariff a)) } [])

/-- TARIFF SET taken. -/
def reqTariffSet (r : Req) (body : Body TariffSetArgs) (s : State) : State := s.takeRequest r 40 body actTariffSet

/-- TARIFF SET (R152). -/
def execTariffSet (r : Req) (body : Body TariffSetArgs) (s : State) : Host.Outcome State Fault Refusal :=
  .next (reqTariffSet r body (s.advance r.m))

/-- The effect of TARIFF READ (R153). -/
def actTariffRead (index : Nat) (s : State) : Answer :=
  checked (checkTariff index) s (.ok s (s.tariffReport (tariffIx index) (s.tariffInUse (tariffIx index))))

/-- TARIFF READ taken. -/
def reqTariffRead (r : Req) (body : Body Nat) (s : State) : State := s.takeRequest r 41 body actTariffRead

/-- TARIFF READ (R153). -/
def execTariffRead (r : Req) (body : Body Nat) (s : State) : Host.Outcome State Fault Refusal :=
  .next (reqTariffRead r body (s.advance r.m))

/-! ## Reflectometer -/

/-- A PROBE accepted for port `p`: joined or created, and answered with its number and place (R97, R98). -/
def State.takeProbe (p : PortIx) (s : State) : Answer :=
  let x := s.probeRequest p
  .with x.1 .accepted (x.1.probeAnswer (x.2.getD 0) (s.probeOf p).isSome)

/-- The effect of PROBE (R98). -/
def actProbe (port : Nat) (s : State) : Answer := checked (checkProbe port s) s (s.takeProbe (portIx port))

/-- PROBE taken. -/
def reqProbe (r : Req) (body : Body Nat) (s : State) : State := s.takeRequest r 48 body actProbe

/-- PROBE (R98). -/
def execProbe (r : Req) (body : Body Nat) (s : State) : Host.Outcome State Fault Refusal :=
  .next (reqProbe r body (s.advance r.m))

/-- The effect of PROBE READ (R113). -/
def actProbeRead (port : Option Nat) (s : State) : Answer :=
  checked (checkPortOrAll port) s
    (.ok s (match port with
            | some n => s.probePortReport (portIx n)
            | none => s.probeAllReport))

/-- PROBE READ taken. -/
def reqProbeRead (r : Req) (body : Body (Option Nat)) (s : State) : State := s.takeRequest r 49 body actProbeRead

/-- PROBE READ (R113). -/
def execProbeRead (r : Req) (body : Body (Option Nat)) (s : State) : Host.Outcome State Fault Refusal :=
  .next (reqProbeRead r body (s.advance r.m))

/-- The effect of PROBE CONFIG (R112). -/
def actProbeConfig (a : ProbeConfigArgs) (s : State) : Answer :=
  checked (checkProbeConfig a s) s
    (.with { s with probeConfig := ProbeConfigArgs.toConfig a } (okOrClamped (ProbeConfigArgs.clamps a)) [])

/-- PROBE CONFIG taken. -/
def reqProbeConfig (r : Req) (body : Body ProbeConfigArgs) (s : State) : State :=
  s.takeRequest r 50 body actProbeConfig

/-- PROBE CONFIG (R112). -/
def execProbeConfig (r : Req) (body : Body ProbeConfigArgs) (s : State) : Host.Outcome State Fault Refusal :=
  .next (reqProbeConfig r body (s.advance r.m))

/-! ## Watch counters -/

/-- The effect of WATCH SET (R140). -/
def actWatchSet (a : WatchSetArgs) (s : State) : Answer :=
  checked (checkWatchSet a s) s (.ok (s.setCounter (counterIx a.counter) (WatchSetArgs.toCounter a)) [])

/-- WATCH SET taken. -/
def reqWatchSet (r : Req) (body : Body WatchSetArgs) (s : State) : State := s.takeRequest r 56 body actWatchSet

/-- WATCH SET (R140). -/
def execWatchSet (r : Req) (body : Body WatchSetArgs) (s : State) : Host.Outcome State Fault Refusal :=
  .next (reqWatchSet r body (s.advance r.m))

/-- The effect of WATCH READ (R141). -/
def actWatchRead (counter : Option Nat) (s : State) : Answer :=
  checked (checkCounterOrAll counter) s
    (.ok s (s.watchReport (match counter with
                           | some n => [counterIx n]
                           | none => List.finRange 8)))

/-- WATCH READ taken. -/
def reqWatchRead (r : Req) (body : Body (Option Nat)) (s : State) : State := s.takeRequest r 57 body actWatchRead

/-- WATCH READ (R141). -/
def execWatchRead (r : Req) (body : Body (Option Nat)) (s : State) : Host.Outcome State Fault Refusal :=
  .next (reqWatchRead r body (s.advance r.m))

/-- A counter at a WATCH UNFREEZE: its overflow flag clear, and starting set on a member of a frozen group
(R138, R142). -/
def Counter.unfreeze (c : Counter) (frozen : Bool) : Counter :=
  { c with overflow := false, starting := c.starting || (frozen && c.member) }

/-- The group unfrozen (R138, R142). -/
def State.unfreeze (s : State) : State :=
  { s with frozen := false, counters := s.counters.map fun c => c.unfreeze s.frozen }

/-- The effect of WATCH UNFREEZE (R142). -/
def actWatchUnfreeze (s : State) : Answer := checked (checkRunning s) s (.ok s.unfreeze [])

/-- WATCH UNFREEZE taken. -/
def reqWatchUnfreeze (r : Req) (body : Body Unit) (s : State) : State :=
  s.takeRequest r 58 body fun _ s => actWatchUnfreeze s

/-- WATCH UNFREEZE (R142). -/
def execWatchUnfreeze (r : Req) (body : Body Unit) (s : State) : Host.Outcome State Fault Refusal :=
  .next (reqWatchUnfreeze r body (s.advance r.m))

/-! ## Faults -/

/-- The effect of FAULT READ: the report, then the capture re-armed (R148). -/
def actFaultRead (s : State) : Answer := .ok { s with capture := none } s.faultReport

/-- FAULT READ taken. -/
def reqFaultRead (r : Req) (body : Body Unit) (s : State) : State :=
  s.takeRequest r 64 body fun _ s => actFaultRead s

/-- FAULT READ (R148). -/
def execFaultRead (r : Req) (body : Body Unit) (s : State) : Host.Outcome State Fault Refusal :=
  .next (reqFaultRead r body (s.advance r.m))

/-- The flags of the classes named, by number, cleared (R149). -/
def clearFlags (flags : Vector Bool 14) (classes : List Nat) : Vector Bool 14 :=
  classes.foldl (fun fl n => fl.set (Fin.ofNat 14 (n - 1)) false) flags

/-- The effect of FAULT CLEAR (R149). -/
def actFaultClear (classes : List Nat) (s : State) : Answer :=
  checked (checkFaultClear classes s) s (.ok { s with flags := clearFlags s.flags classes } [])

/-- FAULT CLEAR taken. -/
def reqFaultClear (r : Req) (body : Body (List Nat)) (s : State) : State := s.takeRequest r 65 body actFaultClear

/-- FAULT CLEAR (R149). -/
def execFaultClear (r : Req) (body : Body (List Nat)) (s : State) : Host.Outcome State Fault Refusal :=
  .next (reqFaultClear r body (s.advance r.m))

/-- The effect of FAULT MASK (R150). -/
def actFaultMask (masks : Vector Bool 14) (s : State) : Answer :=
  checked (checkRunning s) s (.ok { s with masks := masks } [])

/-- FAULT MASK taken. -/
def reqFaultMask (r : Req) (body : Body (Vector Bool 14)) (s : State) : State := s.takeRequest r 66 body actFaultMask

/-- FAULT MASK (R150). -/
def execFaultMask (r : Req) (body : Body (Vector Bool 14)) (s : State) : Host.Outcome State Fault Refusal :=
  .next (reqFaultMask r body (s.advance r.m))

/-! ## Bills -/

/-- The effect of BILL READ (R164). -/
def actBillRead (s : State) : Answer := .with s (if s.bills.isEmpty then .empty else .ok) s.billReport

/-- BILL READ taken. -/
def reqBillRead (r : Req) (body : Body Unit) (s : State) : State :=
  s.takeRequest r 72 body fun _ s => actBillRead s

/-- BILL READ (R164). -/
def execBillRead (r : Req) (body : Body Unit) (s : State) : Host.Outcome State Fault Refusal :=
  .next (reqBillRead r body (s.advance r.m))

/-- The head of the bill-waiting list moves into the freed slot and its booking becomes CLOSED (R155, R165). -/
def State.promoteBill (s : State) : State :=
  match s.billWaiting with
  | [] => s
  | x :: rest => { s with bills := s.bills ++ [x], billWaiting := rest }.closeBooking x.booking

/-- The head bill released: removed, its booking FREE, a waiting bill moved up (R165). -/
def State.releaseBill (b : BookingIx) (s : State) : State :=
  ({ s with bills := s.bills.tail }.freeBooking b).promoteBill

/-- The effect of BILL RELEASE (R165). -/
def actBillRelease (index : Nat) (s : State) : Answer :=
  checked (checkBillRelease index s) s (.ok (s.releaseBill (bookingIx index)) [])

/-- BILL RELEASE taken. -/
def reqBillRelease (r : Req) (body : Body Nat) (s : State) : State := s.takeRequest r 73 body actBillRelease

/-- BILL RELEASE (R165). -/
def execBillRelease (r : Req) (body : Body Nat) (s : State) : Host.Outcome State Fault Refusal :=
  .next (reqBillRelease r body (s.advance r.m))

end Sys2Proof.Machine
end

