-- ==== Sys2Proof/Machine/Receive.lean ====
section
/-! DEFINITION. The receive side of a port (sections 3.2 to 3.4) and the control channel unit's taking of a control frame
(section 11.1); the meaning of FRAME_RECEIVED. -/

namespace Sys2Proof.Machine
open Sys2Proof.Config

/-! ## Taking a control frame (R168) -/

/-- A request a control frame holds, taken at this instant. A command that is no request is never read from a frame. -/
def State.takeCommand (c : Instr) (s : State) : State :=
  match c with
  | .unknownRequestCode r code => reqUnknownRequestCode r code s
  | .identify r b => reqIdentify r b s
  | .restart r b => reqRestart r b s
  | .noticeSet r b => reqNoticeSet r b s
  | .timeSet r b => reqTimeSet r b s
  | .timeRead r b => reqTimeRead r b s
  | .portSet r b => reqPortSet r b s
  | .portRead r b => reqPortRead r b s
  | .book r b => reqBook r b s
  | .cancel r b => reqCancel r b s
  | .close r b => reqClose r b s
  | .extend r b => reqExtend r b s
  | .mode r b => reqMode r b s
  | .bookingRead r b => reqBookingRead r b s
  | .patternSet r b => reqPatternSet r b s
  | .patternRead r b => reqPatternRead r b s
  | .tariffSet r b => reqTariffSet r b s
  | .tariffRead r b => reqTariffRead r b s
  | .probe r b => reqProbe r b s
  | .probeRead r b => reqProbeRead r b s
  | .probeConfig r b => reqProbeConfig r b s
  | .watchSet r b => reqWatchSet r b s
  | .watchRead r b => reqWatchRead r b s
  | .watchUnfreeze r b => reqWatchUnfreeze r b s
  | .faultRead r b => reqFaultRead r b s
  | .faultClear r b => reqFaultClear r b s
  | .faultMask r b => reqFaultMask r b s
  | .billRead r b => reqBillRead r b s
  | .billRelease r b => reqBillRelease r b s
  | .powerOn _ | .secondBoundary _ | .lightLost _ _ | .lightReturns _ _ | .frameReceived _ _ _ | .slotStart _ _
  | .transmitterPasses _ | .silenceTimerExpiry _ _ _ | .identTimeoutExpiry _ _ _ | .phaseTimerExpiry _
  | .traceDelivered _ _ | .admissionCompletion _ => s

/-- A CONTROL frame handed to the control channel unit: discarded unanswered, or taken as a request (R168), each of
the raises of the frame's counting before it or after it, as the moment has it (R145). -/
def State.controlFrameIn (m : Moment) (p : PortIx) (payload : List Byte) (s : State) : State :=
  if (s.port p).cls = .none then s
  else
    match Wire.request p m payload with
    | none => s
    | some c => (s.takeEarly m).takeCommand c

/-! ## Bad checks (R48, R50, R51) -/

/-- A port's own part of a bad check: counted, and the good-frame run of an ACQUIRING port back at 0. -/
def Port.badCheck (x : Port) : Port :=
  { x with badChecks := x.badChecks + 1, goodRun := if x.link = .acquiring then 0 else x.goodRun }

/-- A malformed frame on a lit port (R48, R50, R51). -/
def State.malformed (m : Moment) (p : PortIx) (bytes : List Byte) (s : State) : State :=
  let s := s.setPort p (s.port p).badCheck
  let s := if (s.port p).link = .up ∧ badCheckLimit < (s.port p).badChecks then s.enterLof m p else s
  s.watch m (frameEvent .rxBadCheck p none (headerBits bytes) 1)

/-! ## Good frames (R50, R54) -/

/-- A port's own part of a good frame: in ACQUIRING the run rises, and the third in a row brings UP (R50). -/
def Port.goodFrame (x : Port) : Port :=
  if x.link = .acquiring then
    { x with goodRun := x.goodRun + 1, link := if goodRunToUp ≤ x.goodRun + 1 then .up else x.link }
  else x

/-- Where a good frame goes (R54). -/
inductive Place where
  | discard
  | flowTable
  | control
  deriving DecidableEq, Repr

/-- The place of a good frame by kind, link state at its arrival and role (R54). -/
def placeOf (kind : FrameKind) (link : Link) (role : Role) : Place :=
  match kind with
  | .control => .control
  | .fill => .discard
  | .media | .ident => if link = .up ∧ role ≠ .off then .flowTable else .discard

/-- A good frame handed to its place. -/
def State.deliverFrame (m : Moment) (p : PortIx) (f : Frame) (bits : Option FrameBits) (place : Place) (s : State) :
    State :=
  match place with
  | .discard => s
  | .control => s.controlFrameIn m p f.payload
  | .flowTable => if f.kind = .ident then s.identAtFlow m p f bits else s.mediaFrame m p f bits

/-- A good frame on a lit port: classified by the state it arrived in, counted, and handed on (R50, R54). -/
def State.goodFrame (m : Moment) (p : PortIx) (f : Frame) (bits : Option FrameBits) (s : State) : State :=
  let place := placeOf f.kind (s.port p).link (s.port p).role
  let s := s.setPort p (s.port p).goodFrame
  let s := s.watch m (frameEvent .rxFrames p none bits 1)
  s.deliverFrame m p f bits place

/-- A whole frame on the receive side of port `p`; a DOWN port receives none (R48). -/
def State.receive (m : Moment) (p : PortIx) (bytes : List Byte) (s : State) : State :=
  if (s.port p).lit then
    match readFrame bytes with
    | none => s.malformed m p bytes
    | some f => s.goodFrame m p f (headerBits bytes)
  else s

/-- FRAME_RECEIVED (R48, R50, R51, R54). -/
def execFrameReceived (m : Moment) (p : PortIx) (bytes : List Byte) (s : State) : Host.Outcome State Fault Refusal :=
  .next (((s.advance m).receive m p bytes).flush m)

end Sys2Proof.Machine
end

