-- ==== Sys2Proof/Machine/Dispatch.lean ====
section
/-! DEFINITION. One arm per command: its meaning. -/

namespace Sys2Proof.Machine

/-- What a command does to everything but the queue. -/
def exec (i : Instr) (s : State) : Host.Outcome State Fault Refusal :=
  match i with
  | .powerOn straps => Sys2Proof.Machine.execPowerOn straps s
  | .secondBoundary m => Sys2Proof.Machine.execSecondBoundary m s
  | .lightLost m p => Sys2Proof.Machine.execLightLost m p s
  | .lightReturns m p => Sys2Proof.Machine.execLightReturns m p s
  | .frameReceived m p bytes => Sys2Proof.Machine.execFrameReceived m p bytes s
  | .slotStart m p => Sys2Proof.Machine.execSlotStart m p s
  | .transmitterPasses m => Sys2Proof.Machine.execTransmitterPasses m s
  | .silenceTimerExpiry m b leg => Sys2Proof.Machine.execSilenceTimerExpiry m b leg s
  | .identTimeoutExpiry m b leg => Sys2Proof.Machine.execIdentTimeoutExpiry m b leg s
  | .phaseTimerExpiry m => Sys2Proof.Machine.execPhaseTimerExpiry m s
  | .traceDelivered m trace => Sys2Proof.Machine.execTraceDelivered m trace s
  | .admissionCompletion m => Sys2Proof.Machine.execAdmissionCompletion m s
  | .unknownRequestCode r code => Sys2Proof.Machine.execUnknownRequestCode r code s
  | .identify r body => Sys2Proof.Machine.execIdentify r body s
  | .restart r body => Sys2Proof.Machine.execRestart r body s
  | .noticeSet r body => Sys2Proof.Machine.execNoticeSet r body s
  | .timeSet r body => Sys2Proof.Machine.execTimeSet r body s
  | .timeRead r body => Sys2Proof.Machine.execTimeRead r body s
  | .portSet r body => Sys2Proof.Machine.execPortSet r body s
  | .portRead r body => Sys2Proof.Machine.execPortRead r body s
  | .book r body => Sys2Proof.Machine.execBook r body s
  | .cancel r body => Sys2Proof.Machine.execCancel r body s
  | .close r body => Sys2Proof.Machine.execClose r body s
  | .extend r body => Sys2Proof.Machine.execExtend r body s
  | .mode r body => Sys2Proof.Machine.execMode r body s
  | .bookingRead r body => Sys2Proof.Machine.execBookingRead r body s
  | .patternSet r body => Sys2Proof.Machine.execPatternSet r body s
  | .patternRead r body => Sys2Proof.Machine.execPatternRead r body s
  | .tariffSet r body => Sys2Proof.Machine.execTariffSet r body s
  | .tariffRead r body => Sys2Proof.Machine.execTariffRead r body s
  | .probe r body => Sys2Proof.Machine.execProbe r body s
  | .probeRead r body => Sys2Proof.Machine.execProbeRead r body s
  | .probeConfig r body => Sys2Proof.Machine.execProbeConfig r body s
  | .watchSet r body => Sys2Proof.Machine.execWatchSet r body s
  | .watchRead r body => Sys2Proof.Machine.execWatchRead r body s
  | .watchUnfreeze r body => Sys2Proof.Machine.execWatchUnfreeze r body s
  | .faultRead r body => Sys2Proof.Machine.execFaultRead r body s
  | .faultClear r body => Sys2Proof.Machine.execFaultClear r body s
  | .faultMask r body => Sys2Proof.Machine.execFaultMask r body s
  | .billRead r body => Sys2Proof.Machine.execBillRead r body s
  | .billRelease r body => Sys2Proof.Machine.execBillRelease r body s

end Sys2Proof.Machine
end

