-- ==== Sys2Proof/Layout.lean ====
section
/-! DEFINITION. The bodies of the answers as the manual's tables list them: every field with its width in bytes and the
number it carries, in the order of R170, the widths those of R169. An enumerated value is its position in the list where
its rule first names the values (R169). What the manual leaves to inference is marked: log entries 7, 8, 9 and 18. The
statements are put in these terms; the device itself writes its answers by Machine/Report.lean. -/

namespace Sys2Proof.Machine

/-! ## Fields (R169) -/

/-- A field: how many bytes carry it, and the number carried. -/
abbrev Field := Nat × Nat

/-- A number in so many bytes, most significant first (section 3.2). -/
def bigEndian (width v : Nat) : List Byte :=
  (List.range width).map fun i => BitVec.ofNat 8 (v / 256 ^ (width - 1 - i))

/-- The bytes of fields, one after another. -/
def bytesOf (l : List Field) : List Byte := l.flatMap fun x => bigEndian x.1 x.2

/-- Set or clear, yes or no, on or off: 1 byte. -/
def flagField (b : Bool) : Field := (1, if b then 1 else 0)

/-- An enumerated value: 1 byte, its position in the list where its rule first names the values. -/
def enumField {α : Type} [DecidableEq α] (x : α) (list : List α) : Field := (1, list.idxOf x)

/-- An optional field that `width` bytes carry: its presence byte, then the field, or zero bytes. -/
def optFields (width : Nat) : Option (List Field) → List Field
  | some l => (1, 1) :: l
  | none => [(1, 0), (width, 0)]

/-- An optional field of varying width: absent, it is its presence byte alone (log entry 8). -/
def varFields : Option (List Field) → List Field
  | some l => (1, 1) :: l
  | none => [(1, 0)]

/-- A list of varying length: a count in 1 byte, then the items. -/
def listFields (l : List (List Field)) : List Field := (1, l.length) :: l.flatten

/-! ## Ports -/

/-- The body of PORT READ: the light LIT 0, DARK 1, the widths of the counts (log entry 18), and the probe availability 1
for a fitted port (log entry 7). -/
def State.portFields (s : State) (p : PortIx) : List Field :=
  let x := s.port p
  [enumField x.role [.off, .venue, .taker, .mixed], (2, x.capacity), (2, x.reserve), (2, x.demarcation),
   enumField x.cls [.none, .observer, .operator], flagField x.autoProbe, flagField (s.straps.prbfit.getLsbD p),
   flagField (decide (x.link = .down)), enumField x.link [.down, .acquiring, .up, .lof], (4, x.badChecks),
   flagField x.upLast, (2, x.class1.length), (2, x.class2.length), (1, x.control.length),
   flagField (s.flight.any fun f => decide (f.port = p))]

/-! ## Bookings -/

/-- The cut reasons in the order of R4, which close reasons take too (log entry 9). -/
def cutReasons : List CutReason :=
  [.endReached, .allowanceEnd, .sourceIdle, .sourceEnded, .closed, .closedEarly, .cancelledArmed, .restart, .lateCancel]

/-- The fields of the BOOK body, with the protection mode present. -/
def Booking.termFields (r : Booking) : List Field :=
  [(2, r.customer), (1, r.tariff), (2, r.rate), (4, r.start), (4, r.finish), (4, r.armLead), (4, r.allowance), (1, 1),
   enumField r.mode [.merge, .mainOnly, .backupOnly]] ++
  listFields (r.legs.map fun l =>
    [(1, l.port.val), (2, l.label)] ++ optFields 1 (l.pattern.map fun i => [(1, i.val)]) ++
      [enumField l.policy [.none, .check, .require]]) ++
  listFields (r.dests.map fun d => [(1, d.port.val), (2, d.label)])

/-- An admission detail: CONFLICT 0 or CLASH 1 (log entry 18), its port, its second or label. -/
def Verdict.fields : Verdict → List Field
  | .conflict p n => [(1, 0), (1, p.val), (4, n)]
  | .clash p n => [(1, 1), (1, p.val), (4, n)]

/-- A last extend outcome: OK 0, CLAMPED 1, CONFLICT 2, CLASH 3, STATE 4, then a port and a second or label, zero for
those that have none. -/
def ExtendOutcome.fields : ExtendOutcome → List Field
  | .ok => [(1, 0), (1, 0), (4, 0)]
  | .clamped => [(1, 1), (1, 0), (4, 0)]
  | .conflict p n => [(1, 2), (1, p.val), (4, n)]
  | .clash p n => [(1, 3), (1, p.val), (4, n)]
  | .state => [(1, 4), (1, 0), (4, 0)]

/-- A leg's state, exclusion set and ident state. -/
def Leg.statusFields (l : Leg) : List Field :=
  [enumField l.state [.idle, .waiting, .receiving, .silent], flagField l.exIdent, flagField l.exWatch,
   flagField l.exManual] ++
  optFields 1 (l.ident.map fun i => [enumField i [.notChecked, .awaiting, .matched, .mismatched, .unconfirmed]])

/-- A break: its port and distance, one optional field (log entry 18). -/
def breakFields (b : Option Break) : List Field := optFields 3 (b.map fun k => [(1, k.port.val), (2, k.distance)])

/-- A cause: NETWORK 0, VENUE 1, UNKNOWN 2 or PENDING 3, the number of a PENDING one or zero, its break. -/
def Cause.fields (c : Cause) : List Field :=
  (match c.value with
   | .network => [(1, 0), (1, 0)]
   | .venue => [(1, 1), (1, 0)]
   | .unknown => [(1, 2), (1, 0)]
   | .pending n => [(1, 3), (1, n.val)]) ++ breakFields c.brk

/-- What an outage record holds for a leg. -/
def LegCause.fields (c : LegCause) : List Field :=
  optFields 6 (c.held.map Cause.fields) ++
    optFields 1 (c.situation.map fun z => [enumField z [.dark, .line, .ident, .watch, .source]]) ++
    optFields 6 (c.carried.map Cause.fields)

/-- An outage record, of a booking with a backup leg or without. -/
def OutageRecord.fields (twoLegs : Bool) (o : OutageRecord) : List Field :=
  [(4, o.start)] ++ optFields 4 (o.finish.map fun n => [(4, n)]) ++ [(4, o.seconds)] ++ o.main.fields ++
    (if twoLegs then o.backup.fields else []) ++ [enumField o.attribution [.network, .venue, .unknown, .pending]] ++
    breakFields o.brk ++ [flagField o.merged]

/-- Counts by band, band 0 first. -/
def Bands.fields (x : Bands) : List Field := [(4, x.b0), (4, x.b1), (4, x.b2), (4, x.b3)]

/-- Residency counts in the order of the table of R128. -/
def Residency.fields (x : Residency) : List Field :=
  [(4, x.deliveredLive), (4, x.undeliveredLive)] ++ x.bandLive.fields ++ [(4, x.deliveredOver), (4, x.undeliveredOver)] ++
    x.bandOver.fields

/-- The merge state, of a booking with a backup leg or without. -/
def MergeState.fields (twoLegs : Bool) (x : MergeState) : List Field :=
  optFields 2 (x.lastFwd.map fun n => [(2, n)]) ++ [flagField x.resync, (4, x.loss), (4, x.resyncCount)] ++
    [(4, x.main.redundant), (4, x.main.policerDrops)] ++
    (if twoLegs then [(4, x.backup.redundant), (4, x.backup.policerDrops)] else [])

/-- The outage state and, for each destination, its residency. -/
def OutageState.fields (twoLegs : Bool) (dests : List Dest) (o : OutageState) : List Field :=
  [flagField o.flag, flagField o.touched, (4, o.run)] ++ listFields (o.records.map (OutageRecord.fields twoLegs)) ++
    dests.flatMap fun d => d.residency.fields

/-- The body of BOOKING READ for a record that is not FREE; a FREE one's is the state 0 alone. -/
def Booking.fields (r : Booking) : List Field :=
  let second := fun (x : Option Nat) => optFields 4 (x.map fun n => [(4, n)])
  let reason := fun (x : Option CutReason) => optFields 1 (x.map fun c => [enumField c cutReasons])
  let two := r.backup.isSome
  [(1, 1 + [BookingState.pending, .confirmed, .armed, .live, .overrun, .closing, .closed, .refused, .cancelled,
      .expired].idxOf r.state)] ++ r.termFields ++
  [flagField r.closeReq.isSome] ++ reason r.closeReq ++
  [flagField r.cancelReq, flagField r.extendPending, flagField r.restartClose] ++
  second r.liveFrom ++ second r.liveTo ++ second r.overrunFrom ++ second r.closeSecond ++ reason r.cut ++
  optFields 6 (r.detail.map Verdict.fields) ++ optFields 6 (r.lastExtend.map ExtendOutcome.fields) ++
  r.legs.flatMap Leg.statusFields ++
  optFields (if two then 28 else 20) (r.merge.map (MergeState.fields two)) ++
  (r.dests.flatMap fun d => optFields 8 (d.account.map fun a => [(4, a.secondDrops), (4, a.totalDrops)])) ++
  varFields (r.outage.map (OutageState.fields two r.dests))

/-! ## Patterns and tariffs -/

/-- A pattern: its reference bytes, then its marks, eight to a byte, the first in the most significant bit. -/
def Pattern.fields (k : Pattern) : List Field :=
  (k.reference.map fun x => (1, x.toNat)) ++
    (List.range 4).map fun i => (1, ((k.mask.drop (8 * i)).take 8).foldl (fun n b => 2 * n + if b then 1 else 0) 0)

/-- The body of PATTERN READ. -/
def State.patternFields (s : State) (i : PatternIx) : List Field :=
  [flagField (s.patterns[i]).isSome, (2, s.silenceMs), (4, s.identTimeout)] ++
    optFields 36 ((s.patterns[i]).map Pattern.fields)

/-- The fields of R151. -/
def Tariff.fields (t : Tariff) : List Field :=
  [(2, t.price), (1, t.multiplier), (1, t.disc1), (1, t.disc2), (1, t.disc3), (2, t.t1), (2, t.t2), (2, t.t3),
   (1, t.creditFactor), flagField t.creditUnknown, enumField t.rounding [.nearestEven, .floor, .ceiling],
   (2, t.lateWindow), (1, t.latePercent)]

/-- The body of TARIFF READ; the last field is whether a record that is not FREE holds the index (R153). -/
def State.tariffFields (s : State) (i : TariffIx) : List Field :=
  [flagField (s.tariffs[i]).isSome] ++ optFields 18 ((s.tariffs[i]).map Tariff.fields) ++
    [flagField (decide (∃ b : BookingIx, ∃ r ∈ s.booking b, r.tariff = i))]

/-! ## Reflectometer -/

/-- A phase: PRE_SILENCE 0, SEGMENT k as k, POST_SILENCE 6. -/
def Phase.field : Phase → Field
  | .preSilence => (1, 0)
  | .segment k => (1, k)
  | .postSilence => (1, 6)

/-- The place of a waiting probe in the queue, 1 being the head. -/
def State.probePosition (s : State) (n : ProbeNo) : Option Nat :=
  if n ∈ s.probeWaiting.map (·.number) then some ((s.probeWaiting.map (·.number)).idxOf n + 1) else none

/-- The body of an accepted PROBE: the number, NEW 0 or JOINED 1, IN_FLIGHT 0 or WAITING 1 (log entry 18), the position. -/
def State.probeFields (s : State) (n : ProbeNo) (joined : Bool) : List Field :=
  [(1, n.val), flagField joined, flagField (s.probePosition n).isSome] ++
    optFields 1 ((s.probePosition n).map fun k => [(1, k)])

/-- A last result. -/
def ProbeResult.fields (x : ProbeResult) : List Field :=
  [(1, x.number.val), enumField x.outcome [.brk, .noBreak, .liveFibre, .aborted, .timeout]] ++
    listFields (x.peaks.map fun k => [(2, k.distance), (2, k.amplitude)]) ++
    optFields 2 (x.breakDistance.map fun d => [(2, d)]) ++ [(4, x.second), flagField x.timeSet]

/-- The body of PROBE READ naming a port: the last result, the probe availability (log entry 7), light and auto-probe, the
port's probe, in flight with its phase or waiting with its position. -/
def State.probePortFields (s : State) (p : PortIx) : List Field :=
  let x := s.port p
  let inFlight := (s.flight.filter fun f => decide (f.port = p)).map fun f =>
    [(1, f.number.val), (1, 0)] ++ optFields 1 (some [f.phase.field]) ++ optFields 1 none
  let waiting := (s.probeWaiting.find? fun w => decide (w.port = p)).map fun w =>
    [(1, w.number.val), (1, 1)] ++ optFields 1 none ++ optFields 1 ((s.probePosition w.number).map fun k => [(1, k)])
  varFields ((s.lastResults[p]).map ProbeResult.fields) ++
    [flagField (s.straps.prbfit.getLsbD p), flagField (decide (x.link = .down)), flagField x.autoProbe] ++
    optFields 6 (inFlight.or waiting)

/-- The body of PROBE READ naming ALL. -/
def State.probeAllFields (s : State) : List Field :=
  let c := s.probeConfig
  listFields (c.segments.map fun g => [(2, g.first), (2, g.last), (1, g.exponent), (1, g.shadow), (2, g.threshold)]) ++
    [(2, c.silence), (2, c.preMs), (2, c.breakThreshold), (2, c.q), (1, s.probeCounter.val)] ++
    optFields 3 (s.flight.map fun f => [(1, f.number.val), (1, f.port.val), f.phase.field]) ++
    listFields (s.probeWaiting.map fun w => [(1, w.number.val), (1, w.port.val)])

/-! ## Watch counters -/

/-- A scope: its kind, a port, a booking index and a leg, each zero where the kind names none. -/
def Scope.fields : Scope → List Field
  | .any => [(1, 0), (1, 0), (1, 0), (1, 0)]
  | .port p => [(1, 1), (1, p.val), (1, 0), (1, 0)]
  | .booking b => [(1, 2), (1, 0), (1, b.val), (1, 0)]
  | .leg b l => [(1, 3), (1, 0), (1, b.val), enumField l [.main, .backup]]

/-- One counter of WATCH READ: its number, its settings, its counts, and whether it is counting (R141). -/
def State.counterFields (s : State) (i : CounterIx) : List Field :=
  let c := s.counter i
  let bits := fun (x : FrameBits) => [(2, x.label.toNat), (1, x.kind.toNat), (1, x.endBit.toNat)]
  [(1, i.val), enumField c.event [.rxFrames, .rxBadCheck, .rxUnbooked, .forwarded, .policerDrops, .redundant, .mergeGaps,
      .egressDrops, .legSilentEntries, .outageSeconds, .liveBookings]] ++
    c.scope.fields ++ bits c.matchBits ++ bits c.maskBits ++
    [(4, c.threshold), flagField c.edge, flagField c.invert, flagField c.notice, flagField c.member,
     enumField c.action [.none, .excludeLeg, .probePort], (4, c.value), flagField c.overflow, (4, c.secondTotal),
     flagField c.previousMet, flagField (decide ¬ (s.frozen = true ∧ c.member = true))]

/-- The body of WATCH READ of the counters named. -/
def State.watchFields (s : State) (which : List CounterIx) : List Field :=
  flagField s.frozen :: listFields (which.map s.counterFields)

/-! ## Faults and bills -/

/-- A latched capture: the fields of R143. -/
def Capture.fields (c : Capture) : List Field :=
  [(1, c.cls.number)] ++ optFields 1 (c.items.port.map fun p => [(1, p.val)]) ++
    optFields 1 (c.items.booking.map fun b => [(1, b.val)]) ++
    optFields 1 (c.items.leg.map fun l => [enumField l [.main, .backup]]) ++
    [(4, c.second), (2, c.milli), flagField c.timeSet]

/-- The body of FAULT READ: the flags and the masks in class order, 1 for a masked class (log entry 7), the capture. -/
def State.faultFields (s : State) : List Field :=
  (s.flags.toList.map flagField) ++ (s.masks.toList.map flagField) ++ optFields 14 (s.capture.map Capture.fields)

/-- A billing record: the fields of R161. -/
def Bill.fields (x : Bill) : List Field :=
  let second := fun (n : Option Nat) => optFields 4 (n.map fun n => [(4, n)])
  [(1, x.booking.val), (2, x.customer), (1, x.tariff.val), enumField x.kind [.completed, .cut, .lateCancel],
   enumField x.cut cutReasons, (4, x.start), (4, x.finish)] ++ second x.liveFrom ++ second x.liveTo ++
  [(4, x.closeSecond), (4, x.liveSeconds), (4, x.overSeconds), (4, x.outNetwork), (4, x.outVenue), (4, x.outUnknown)] ++
  listFields (x.outages.map fun o =>
    [(4, o.start), (4, o.finish.getD 0), (4, o.seconds), enumField o.attribution [.network, .venue, .unknown, .pending],
     flagField o.merged] ++ breakFields o.brk) ++
  listFields (x.lines.map fun l =>
    [(1, l.port.val), (4, l.deliveredLive), (4, l.deliveredOver)] ++ l.bandLive.fields ++ l.bandOver.fields ++
      [(4, l.charge), flagField l.creditClamped, flagField l.saturated]) ++
  [(4, x.total), flagField x.saturated]

end Sys2Proof.Machine
end

