-- ==== Sys2Proof/Machine/Encode.lean ====
section
/-! DEFINITION. The control payloads that carry the requests (sections 11.2 and 11.3): the fields of R170 in order, each
encoded as R169 gives. The device reads them (Decode.lean); the management station writes them, and nothing of the
machine calls this file: the claims about reading are put in its terms. -/

namespace Sys2Proof.Machine

/-- A pattern index or NONE, a port or a counter or ALL: 255 in the field (R169). -/
def encOr255 : Option Nat → List Byte
  | some n => enc8 n
  | none => enc8 255

def TimeSetArgs.bytes (a : TimeSetArgs) : List Byte := enc32 a.sec ++ enc16 a.ms ++ enc32 a.idleClose

def PortSetArgs.bytes (a : PortSetArgs) : List Byte :=
  enc8 a.port ++ enc8 a.role ++ enc16 a.capacity ++ enc16 a.reserve ++ enc16 a.demarcation ++ enc8 a.cls ++
    encBool a.autoProbe

def LegArgs.bytes (a : LegArgs) : List Byte :=
  enc8 a.port ++ enc16 a.label ++ encOpt 1 enc8 a.pattern ++ enc8 a.policy

def DestArgs.bytes (a : DestArgs) : List Byte := enc8 a.port ++ enc16 a.label

def BookArgs.bytes (a : BookArgs) : List Byte :=
  enc16 a.customer ++ enc8 a.tariff ++ enc16 a.rate ++ enc32 a.start ++ enc32 a.finish ++ enc32 a.armLead ++
    enc32 a.allowance ++ encOpt 1 enc8 a.mode ++ encList LegArgs.bytes a.legs ++ encList DestArgs.bytes a.dests

def ExtendArgs.bytes (a : ExtendArgs) : List Byte := enc8 a.index ++ enc32 a.seconds

def ModeArgs.bytes (a : ModeArgs) : List Byte := enc8 a.index ++ enc8 a.mode

def PatternSetArgs.bytes (a : PatternSetArgs) : List Byte :=
  encOr255 (a.target.map (·.index)) ++ enc16 a.silenceMs ++ enc32 a.identTimeout ++
    (match a.target with
     | some w => w.reference ++ encMask w.mask
     | none => [])

def TariffSetArgs.bytes (a : TariffSetArgs) : List Byte :=
  enc8 a.index ++ enc16 a.price ++ enc8 a.multiplier ++ enc8 a.disc1 ++ enc8 a.disc2 ++ enc8 a.disc3 ++ enc16 a.t1 ++
    enc16 a.t2 ++ enc16 a.t3 ++ enc8 a.creditFactor ++ encBool a.creditUnknown ++ enc8 a.rounding ++
    enc16 a.lateWindow ++ enc8 a.latePercent

def SegmentArgs.bytes (a : SegmentArgs) : List Byte :=
  enc16 a.first ++ enc16 a.last ++ enc8 a.exponent ++ enc8 a.shadow ++ enc16 a.threshold

def ProbeConfigArgs.bytes (a : ProbeConfigArgs) : List Byte :=
  encList SegmentArgs.bytes a.segments ++ enc16 a.silence ++ enc16 a.preMs ++ enc16 a.breakThreshold ++ enc16 a.q

def WatchSetArgs.bytes (a : WatchSetArgs) : List Byte :=
  enc8 a.counter ++ enc8 a.event ++ enc8 a.scopeKind ++ enc8 a.scopePort ++ enc8 a.scopeBooking ++ enc8 a.scopeLeg ++
    enc16 a.matchLabel ++ enc8 a.matchKind ++ enc8 a.matchEnd ++ enc16 a.maskLabel ++ enc8 a.maskKind ++
    enc8 a.maskEnd ++ enc32 a.threshold ++ encBool a.edge ++ encBool a.invert ++ encBool a.notice ++
    encBool a.member ++ enc8 a.action ++ enc32 a.startValue

/-- The body of a request of good form (R170). -/
def requestBody : Instr → List Byte
  | .powerOn _ | .secondBoundary _ | .lightLost _ _ | .lightReturns _ _ | .frameReceived _ _ _ | .slotStart _ _
  | .transmitterPasses _ | .silenceTimerExpiry _ _ _ | .identTimeoutExpiry _ _ _ | .phaseTimerExpiry _
  | .traceDelivered _ _ | .admissionCompletion _ | .unknownRequestCode _ _ => []
  | .identify _ _ | .restart _ _ | .timeRead _ _ | .watchUnfreeze _ _ | .faultRead _ _ | .billRead _ _ => []
  | .noticeSet _ b | .portRead _ b | .cancel _ b | .close _ b | .bookingRead _ b | .patternRead _ b | .tariffRead _ b
  | .probe _ b | .billRelease _ b => enc8 (b.getD 0)
  | .timeSet _ b => (b.map TimeSetArgs.bytes).getD []
  | .portSet _ b => (b.map PortSetArgs.bytes).getD []
  | .book _ b => (b.map BookArgs.bytes).getD []
  | .extend _ b => (b.map ExtendArgs.bytes).getD []
  | .mode _ b => (b.map ModeArgs.bytes).getD []
  | .patternSet _ b => (b.map PatternSetArgs.bytes).getD []
  | .tariffSet _ b => (b.map TariffSetArgs.bytes).getD []
  | .probeRead _ b | .watchRead _ b => (b.map encOr255).getD []
  | .probeConfig _ b => (b.map ProbeConfigArgs.bytes).getD []
  | .watchSet _ b => (b.map WatchSetArgs.bytes).getD []
  | .faultClear _ b => (b.map (encList enc8)).getD []
  | .faultMask _ b => (b.map fun v => v.toList.flatMap encBool).getD []

/-- A request payload: code, a zero byte, the tag, the body (section 11.2). -/
def requestPayload (code : Nat) (tag : BitVec 16) (body : List Byte) : List Byte :=
  enc8 code ++ enc8 0 ++ enc16 tag.toNat ++ body

end Sys2Proof.Machine
end

