-- ==== Sys2Proof/WellFormed.lean ====
section
/-! DEFINITION. When a command's operands could have been carried: each field within the width the wire gives it
(R169), amplitudes within the 12 bits the optics deliver (R105), codes within the request codes (R168, R171). A value
outside its STATED range is well formed and is refused RANGE by its meaning. -/

namespace Sys2Proof

/-- Fits one byte. -/
def fits8 (n : Nat) : Bool := decide (n < 256)
/-- Fits two bytes. -/
def fits16 (n : Nat) : Bool := decide (n < 65536)
/-- Fits four bytes. -/
def fits32 (n : Nat) : Bool := decide (n < 4294967296)

/-- A moment visits at most the 256 records there are (R27). -/
def Moment.wf (m : Moment) : Bool := decide (m.visits ≤ 256)

def Req.wf (r : Req) : Bool := r.m.wf

def Measured.wf : Measured → Bool
  | .silence a => decide (a ≤ 4095)
  | .samples shots => shots.all fun shot => shot.all fun a => decide (a ≤ 4095)

def TimeSetArgs.wf (a : TimeSetArgs) : Bool := fits32 a.sec && fits16 a.ms && fits32 a.idleClose

def PortSetArgs.wf (a : PortSetArgs) : Bool :=
  fits8 a.port && fits8 a.role && fits16 a.capacity && fits16 a.reserve && fits16 a.demarcation && fits8 a.cls

def LegArgs.wf (a : LegArgs) : Bool :=
  fits8 a.port && fits16 a.label && a.pattern.all fits8 && fits8 a.policy

def DestArgs.wf (a : DestArgs) : Bool := fits8 a.port && fits16 a.label

def BookArgs.wf (a : BookArgs) : Bool :=
  fits16 a.customer && fits8 a.tariff && fits16 a.rate && fits32 a.start && fits32 a.finish && fits32 a.armLead &&
  fits32 a.allowance && a.mode.all fits8 && fits8 a.legs.length && a.legs.all LegArgs.wf &&
  fits8 a.dests.length && a.dests.all DestArgs.wf

def ExtendArgs.wf (a : ExtendArgs) : Bool := fits8 a.index && fits32 a.seconds

def ModeArgs.wf (a : ModeArgs) : Bool := fits8 a.index && fits8 a.mode

/-- NONE is 255 on the wire, so a named index lies below it (R169). -/
def PatternSetArgs.wf (a : PatternSetArgs) : Bool :=
  (a.target.all fun w => decide (w.index < 255 ∧ w.reference.length = 32 ∧ w.mask.length = 32)) &&
  fits16 a.silenceMs && fits32 a.identTimeout

def TariffSetArgs.wf (a : TariffSetArgs) : Bool :=
  fits8 a.index && fits16 a.price && fits8 a.multiplier && fits8 a.disc1 && fits8 a.disc2 && fits8 a.disc3 &&
  fits16 a.t1 && fits16 a.t2 && fits16 a.t3 && fits8 a.creditFactor && fits8 a.rounding && fits16 a.lateWindow &&
  fits8 a.latePercent

def SegmentArgs.wf (a : SegmentArgs) : Bool :=
  fits16 a.first && fits16 a.last && fits8 a.exponent && fits8 a.shadow && fits16 a.threshold

def ProbeConfigArgs.wf (a : ProbeConfigArgs) : Bool :=
  fits8 a.segments.length && a.segments.all SegmentArgs.wf && fits16 a.silence && fits16 a.preMs &&
  fits16 a.breakThreshold && fits16 a.q

def WatchSetArgs.wf (a : WatchSetArgs) : Bool :=
  fits8 a.counter && fits8 a.event && fits8 a.scopeKind && fits8 a.scopePort && fits8 a.scopeBooking &&
  fits8 a.scopeLeg && fits16 a.matchLabel && fits8 a.matchKind && fits8 a.matchEnd && fits16 a.maskLabel &&
  fits8 a.maskKind && fits8 a.maskEnd && fits32 a.threshold && fits8 a.action && fits32 a.startValue

/-- ALL is 255 on the wire, so a named port or counter lies below it (R169). -/
def namedOrAll (a : Option Nat) : Bool := a.all fun n => decide (n < 255)

/-- A command whose operands could have been carried. -/
def Instr.wf : Instr → Bool
  | .powerOn _ => true
  | .secondBoundary m => m.wf
  | .lightLost m _ => m.wf
  | .lightReturns m _ => m.wf
  | .frameReceived m _ _ => m.wf
  | .slotStart m _ => m.wf
  | .transmitterPasses m => m.wf
  | .silenceTimerExpiry m _ _ => m.wf
  | .identTimeoutExpiry m _ _ => m.wf
  | .phaseTimerExpiry m => m.wf
  | .traceDelivered m t => m.wf && t.measured.wf
  | .admissionCompletion m => m.wf
  | .unknownRequestCode r c => r.wf && decide (c < 128 ∧ c ∉ knownRequestCodes)
  | .identify r _ => r.wf
  | .restart r _ => r.wf
  | .noticeSet r b => r.wf && b.all fits8
  | .timeSet r b => r.wf && b.all TimeSetArgs.wf
  | .timeRead r _ => r.wf
  | .portSet r b => r.wf && b.all PortSetArgs.wf
  | .portRead r b => r.wf && b.all fits8
  | .book r b => r.wf && b.all BookArgs.wf
  | .cancel r b => r.wf && b.all fits8
  | .close r b => r.wf && b.all fits8
  | .extend r b => r.wf && b.all ExtendArgs.wf
  | .mode r b => r.wf && b.all ModeArgs.wf
  | .bookingRead r b => r.wf && b.all fits8
  | .patternSet r b => r.wf && b.all PatternSetArgs.wf
  | .patternRead r b => r.wf && b.all fits8
  | .tariffSet r b => r.wf && b.all TariffSetArgs.wf
  | .tariffRead r b => r.wf && b.all fits8
  | .probe r b => r.wf && b.all fits8
  | .probeRead r b => r.wf && b.all namedOrAll
  | .probeConfig r b => r.wf && b.all ProbeConfigArgs.wf
  | .watchSet r b => r.wf && b.all WatchSetArgs.wf
  | .watchRead r b => r.wf && b.all namedOrAll
  | .watchUnfreeze r _ => r.wf
  | .faultRead r _ => r.wf
  | .faultClear r b => r.wf && b.all fun l => fits8 l.length && l.all fits8
  | .faultMask r _ => r.wf
  | .billRead r _ => r.wf
  | .billRelease r b => r.wf && b.all fits8

end Sys2Proof
end

