-- ==== Sys2Proof/Safety.lean ====
section
/-! DEFINITION. The laws the manual says the device maintains, as predicates on a state; what an answer may change; the
conditions under which a request is accepted, as the manual lists them: the terms in which the claims are put. -/

namespace Sys2Proof

/-- The request's port, tag and moment, of a command that is a request. -/
def Instr.sender : Instr → Option Req
  | .powerOn _ | .secondBoundary _ | .lightLost _ _ | .lightReturns _ _ | .frameReceived _ _ _ | .slotStart _ _
  | .transmitterPasses _ | .silenceTimerExpiry _ _ _ | .identTimeoutExpiry _ _ _ | .phaseTimerExpiry _
  | .traceDelivered _ _ | .admissionCompletion _ => none
  | .unknownRequestCode r _ | .identify r _ | .restart r _ | .noticeSet r _ | .timeSet r _ | .timeRead r _
  | .portSet r _ | .portRead r _ | .book r _ | .cancel r _ | .close r _ | .extend r _ | .mode r _ | .bookingRead r _
  | .patternSet r _ | .patternRead r _ | .tariffSet r _ | .tariffRead r _ | .probe r _ | .probeRead r _
  | .probeConfig r _ | .watchSet r _ | .watchRead r _ | .watchUnfreeze r _ | .faultRead r _ | .faultClear r _
  | .faultMask r _ | .billRead r _ | .billRelease r _ => some r

/-- The request is of good form (R171). -/
def Instr.formed : Instr → Bool
  | .powerOn _ | .secondBoundary _ | .lightLost _ _ | .lightReturns _ _ | .frameReceived _ _ _ | .slotStart _ _
  | .transmitterPasses _ | .silenceTimerExpiry _ _ _ | .identTimeoutExpiry _ _ _ | .phaseTimerExpiry _
  | .traceDelivered _ _ | .admissionCompletion _ | .unknownRequestCode _ _ => false
  | .identify _ b | .restart _ b | .timeRead _ b | .watchUnfreeze _ b | .faultRead _ b | .billRead _ b => b.isSome
  | .noticeSet _ b | .portRead _ b | .cancel _ b | .close _ b | .bookingRead _ b | .patternRead _ b | .tariffRead _ b
  | .probe _ b | .billRelease _ b => b.isSome
  | .timeSet _ b => b.isSome
  | .portSet _ b => b.isSome
  | .book _ b => b.isSome
  | .extend _ b => b.isSome
  | .mode _ b => b.isSome
  | .patternSet _ b => b.isSome
  | .tariffSet _ b => b.isSome
  | .probeRead _ b | .watchRead _ b => b.isSome
  | .probeConfig _ b => b.isSome
  | .watchSet _ b => b.isSome
  | .faultClear _ b => b.isSome
  | .faultMask _ b => b.isSome

/-- The same orders, with no time passing and no visit made: a command taken at an instant that has come already. -/
def Moment.still (m : Moment) : Moment := { m with dt := 0, visits := 0 }

end Sys2Proof

namespace Sys2Proof.Machine
open Sys2Proof.Config

/-! ## Laws of the state -/

/-- A control queue holds at most 16 frames (R56). -/
def State.ControlInv (s : State) : Prop := ∀ p : PortIx, (s.port p).control.length ≤ controlQueueDepth

/-- A media queue holds at most 256 frames, and only while its port is UP with a role other than OFF (R44, R55). -/
def Port.MediaOk (x : Port) : Prop :=
  x.class1.length ≤ mediaQueueDepth ∧ x.class2.length ≤ mediaQueueDepth ∧
    (x.link ≠ .up ∨ x.role = .off → x.class1 = [] ∧ x.class2 = [])

/-- Every port's media queues keep that law. -/
def State.MediaInv (s : State) : Prop := ∀ p : PortIx, (s.port p).MediaOk

/-- At most four admissions wait, and none while no scan is in flight (R25, R26, R27). -/
def State.AdmissionInv (s : State) : Prop :=
  s.waiting.length ≤ admissionPlaces ∧ (s.scan = none → s.waiting = [])

/-- The ports of the probes that exist, the one in flight first. -/
def State.probedPorts (s : State) : List PortIx := (s.flight.map (·.port)).toList ++ s.probeWaiting.map (·.port)

/-- At most eight probes wait, none while none is in flight, and no port appears more than once (R96). -/
def State.ProbeInv (s : State) : Prop :=
  s.probeWaiting.length ≤ probePlaces ∧ (s.flight = none → s.probeWaiting = []) ∧ s.probedPorts.Nodup

/-- A charge lies in 0..4,294,967,294 or is the indefinite charge, which is flagged (R159). -/
def chargeOk (charge : Nat) (saturated : Bool) : Prop :=
  if saturated then charge = indefiniteCharge else charge ≤ maxCharge

/-- A billing record with every charge in range and no outage attributed PENDING (R159, R161). -/
def Bill.Sound (x : Bill) : Prop :=
  chargeOk x.total x.saturated ∧ (∀ l ∈ x.lines, chargeOk l.charge l.saturated) ∧
    ∀ o ∈ x.outages, o.attribution ≠ .pending

/-- The billing queue holds at most 64 records, the bill-waiting list is empty while a slot is free, and every record is
sound (R155, R159, R161, R163). -/
def State.BillInv (s : State) : Prop :=
  s.bills.length ≤ billQueueDepth ∧ (s.billWaiting ≠ [] → s.bills.length = billQueueDepth) ∧
    ∀ x ∈ s.bills ++ s.billWaiting, x.Sound

/-- No two flow entries share a key (R62). -/
def State.FlowInv (s : State) : Prop := (s.flows.map fun e => (e.port, e.label)).Nodup

/-- Some port has control class OPERATOR (R43). -/
def State.OperatorInv (s : State) : Prop := ∃ p : PortIx, (s.port p).cls = .operator

/-- The laws together. -/
structure State.Inv (s : State) : Prop where
  control : s.ControlInv
  media : s.MediaInv
  admission : s.AdmissionInv
  probe : s.ProbeInv
  bill : s.BillInv
  flow : s.FlowInv
  operator : s.OperatorInv

/-! ## The booking table's laws -/

/-- The claim of record `i`, when admission counts it (R6). -/
def State.countedClaim (s : State) (i : BookingIx) : Option Claim :=
  (s.booking i).bind fun r => if r.counted then some (r.claim r.allowance) else none

/-- The claims of the counted bookings, in index order (R6). -/
def State.countedClaims (s : State) : List Claim := (List.finRange 256).filterMap s.countedClaim

/-- The summed rate of the counted bookings that use port `p` in a direction and whose window contains second `t`. -/
def State.load (s : State) (dir : Direction) (p : PortIx) (t : Nat) : Nat :=
  ((s.countedClaims.filter fun c => c.loads dir p && c.holdsAt t).map (·.rate)).sum

/-- No port is loaded above its bookable capacity in any second (R31). -/
def State.LoadBound (s : State) : Prop :=
  ∀ (dir : Direction) (p : PortIx) (t : Nat), s.load dir p t ≤ (s.port p).capacity - (s.port p).reserve

/-- The entries of the admission queue, the one in flight first (R25). -/
def State.entries (s : State) : List AdmissionEntry := (s.scan.map (·.entry)).toList ++ s.waiting

/-- The bills in the queue are those of the CLOSED bookings, one each, and the waiting ones name CLOSING bookings, at
most once each (R155, R163). -/
structure State.BillsMatch (s : State) : Prop where
  queued : (s.bills.map (·.booking)).Nodup
  closed : ∀ b : BookingIx, (∃ x ∈ s.bills, x.booking = b) ↔ ∃ r, s.booking b = some r ∧ r.state = .closed
  waits : (s.billWaiting.map (·.booking)).Nodup
  closing : ∀ x ∈ s.billWaiting, ∃ r, s.booking x.booking = some r ∧ r.state = .closing

/-- What holds of the admission unit between events, from which the bound of R31 follows at every completion: a BOOK
entry names a PENDING record, each at most one (R25); an EXTEND entry that is not void names a record that was settled
(R36); and the scan in flight holds its candidate's fields and has seen every counted booking it has visited (R28). -/
structure State.CapacityInv (s : State) : Prop where
  bound : s.LoadBound
  bills : s.BillsMatch
  book : ∀ e ∈ s.entries, e.kind = .book → e.void = false ∧ ∃ r, s.booking e.booking = some r ∧ r.state = .pending
  once : ((s.entries.filter fun e => decide (e.kind = .book)).map (·.booking)).Nodup
  extend : ∀ e ∈ s.entries, e.kind ≠ .book → e.void = false → ∃ r, s.booking e.booking = some r ∧ r.state ≠ .pending
  candidate : ∀ sc, s.scan = some sc → sc.entry.void = false →
    ∃ r, s.booking sc.entry.booking = some r ∧ sc.candidate = r.claim (sc.entry.allowance r)
  seen : ∀ sc, s.scan = some sc →
    (((List.finRange 256).filter fun i => decide (i.val < sc.visited ∧ i ≠ sc.entry.booking)).filterMap
      s.countedClaim).Sublist sc.seen

/-- The flow table and the booking table agree (R62): an entry stands for each leg of an ARMED, LIVE or OVERRUN booking
but the deferred ones, whose keys are held, and for no other leg. -/
structure State.FlowsMatch (s : State) : Prop where
  keys : s.FlowInv
  entry : ∀ e ∈ s.flows, ∃ r lg, s.booking e.booking = some r ∧ r.carrying = true ∧ r.leg e.leg = some lg ∧
    e.port = lg.port ∧ e.label = lg.label
  leg : ∀ b r l lg, s.booking b = some r → r.carrying = true → r.leg l = some lg →
    ((∃ e ∈ s.flows, e.booking = b ∧ e.leg = l) ↔ (b, l) ∉ s.deferred)
  deferred : ∀ x ∈ s.deferred, ∃ r lg, s.booking x.1 = some r ∧ r.carrying = true ∧ r.leg x.2 = some lg ∧
    s.flowOf lg.port lg.label ≠ none
  once : s.deferred.Nodup

/-- A booking stands in its after-window second: LIVE from its end second on, in that second, with no allowance (R60). -/
def Booking.AfterWindow (r : Booking) (sec : Nat) : Prop :=
  r.state = .live ∧ r.allowance = 0 ∧ r.liveFrom = some r.finish ∧ sec = r.finish

/-- An ARMED, LIVE or OVERRUN booking stands in its occupancy window, or in its after-window second; ARMED before its end,
LIVE and OVERRUN from its start on (R6, R12 to R15, R60). -/
structure Booking.InWindow (r : Booking) (sec : Nat) : Prop where
  begun : r.windowStart ≤ sec
  armed : r.state = .armed → sec < r.finish
  live : r.state ≠ .armed → r.start ≤ sec
  ends : sec < r.finish + r.allowance ∨ r.AfterWindow sec

/-- The terms of a record are in the ranges BOOK and EXTEND check (R10, R21). -/
structure Booking.TermsInRange (r : Booking) : Prop where
  duration : r.start + 60 ≤ r.finish
  lead : 30 ≤ r.armLead ∧ r.armLead ≤ r.start
  allowance : r.allowance ≤ 7200
  last : r.finish + r.allowance ≤ 4294967295
  ports : (r.legs.map (·.port)).Nodup

/-- What holds between events, from which both laws of R62 follow in every second. Besides the laws of the tables: an
EXTEND entry that is not void is its record's one, and lengthens; carrying bookings stand in their windows, and a deferred
leg's is ARMED in the first second of its own; and counted bookings whose windows share a second share no label on a port
in either direction (R32). -/
structure State.LabelInv (s : State) : Prop where
  capacity : s.CapacityInv
  flows : s.FlowsMatch
  terms : ∀ b r, s.booking b = some r → r.TermsInRange
  extend : ∀ e ∈ s.entries, e.void = false → ∀ total clamped, e.kind = .extend total clamped →
    ∃ r, s.booking e.booking = some r ∧ r.extendPending = true ∧ r.allowance ≤ total ∧ total ≤ 7200 ∧
      r.finish + total ≤ 4294967295
  once : ((s.entries.filter fun e => decide (e.kind ≠ .book ∧ e.void = false)).map (·.booking)).Nodup
  window : ∀ b r, s.booking b = some r → r.carrying = true → r.InWindow s.sec
  deferred : ∀ x ∈ s.deferred, ∀ r, s.booking x.1 = some r → r.state = .armed ∧ r.windowStart = s.sec
  labels : ∀ i j a c, i ≠ j → s.countedClaim i = some a → s.countedClaim j = some c → a.lo < c.hi → c.lo < a.hi →
    (∀ k ∈ a.legs, k ∉ c.legs) ∧ ∀ k ∈ a.dests, k ∉ c.dests

/-- The holder of a shared key is in its after-window second, and the other booking is ARMED in the first second of its
window (R62). -/
def OneHandsOver (holder next : Booking) (sec : Nat) : Prop :=
  holder.AfterWindow sec ∧ next.state = .armed ∧ next.windowStart = sec

/-! ## The balances of lived seconds -/

/-- The second up to which a booking that went LIVE has lived: its `live_to`, or the second in progress. -/
def Booking.livedTo (r : Booking) (sec : Nat) : Nat := r.liveTo.getD sec

/-- The seconds of a booking's outage records (R124). -/
def OutageState.seconds (o : OutageState) : Nat := (o.records.map (·.seconds)).sum

/-- The balances of a destination after `liveSecs` live and `overSecs` overrun seconds (R128), of which no fewer are
undelivered than the outage records hold seconds. -/
structure Residency.Balanced (x : Residency) (liveSecs overSecs outages : Nat) : Prop where
  live : x.deliveredLive + x.undeliveredLive = liveSecs
  overrun : x.deliveredOver + x.undeliveredOver = overSecs
  bandLive : x.bandLive.b0 + x.bandLive.b1 + x.bandLive.b2 + x.bandLive.b3 = x.deliveredLive
  bandOver : x.bandOver.b0 + x.bandOver.b1 + x.bandOver.b2 + x.bandOver.b3 = x.deliveredOver
  outages : outages ≤ x.undeliveredLive + x.undeliveredOver

/-- The lived seconds of a record in the second `sec`: its recorded times by its state, the balances of R124 and R128 over
the seconds taken so far, and the record that holds the outage second in progress. -/
structure Booking.SecondsOk (r : Booking) (sec : Nat) : Prop where
  before : r.state ∉ [.live, .overrun, .closing, .closed] → r.liveFrom = none ∧ r.liveTo = none ∧ r.overrunFrom = none
  running : r.forwarding = true →
    r.liveFrom ≠ none ∧ r.liveTo = none ∧ (r.overrunFrom ≠ none ↔ r.state = .overrun)
  ended : r.state ∈ [.closing, .closed] → r.liveFrom ≠ none → r.liveTo ≠ none
  times : ∀ f, r.liveFrom = some f → f ≤ r.livedTo sec ∧ ∀ o, r.overrunFrom = some o → f ≤ o ∧ o ≤ r.livedTo sec
  balance : ∀ f, r.liveFrom = some f →
    let last := r.livedTo sec
    let liveSecs := r.overrunFrom.getD last - f
    let overSecs := last - r.overrunFrom.getD last
    ∃ o, r.outage = some o ∧ o.seconds ≤ liveSecs + overSecs ∧
      ∀ d ∈ r.dests, ∃ a, d.account = some a ∧ a.residency.Balanced liveSecs overSecs o.seconds
  outage : r.forwarding = true → ∀ o, r.outage = some o →
    (o.flag = true → o.touched = true ∧ o.openRecord ≠ none) ∧
    (o.touched = true → ∃ k ∈ o.records, k.openIn sec = true) ∧ ∀ k ∈ o.records, k.start ≤ sec

/-- Every record's lived seconds balance. -/
structure State.SecondsInv (s : State) : Prop where
  capacity : s.CapacityInv
  record : ∀ b r, s.booking b = some r → r.SecondsOk s.sec

/-- The terms BOOK fixes (R2, R3), which nothing changes until the record is freed. -/
def Booking.fixedTerms (r : Booking) : List Nat × List (PortIx × Nat × Option PatternIx × IdentPolicy) × List (PortIx × Nat) :=
  ([r.customer, r.tariff.val, r.rate, r.start, r.finish, r.armLead],
    r.legs.map fun l => (l.port, l.label, l.pattern, l.policy), r.dests.map fun d => (d.port, d.label))

/-- The state of record `b`, or none when it is FREE. -/
def State.stateOf (s : State) (b : BookingIx) : Option BookingState := (s.booking b).map (·.state)

/-- What one command may make of a record's state (section 1.3). A record that enters CLOSING may be billed, and so be
CLOSED, within the same event (R18); a restart's completion frees every record that is not CLOSED (R24). -/
def mayBecome : Option BookingState → Option BookingState → Bool
  | none, y => decide (y = none ∨ y = some .pending)
  | some .pending, y => decide (y ∈ [some .pending, some .confirmed, some .refused, some .cancelled, none])
  | some .confirmed, y => decide (y ∈ [some .confirmed, some .armed, some .expired, some .closing, some .closed, none])
  | some .armed, y => decide (y ∈ [some .armed, some .live, some .closing, some .closed])
  | some .live, y => decide (y ∈ [some .live, some .overrun, some .closing, some .closed])
  | some .overrun, y => decide (y ∈ [some .overrun, some .closing, some .closed])
  | some .closing, y => decide (y ∈ [some .closing, some .closed])
  | some .closed, y => decide (y ∈ [some .closed, none])
  | some .refused, y => decide (y ∈ [some .refused, none])
  | some .cancelled, y => decide (y ∈ [some .cancelled, none])
  | some .expired, y => decide (y ∈ [some .expired, none])

/-! ## What the world's events leave alone -/

/-- The six settings of a port (R41). -/
def Port.settings (x : Port) : Role × Nat × Nat × Nat × ControlClass × Bool :=
  (x.role, x.capacity, x.reserve, x.demarcation, x.cls, x.autoProbe)

/-- The settings the requests write, and what only power-on or a restart writes, are the same. -/
structure KeepsSettings (s t : State) : Prop where
  pending : t.pending = s.pending
  ports : ∀ p : PortIx, (t.port p).settings = (s.port p).settings
  patterns : t.patterns = s.patterns
  silenceMs : t.silenceMs = s.silenceMs
  identTimeout : t.identTimeout = s.identTimeout
  probeConfig : t.probeConfig = s.probeConfig
  masks : t.masks = s.masks
  tariffs : t.tariffs = s.tariffs
  noticePort : t.noticePort = s.noticePort
  straps : t.straps = s.straps
  timeSet : t.timeSet = s.timeSet
  idleClose : t.idleClose = s.idleClose

/-- A probe that was in flight has ended (R110, R111): its port's last result, PROBE_DONE, and the head of the waiting
probes in flight behind it (R102). -/
structure ProbeEnded (s t : State) (f : Flight) (x : ProbeEnd) : Prop where
  result : t.lastResults[f.port] = some { number := f.number, outcome := x.outcome, peaks := x.peaks,
                                          breakDistance := x.distance, second := s.sec, timeSet := s.timeSet }
  others : ∀ q : PortIx, q ≠ f.port → t.lastResults[q] = s.lastResults[q]
  done : t.flags[FaultClass.probeDone.ix] = true
  idle : s.probeWaiting = [] → t.flight = none ∧ t.probeWaiting = []
  next : ∀ w rest, s.probeWaiting = w :: rest → t.probeWaiting = rest ∧ ∃ g, t.flight = some g ∧
    g.number = w.number ∧ g.port = w.port ∧ g.config = s.probeConfig ∧ g.phase = .preSilence ∧ g.peaks = []

/-- The situation of a considered leg whose port is in the link state `link`, by the tests of R115 in their order. -/
def Leg.situationAt (l : Leg) (link : Link) : Option Situation :=
  if link = .down ∨ link = .acquiring then some .dark
  else if link = .lof then some .line
  else if l.exIdent then some .ident
  else if l.exWatch then some .watch
  else if l.state = .waiting ∨ l.state = .silent then some .source
  else none

/-- The cause `c` is the one R115 and R116 give a situation on port `p`: by the table, with no break; a DOWN port's by its
cause request, which joins the port's probe, creates one with the next free number, or is not possible. -/
def CauseGiven (s : State) (p : PortIx) (z : Situation) (c : Cause) : Prop :=
  c.brk = none ∧
    match z with
    | .line => c.value = .network
    | .ident | .source => c.value = .venue
    | .watch => c.value = .unknown
    | .dark =>
      if (s.port p).link ≠ .down then c.value = .unknown
      else
        match s.probeOf p with
        | some n => c.value = .pending n
        | none =>
          if (s.port p).autoProbe = true ∧ s.fitted p = true ∧ s.restart = false ∧ s.probeWaiting.length < 8 then
            c.value = .pending s.nextNumber
          else c.value = .unknown

/-! ## Bills and egress drops -/

/-- The bill `k` of booking `b`, closed from ARMED, LIVE or OVERRUN as `y`, under the tariff `tf`: the booked terms, the
lived seconds, the outage records with their seconds by attribution, a line for each destination and their total (R156,
R157, R159, R161). L and V are the differences of R156; where one is negative, the second count having wrapped while the
booking was LIVE, R156 states no value and nothing is said of it (log entry 31). -/
structure BilledAs (b : BookingIx) (y : Booking) (tf : Tariff) (k : Bill) : Prop where
  terms : (k.booking, k.customer, k.tariff, k.start, k.finish) = (b, y.customer, y.tariff, y.start, y.finish)
  closed : some k.cut = y.cut ∧ k.kind = k.cut.kind ∧ some k.closeSecond = y.closeSecond
  lived : k.liveFrom = y.liveFrom ∧ k.liveTo = y.liveTo
  liveSeconds : match y.liveFrom, y.overrunFrom, y.liveTo with
    | some f, some o, _ => f ≤ o → k.liveSeconds = o - f
    | some f, none, some e => f ≤ e → k.liveSeconds = e - f
    | _, _, _ => k.liveSeconds = 0
  overSeconds : match y.overrunFrom, y.liveTo with
    | some o, some e => o ≤ e → k.overSeconds = e - o
    | _, _ => k.overSeconds = 0
  outages : k.outages = (y.outage.toList.flatMap (·.records)).map fun o =>
    { start := o.start, finish := o.finish, seconds := o.seconds, attribution := o.attribution, merged := o.merged,
      brk := o.brk }
  seconds : let sum := fun a => ((k.outages.filter fun o => decide (o.attribution = a)).map (·.seconds)).sum
    k.outNetwork = sum .network ∧ k.outVenue = sum .venue ∧ k.outUnknown = sum .unknown
  lines : k.lines = y.dests.map (lineOf y tf)
  total : (k.total, k.saturated) = totalOf k.lines

/-- The bill `k` of booking `b`, late-cancelled as `x` in the second `now`, under the tariff `tf`: the late-cancel charge,
and nothing lived (R160, R161). -/
structure LateCancelBilled (b : BookingIx) (x : Booking) (tf : Tariff) (now : Nat) (k : Bill) : Prop where
  terms : (k.booking, k.customer, k.tariff, k.start, k.finish) = (b, x.customer, x.tariff, x.start, x.finish)
  closed : k.cut = .lateCancel ∧ k.kind = .lateCancel ∧ k.closeSecond = now
  lived : k.liveFrom = none ∧ k.liveTo = none ∧ k.liveSeconds = 0 ∧ k.overSeconds = 0
  outages : k.outages = [] ∧ k.outNetwork = 0 ∧ k.outVenue = 0 ∧ k.outUnknown = 0
  lines : k.lines = []
  total : (k.total, k.saturated) = lateCancelCharge x tf

/-- A destination after `n` more egress drops: both counts up by `n`, the total count wrapping (R73). -/
def Dest.dropped (d : Dest) (n : Nat) : Dest :=
  { d with account := d.account.map fun a =>
      { a with secondDrops := a.secondDrops + n
               totalDrops := if n = 0 then a.totalDrops else (a.totalDrops + n) % 4294967296 } }

/-- Every copy in the media queues of port `p` in `s` has been an egress drop by `t`: counted once for the destination it
names when its booking is LIVE or OVERRUN, and in no booking otherwise (R44, R55, R73). -/
def MediaDropped (s t : State) (p : PortIx) : Prop :=
  ∀ (b : BookingIx) (x : Booking), s.booking b = some x → ∃ y, t.booking b = some y ∧ y.dests.length = x.dests.length ∧
    ∀ (i : Nat) (d : Dest), x.dests[i]? = some d → y.dests[i]? = some
      (if x.state = .live ∨ x.state = .overrun then
        d.dropped (((s.port p).class1 ++ (s.port p).class2).countP fun c => decide (c.booking = b ∧ c.position = i + 1))
      else d)

/-! ## Probes and causes -/

/-- The outage state with every cause pending on probe `n`, held or carried, settled as `settled` (R122). -/
def OutageState.settledAs (o : OutageState) (n : ProbeNo) (settled : Cause) : OutageState :=
  let swap := fun (c : Cause) => if c.value = .pending n then settled else c
  let leg := fun (c : LegCause) => { c with held := c.held.map swap, carried := c.carried.map swap }
  { o with records := o.records.map fun r => { r with main := leg r.main, backup := leg r.backup } }

/-- The end `e` of probe `n` of port `p` has settled every cause pending on it, held or carried, in every record of every
booking, against the port's demarcation distance; a CLOSING booking that this settles is billed (R122, R129, R154). -/
def CausesSettled (s t : State) (n : ProbeNo) (p : PortIx) (e : ProbeEnd) : Prop :=
  ∀ (b : BookingIx) (x : Booking), s.booking b = some x →
    let settled : Cause :=
      match e.outcome, e.distance with
      | .brk, some d => { value := if d ≤ (s.port p).demarcation then .network else .venue,
                          brk := some { port := p, distance := d } }
      | .noBreak, _ => { value := .venue, brk := none }
      | _, _ => { value := .unknown, brk := none }
    ∃ y, t.booking b = some y ∧
      y = { x with state := y.state, outage := x.outage.map fun o => o.settledAs n settled } ∧
      (x.state ≠ .closing → y.state = x.state) ∧
      (x.state = .closing → y.settled = true → y.state = .closed ∨ ∃ k ∈ t.billWaiting, k.booking = b) ∧
      (∀ why n, x.state = .closing → x.cut = some why → why ≠ .lateCancel → x.closeSecond = some n → y.state = .closed →
        ∃ k ∈ t.bills, BilledAs b y (t.tariff y.tariff) k) ∧
      (x.state = .closing → y.settled = false → y.state = .closing)

/-- A restart has completed (R24, R40, R130, R143, R178): the admission unit, the flow table, the watch counters and the
fault unit cleared, the media queues, the reflectometer and the settings kept. -/
structure RestartDone (s t : State) : Prop where
  kept : KeepsSettings s t
  restart : t.restart = false
  cause : t.startCause = .restart
  admission : t.scan = none ∧ t.waiting = []
  flows : t.flows = [] ∧ t.deferred = []
  counters : ∀ i : CounterIx, t.counter i = .initial
  frozen : t.frozen = false
  flags : ∀ i : Fin 14, t.flags[i] = false
  capture : t.capture = none
  probes : t.flight = s.flight ∧ t.probeWaiting = s.probeWaiting ∧ t.lastResults = s.lastResults
  media : ∀ p : PortIx, (t.port p).class1 = (s.port p).class1 ∧ (t.port p).class2 = (s.port p).class2

/-- No watch counter has an overflow action, so that counting changes nothing but the counters and notices. -/
def State.NoActions (s : State) : Prop := ∀ i : CounterIx, (s.counter i).action = .none

/-! ## The second boundary -/

/-- The second that begins at the next boundary (R7). -/
def State.nextSecond (s : State) : Nat := (s.sec + 1) % 4294967296

/-- A booking once the second in progress has been classified at the boundary that ends it (R124, R126, R127): what it
was, unless it lived that second in LIVE or OVERRUN. -/
def Booking.classified (x : Booking) (s : State) : Booking :=
  if x.takes s.sec then x.takeSecond s.sec (s.ports.map (·.upWhole)) (s.tariff x.tariff) else x

/-- A booking `c` of record `b` has entered CLOSING in the second `now`, and, being settled, is billed: `s` is the state
before, `t` the one after (R16, R17, R78, R120, R129, R154, R156 to R161). -/
structure ClosedAs (s t : State) (b : BookingIx) (c y : Booking) (why : CutReason) (now : Nat) : Prop where
  state : y.state = .closing ∨ y.state = .closed
  cut : y.cut = some why
  closeSecond : y.closeSecond = some now
  liveTo : y.liveTo = if c.state = .armed then c.liveTo else some now
  flags : y.closeReq = none ∧ y.restartClose = false
  legs : y.main = c.main.toIdle ∧ y.backup = c.backup.map Leg.toIdle
  outage : y.outage = c.outage.map fun o => o.freeze now
  rest : y = { c with state := y.state, cut := y.cut, closeSecond := y.closeSecond, liveTo := y.liveTo,
                      closeReq := y.closeReq, restartClose := y.restartClose, main := y.main, backup := y.backup,
                      outage := y.outage, extendPending := y.extendPending, lastExtend := y.lastExtend }
  flows : ∀ e ∈ t.flows, e.booking ≠ b
  waits : c.settled = false → y.state = .closing
  billed : y.state = .closed → ∃ k ∈ t.bills, k.booking = b ∧ k.cut = why ∧ k.kind = why.kind ∧ k.closeSecond = now
  held : c.settled = true → y.state = .closing → ∃ k ∈ t.billWaiting, k.booking = b
  bill : y.state = .closed → why ≠ .lateCancel → ∃ k ∈ t.bills, BilledAs b y (t.tariff y.tariff) k
  heldBill : c.settled = true → y.state = .closing → why ≠ .lateCancel → (∀ w ∈ s.billWaiting, w.booking ≠ b) →
    ∃ k ∈ t.billWaiting, BilledAs b y (t.tariff y.tariff) k

/-- The media queues of a port are the same. -/
def SameMedia (x y : Port) : Prop := y.class1 = x.class1 ∧ y.class2 = x.class2

/-- An IDENT payload agrees with a pattern: its first 32 bytes equal the pattern's reference
wherever its mask marks, and fewer than 32 bytes fail (R86). -/
def IdentAgrees (k : Pattern) (payload : List Byte) : Prop :=
  32 ≤ payload.length ∧ ∀ i, i < 32 → k.mask[i]? = some true → payload[i]? = k.reference[i]?

/-! ## Acceptance -/

/-- The fields and ports of a BOOK stand as step 1 of R10 asks. That step names no code of an ident policy or of a
protection mode that names none; that a code above 2 is RANGE is read from R169 and R172 (DEDUCED, log entry 16). -/
structure BookInRange (a : BookArgs) (s : State) : Prop where
  customer : a.customer ≠ 0
  tariff : ∃ x : TariffIx, x.val = a.tariff ∧ s.tariffs[x] ≠ none
  rate : 1 ≤ a.rate ∧ a.rate ≤ 480
  duration : a.start + 60 ≤ a.finish ∧ a.finish ≤ a.start + 86400
  armLead : 30 ≤ a.armLead ∧ a.armLead ≤ 600
  allowance : a.allowance ≤ 7200
  window : a.armLead ≤ a.start ∧ a.finish + a.allowance ≤ 4294967295
  ahead : s.timeSet = true → s.sec < a.finish
  legCount : a.legs.length = 1 ∨ a.legs.length = 2
  destCount : 1 ≤ a.dests.length ∧ a.dests.length ≤ 4
  leg : ∀ l ∈ a.legs, l.port ≤ 15 ∧ 1 ≤ l.label ∧ l.label ≤ 4095 ∧
    (∃ p : PortIx, p.val = l.port ∧ ((s.port p).role = .venue ∨ (s.port p).role = .mixed)) ∧
    (∀ n, l.pattern = some n → ∃ x : PatternIx, x.val = n ∧ s.patterns[x] ≠ none) ∧
    l.policy ≤ 2 ∧ (l.policy ≠ 0 → l.pattern ≠ none)
  dest : ∀ d ∈ a.dests, d.port ≤ 15 ∧ 1 ≤ d.label ∧ d.label ≤ 4095 ∧
    ∃ p : PortIx, p.val = d.port ∧ ((s.port p).role = .taker ∨ (s.port p).role = .mixed)
  ports : (a.legs.map (·.port) ++ a.dests.map (·.port)).Nodup
  mode : ∀ c, a.mode = some c → c ≤ 2 ∧ (c = 2 → a.legs.length ≠ 1)

/-- The fields of a PORT SET lie in their ranges (R43, step 1). -/
structure PortSetInRange (a : PortSetArgs) : Prop where
  port : a.port ≤ 15
  role : a.role ≤ 3
  cls : a.cls ≤ 2
  capacity : 1 ≤ a.capacity ∧ a.capacity ≤ 960
  reserve : a.reserve ≤ 96

/-- The fields of a TARIFF SET lie in their ranges (R152, step 1). -/
structure TariffSetInRange (a : TariffSetArgs) : Prop where
  index : a.index ≤ 15
  price : a.price ≠ 0
  multiplier : 16 ≤ a.multiplier ∧ a.multiplier ≤ 64
  discounts : a.disc1 ≤ 100 ∧ a.disc2 ≤ 100 ∧ a.disc3 ≤ 100
  thresholds : 0 < a.t1 ∧ a.t1 < a.t2 ∧ a.t2 < a.t3
  credit : a.creditFactor ≤ 8
  rounding : a.rounding ≤ 2
  late : a.lateWindow ≤ 2880 ∧ a.latePercent ≤ 100

/-- The fields of a PROBE CONFIG lie in their ranges (R112, step 1). -/
structure ProbeConfigInRange (a : ProbeConfigArgs) : Prop where
  count : 1 ≤ a.segments.length ∧ a.segments.length ≤ 5
  segment : ∀ g ∈ a.segments, g.first ≤ g.last ∧ 1 ≤ g.shadow ∧ g.shadow ≤ 64 ∧ g.threshold ≤ 4095
  rising : ∀ i g h, a.segments[i]? = some g → a.segments[i + 1]? = some h → g.last < h.first
  levels : a.silence ≤ 4095 ∧ a.breakThreshold ≤ 4095
  preMs : 1 ≤ a.preMs ∧ a.preMs ≤ 16

/-- The fields of a WATCH SET lie in their ranges (R140, step 1); the scope is the one its fields name. -/
structure WatchSetInRange (a : WatchSetArgs) (sc : Scope) : Prop where
  counter : a.counter ≤ 7
  event : a.event ≤ 10
  action : a.action ≤ 2
  scope : (a.scopeKind = 0 ∧ sc = .any) ∨
    (a.scopeKind = 1 ∧ ∃ p : PortIx, p.val = a.scopePort ∧ sc = .port p) ∨
    (a.scopeKind = 2 ∧ ∃ b : BookingIx, b.val = a.scopeBooking ∧ sc = .booking b) ∨
    (a.scopeKind = 3 ∧ ∃ b : BookingIx, b.val = a.scopeBooking ∧
      ((a.scopeLeg = 0 ∧ sc = .leg b .main) ∨ (a.scopeLeg = 1 ∧ sc = .leg b .backup)))
  exclude : a.action = 1 → a.scopeKind = 3
  probe : a.action = 2 → a.scopeKind = 1

/-! ## What an answer may change -/

/-- Nothing but what offering frames to control queues touches differs: the frames appended to control queues, the
sticky flags set and the first-fault capture latched (R56, R144). -/
structure OnlyAnswers (s t : State) : Prop where
  rest : t = { s with ports := t.ports, flags := t.flags, capture := t.capture }
  ports : ∀ p : PortIx, { t.port p with control := (s.port p).control } = s.port p
  control : ∀ p : PortIx, (s.port p).control <+: (t.port p).control
  flags : ∀ i : Fin 14, s.flags[i] = true → t.flags[i] = true
  capture : ∀ c, s.capture = some c → t.capture = some c

/-- A response was offered to the control queue of the port its request came on: appended with the instant, or, the
queue being full, lost with CONTROL_DROP raised (R56, R173). -/
def Answered (s t : State) (r : Req) (payload : List Byte) : Prop :=
  if (s.port r.port).control.length < controlQueueDepth then
    (t.port r.port).control = (s.port r.port).control ++ [{ payload := payload, enqueued := s.clock }] ∧
      (∀ q, q ≠ r.port → (t.port q).control = (s.port q).control) ∧ t.flags = s.flags ∧ t.capture = s.capture
  else (t.port r.port).control = (s.port r.port).control ∧ t.flags = s.flags.set FaultClass.controlDrop.ix true

/-- The raises `l` are those of `made`, each once, and those of one class in the order they were made (R109, R145). -/
def KeepsClassOrder (l made : List Raise) : Prop :=
  l.Perm made ∧ ∀ c : FaultClass, l.filter (fun x => decide (x.cls = c)) = made.filter (fun x => decide (x.cls = c))

/-- A request was answered, once, and its answer changed nothing else: `s` is the state with the request's effect, whose
raises the fault unit takes in some order of their classes, some of them before the response is offered and the others
after it (R145). Of an effect without raises, `t` is `s` with the one response offered. -/
def AnsweredOnly (s t : State) (r : Req) (code : Nat) (res : Result) (body : List Byte) : Prop :=
  ∃ (before after : List Raise) (u : State), KeepsClassOrder (before ++ after) s.raised ∧
    OnlyAnswers (s.takeRaises before) u ∧
    Answered (s.takeRaises before) u r (responsePayload code res r.tag body) ∧
    t = { u.takeRaises after with raised := [] }

/-- The port the request came on is of class OPERATOR. -/
def FromOperator (s : State) (r : Req) : Prop := (s.port r.port).cls = .operator

/-- The port the request came on may be answered: it is of class OBSERVER or OPERATOR. -/
def FromReader (s : State) (r : Req) : Prop := (s.port r.port).cls ≠ .none

end Sys2Proof.Machine
end

