-- ==== Sys2Proof/Certificates/Slice0/Obligations.lean ====
section
/-! DEFINITION. The statements for the provers. Each docstring names the rules of spec/ it formalises. -/

open Sys2Proof Sys2Proof.Machine Sys2Proof.Config

/-! ## The machine as a whole -/

/-- A step runs the command at the front of the queue, with the queue's rest behind it; with no command waiting a step
changes nothing. Both are the model's choice (log entry 5). -/
def Obligations.StepRunsFrontCommand : Prop :=
  (∀ (c : Instr) (rest : List Instr) (s : State),
    step { s with pending := c :: rest } = exec c { s with pending := rest }) ∧
  ∀ s : State, s.pending = [] → step s = .next s

/-- Every command, in every state, completes: no fault and no refusal, the queue is as it was, and no raise of it waits.
The queue of commands and the list of raises are the model's own (log entries 5 and 27), and that a command for an event
that is not there completes with nothing done is the model's choice (log entry 17). -/
def Obligations.EveryCommandCompletes : Prop :=
  ∀ (c : Instr) (s : State), ∃ t, exec c s = .next t ∧ t.pending = s.pending ∧ t.raised = []

/-- POWER_ON puts every block in its power-on state (the power-on values of R1, R7, R9, R25, R41, R49, R59, R80, R84,
R96, R111, R112, R130, R143, R151, R155, R163, R178); state after reset is that state with the straps low, which is
the model's choice (log entry 1). -/
def Obligations.PowerOnState : Prop :=
  (∀ (st : Straps) (s : State), ∃ t, exec (.powerOn st) s = .next t ∧ t.pending = s.pending ∧
    (∀ b : BookingIx, t.booking b = none) ∧ t.sec = 0 ∧ t.milli = 0 ∧ t.timeSet = false ∧ t.idleClose = 30 ∧
    t.restart = false ∧ t.scan = none ∧ t.waiting = [] ∧
    (∀ p : PortIx, (t.port p).settings =
        (.off, 960, 20, 0, if p = st.opport then .operator else .none, false) ∧
      (t.port p).link = .down ∧ (t.port p).goodRun = 0 ∧ (t.port p).badChecks = 0 ∧
      (t.port p).class1 = [] ∧ (t.port p).class2 = [] ∧ (t.port p).control = [] ∧ t.lastResults[p] = none) ∧
    t.flows = [] ∧ t.deferred = [] ∧ (∀ i : PatternIx, t.patterns[i] = none) ∧ t.silenceMs = 200 ∧
    t.identTimeout = 10 ∧ t.flight = none ∧ t.probeWaiting = [] ∧ t.probeCounter = 0 ∧
    t.probeConfig = { segments := [{ first := 0, last := 65535, exponent := 4, shadow := 8, threshold := 256 }],
                      silence := 64, preMs := 2, breakThreshold := 1024, q := 523 } ∧
    (∀ i : CounterIx, t.counter i = .initial) ∧ t.frozen = false ∧ (∀ i : Fin 14, t.flags[i] = false) ∧
    t.masks = defaultMasks ∧ t.capture = none ∧ (∀ i : TariffIx, t.tariffs[i] = none) ∧ t.bills = [] ∧
    t.billWaiting = [] ∧ t.startCause = .powerOn) ∧
  (∀ s : State, s.pending = [] → exec (.powerOn { node := 0, opport := 0, prbfit := 0 }) s = .next State.reset)

/-- R179: what the straps give, the control path after power-on, and that nothing but a power-on changes them. -/
def Obligations.StrapsReadAtPowerOn : Prop :=
  (∀ (st : Straps) (s : State), ∃ t, exec (.powerOn st) s = .next t ∧ t.straps = st ∧ t.noticePort = st.opport ∧
    (∀ p : PortIx, (t.port p).cls = if p = st.opport then .operator else .none) ∧
    (∀ p : PortIx, t.fitted p = st.prbfit.getLsbD p) ∧
    (∀ p : PortIx, (t.port p).control = [] ∧ (t.port p).link = .down) ∧ t.startCause = .powerOn ∧
    (∀ c : FaultClass, t.masks[c.ix] =
      decide (c ∈ [.legSilent, .excess, .overrunEntered, .admission, .probeDone]))) ∧
  (∀ (c : Instr) (s t : State), (∀ st, c ≠ .powerOn st) → exec c s = .next t →
    t.straps = s.straps ∧ (s.OperatorInv → t.OperatorInv) ∧
    ∀ p : PortIx, (∀ m, c ≠ .lightReturns m p) → (s.port p).link = .down → (t.port p).link = .down) ∧
  (∀ s : State, s.identity =
    enc16 30215 ++ enc16 1640 ++ enc8 1 ++ enc8 s.straps.node.val ++ enc8 s.startCause.code)

/-- The laws of the state hold after reset. -/
def Obligations.LawsHoldAtReset : Prop := State.reset.Inv

/-- Every step keeps the laws of the state: the control and media queues within their depths, media only on UP ports
with a role (R44, R55, R56); the admission and probe queues in form, no port with two probes (R25, R96); the billing
queue in form, every charge in range, no bill with a PENDING outage (R155, R159, R161); flow keys distinct (R62); an
OPERATOR port (R43). -/
def Obligations.StepsKeepTheLaws : Prop := ∀ s t : State, s.Inv → step s = .next t → t.Inv

/-- R31: the summed rate of the counted bookings never exceeds a port's capacity minus its reserve, in any second and
direction. It holds after reset, and every step keeps it, together with what ties the admission unit to the table. -/
def Obligations.CapacityBoundIsKept : Prop :=
  State.reset.CapacityInv ∧ (∀ s t : State, s.CapacityInv → step s = .next t → t.CapacityInv) ∧
    ∀ s : State, s.CapacityInv → s.LoadBound

/-- R163, R155: the queue holds exactly one bill for each CLOSED booking, and the waiting list names CLOSING ones, each at
most once. It holds after reset, and every step keeps it, from every state that keeps the booking table's laws. -/
def Obligations.QueueHoldsTheClosedBookings : Prop :=
  State.reset.BillsMatch ∧ (∀ s t : State, s.CapacityInv → step s = .next t → t.BillsMatch) ∧
    ∀ s : State, s.BillsMatch → ∀ b : BookingIx,
      s.bills.countP (fun x => decide (x.booking = b)) = (if s.stateOf b = some .closed then 1 else 0) ∧
      s.billWaiting.countP (fun x => decide (x.booking = b)) ≤ (if s.stateOf b = some .closing then 1 else 0)

/-- Section 1.3, R2, R3: one command takes a record only where the lifecycle's table lets it (power-on apart), and the
terms BOOK fixed keep their values until the record is FREE again. The table is kept from every state that keeps the
booking table's laws. -/
def Obligations.LifecycleIsTheTable : Prop :=
  (∀ (c : Instr) (s t : State) (b : BookingIx), (∀ st, c ≠ .powerOn st) → s.CapacityInv → exec c s = .next t →
    mayBecome (s.stateOf b) (t.stateOf b) = true) ∧
  ∀ (c : Instr) (s t : State) (b : BookingIx) (r r' : Booking), exec c s = .next t → s.booking b = some r →
    t.booking b = some r' → r'.fixedTerms = r.fixedTerms

/-- R62, with R32 and R60: a flow entry stands for each leg of an ARMED, LIVE or OVERRUN booking, its deferred legs
apart; two such bookings share a destination's port and label, and a leg waits deferred, only where the one is in its
after-window second and the other ARMED in the first second of its window. It holds after reset and every step keeps it,
but for a step taken in the last second before the count wraps, of which windows that end in it say nothing. -/
def Obligations.LabelsStayApart : Prop :=
  State.reset.LabelInv ∧
  (∀ s t : State, s.LabelInv → s.sec < 4294967295 → step s = .next t → t.LabelInv) ∧
  ∀ s : State, s.LabelInv →
    (∀ b r l lg, s.booking b = some r → r.state ∈ [.armed, .live, .overrun] → r.leg l = some lg → (b, l) ∉ s.deferred →
      ∃ e ∈ s.flows, e.port = lg.port ∧ e.label = lg.label ∧ e.booking = b ∧ e.leg = l) ∧
    (∀ e ∈ s.flows, ∃ r lg, s.booking e.booking = some r ∧ r.state ∈ [.armed, .live, .overrun] ∧
      r.leg e.leg = some lg ∧ e.port = lg.port ∧ e.label = lg.label) ∧
    (∀ b c x y d, b ≠ c → s.booking b = some x → s.booking c = some y → x.state ∈ [.armed, .live, .overrun] →
      y.state ∈ [.armed, .live, .overrun] → d ∈ x.dests.map (fun k => (k.port, k.label)) →
      d ∈ y.dests.map (fun k => (k.port, k.label)) → OneHandsOver x y s.sec ∨ OneHandsOver y x s.sec) ∧
    ∀ b l y lg, (b, l) ∈ s.deferred → s.booking b = some y → y.leg l = some lg →
      ∃ e x, s.flowOf lg.port lg.label = some e ∧ e.booking ≠ b ∧ s.booking e.booking = some x ∧
        OneHandsOver x y s.sec

/-- Each setting is written by its own request alone. A received frame may carry any request, so it stands apart, as
does power-on. -/
def Obligations.SettingsHaveOneWriter : Prop :=
  ∀ (c : Instr) (s t : State), (∀ st, c ≠ .powerOn st) → (∀ m p bytes, c ≠ .frameReceived m p bytes) →
    exec c s = .next t →
    ((∀ r a, c ≠ .timeSet r a) → (t.timeSet, t.idleClose) = (s.timeSet, s.idleClose) ∧
      ((∀ m, c ≠ .secondBoundary m) → t.sec = s.sec)) ∧
    ((∀ r a, c ≠ .portSet r a) → ∀ p : PortIx, (t.port p).settings = (s.port p).settings) ∧
    ((∀ r a, c ≠ .patternSet r a) →
      (t.patterns, t.silenceMs, t.identTimeout) = (s.patterns, s.silenceMs, s.identTimeout)) ∧
    ((∀ r a, c ≠ .probeConfig r a) → t.probeConfig = s.probeConfig) ∧
    ((∀ r a, c ≠ .tariffSet r a) → t.tariffs = s.tariffs) ∧
    ((∀ r a, c ≠ .faultMask r a) → t.masks = s.masks) ∧
    ((∀ r a, c ≠ .noticeSet r a) → t.noticePort = s.noticePort)

/-! ## The control channel (chapter 11) -/

/-- R168, R171, R172, the first steps of the refusal order: a request that arrives on a port of class NONE is discarded
unanswered; a request of good form that the table does not mark for OBSERVER is answered CLASS on an OBSERVER port; one
that is not of good form, or whose code is in no row of the table, is answered FORMAT under its code and tag; and nothing
else changes. -/
def Obligations.FormAndClassGateRequests : Prop :=
  (∀ (c : Instr) (r : Req) (s : State), c.sender = some r → (s.port r.port).cls = .none →
    exec c s = .next (s.advance r.m)) ∧
  (∀ (c : Instr) (r : Req) (code : Nat) (s : State), c.sender = some r → c.requestCode = some code →
    c.formed = true → (s.port r.port).cls = .observer → code ∉ [1, 9, 17, 29, 33, 41, 49, 57, 64, 72] →
    ∃ t, exec c s = .next t ∧ AnsweredOnly (s.advance r.m) t r code .cls []) ∧
  (∀ (c : Instr) (r : Req) (code : Nat) (s : State), c.sender = some r → c.requestCode = some code →
    c.formed = false → FromReader s r →
    ∃ t, exec c s = .next t ∧ AnsweredOnly (s.advance r.m) t r code .format []) ∧
  ∀ (r : Req) (code : Nat) (s : State), code < 128 → FromReader s r →
    ∃ t, exec (.unknownRequestCode r code) s = .next t ∧ AnsweredOnly (s.advance r.m) t r code .format []

/-- R23, R172: while a restart is in progress every request that changes state, other than BILL RELEASE, is refused and
changes nothing: STATE, unless an earlier step of the refusal order decides. -/
def Obligations.RestartRefusesChanges : Prop :=
  ∀ (c : Instr) (r : Req) (code : Nat) (s : State), c.sender = some r → c.requestCode = some code →
    c.formed = true → FromOperator s r → s.restart = true →
    code ∈ [2, 3, 8, 16, 24, 25, 26, 27, 28, 32, 40, 48, 50, 56, 58, 65, 66] →
    ∃ t res, exec c s = .next t ∧ AnsweredOnly (s.advance r.m) t r code res [] ∧
      (res = .range ∨ res = .state ∨ (code = 24 ∧ res = .timeUnset))

/-- R172, R173: every request of a row of the table, from a port that may be answered, gets one response on that port: its
effect leaves every control queue as it was, and the flags and the capture but for FAULT CLEAR and FAULT READ, and beside
the response only the raises of the effect add to them, in any order with it (R145; log entries 4 and 27). A refusal (a
result code of 16 or more) carries no body and changes nothing. -/
def Obligations.EveryRequestIsAnswered : Prop :=
  ∀ (c : Instr) (r : Req) (code : Nat) (s : State), c.sender = some r → c.requestCode = some code →
    FromReader s r → ∃ t u res body, exec c s = .next t ∧ AnsweredOnly u t r code res body ∧
      u.clock = s.clock + r.m.dt ∧ (∀ p, (u.port p).control = (s.port p).control) ∧
      (code ≠ 65 → u.flags = s.flags) ∧ (code ≠ 64 → u.capture = s.capture) ∧
      (16 ≤ res.code → u = s.advance r.m ∧ body = [])

/-- R168, R173: a CONTROL frame with a good check on a lit port is taken as the request its payload is, at the instant
it arrives, after the port has counted it; one from a port of class NONE, or that is no request, does nothing more. Each
raise of the count is taken before the request or after it, as the moment has it, after it where the moment names none
(R145; log entry 4). -/
def Obligations.ControlFrameRunsItsRequest : Prop :=
  ∀ (m : Moment) (p : PortIx) (bytes : List Byte) (f : Frame) (s : State), (s.port p).lit = true →
    readFrame bytes = some f → f.kind = .control →
    let u := ((s.advance m).setPort p (s.port p).goodFrame).watch m
      (frameEvent .rxFrames p none (headerBits bytes) 1)
    (∀ c, (s.port p).cls ≠ .none → Wire.request p m.still f.payload = some c →
      ∃ early late, KeepsClassOrder (early ++ late) u.raised ∧
        (m.beforeRequest = [] → early = []) ∧
        (∀ l l', KeepsClassOrder (l ++ l') u.raised → m.beforeRequest = l.map (fun x => x.cls.number) → early = l) ∧
        let v := { u.takeRaises early with raised := late }
        exec (.frameReceived m p bytes) s = .next ((v.takeCommand c).flush m) ∧
        (late = [] → exec (.frameReceived m p bytes) s = exec c v)) ∧
    ((s.port p).cls = .none ∨ Wire.request p m.still f.payload = none →
      exec (.frameReceived m p bytes) s = .next (u.flush m))

/-- R169 to R171: the payload of every well-formed request of a row of the table reads back as that request, with every
field at every value its width admits. Sections 11.2 and 11.4, R175: the head of a response, the result codes, and the
length of a notice with no detail, a watch counter's and an admission's. -/
def Obligations.RequestsReadBack : Prop :=
  (∀ (c : Instr) (r : Req) (code : Nat), c.sender = some r → c.requestCode = some code → c.formed = true →
    c.wf = true → Wire.request r.port r.m (requestPayload code r.tag (requestBody c)) = some c) ∧
  (∀ (code : Nat) (res : Result) (tag : BitVec 16) (body : List Byte), code < 128 →
    responsePayload code res tag body =
      [BitVec.ofNat 8 (code + 128), BitVec.ofNat 8 res.code, tag.extractLsb' 8 8, tag.extractLsb' 0 8] ++ body) ∧
  ([Result.ok, .accepted, .clamped, .empty, .format, .cls, .range, .timeUnset, .state, .inUse, .noRoom, .busy,
      .liveFibre, .unavailable].map Result.code = [0, 1, 2, 3, 16, 17, 18, 19, 20, 21, 22, 23, 26, 27]) ∧
  (∀ (c : FaultClass) (it : RaiseItems) (sec ms : Nat) (ts : Bool) (i : CounterIx) (e : Bool) (o q v : Nat),
    (noticePayload c it sec ms ts none).length = 18 ∧
    (noticePayload c it sec ms ts (some (.watch i))).length = 19 ∧
    (noticePayload c it sec ms ts (some (.admission e o q v))).length = 25 ∧
    (noticePayload c it sec ms ts none).take 4 = [255, BitVec.ofNat 8 c.number, 0, 0])

/-! ## Device, time and port requests -/

/-- R177: IDENTIFY answers OK with the identity, from OBSERVER and OPERATOR ports and during a restart; the start cause
it reports becomes NONE within the same event (R178). -/
def Obligations.IdentifyReportsTheIdentity : Prop :=
  ∀ (r : Req) (s : State), FromReader s r → ∃ t, exec (.identify r (some ())) s = .next t ∧
    AnsweredOnly { s.advance r.m with startCause := .none } t r 1 .ok
      (enc16 30215 ++ enc16 1640 ++ enc8 1 ++ enc8 s.straps.node.val ++
        enc8 (match s.startCause with
              | .none => 0
              | .powerOn => 1
              | .restart => 2))

/-- R23, R109: an accepted RESTART sets restart-in-progress, marks every ARMED, LIVE and OVERRUN record and ends every
probe ABORTED, the one in flight first and then the waiting ones from the head back, each with its PROBE_DONE, which the
fault unit takes in that order; a second one, or one without room for the bills, is refused. -/
def Obligations.RestartIsAccepted : Prop :=
  ∀ (r : Req) (s : State), FromOperator s r →
    (s.restart = true → ∃ t, exec (.restart r (some ())) s = .next t ∧
      AnsweredOnly (s.advance r.m) t r 2 .state []) ∧
    (s.restart = false →
      64 - s.bills.length < s.countBookings (fun x => decide (x.state ∈ [.armed, .live, .overrun, .closing])) →
      ∃ t, exec (.restart r (some ())) s = .next t ∧ AnsweredOnly (s.advance r.m) t r 2 .noRoom []) ∧
    (s.restart = false →
      s.countBookings (fun x => decide (x.state ∈ [.armed, .live, .overrun, .closing])) ≤ 64 - s.bills.length →
      ∃ t u, exec (.restart r (some ())) s = .next t ∧ AnsweredOnly u t r 2 .ok [] ∧ KeepsSettings s t ∧
        t.restart = true ∧ t.flight = none ∧ t.probeWaiting = [] ∧ t.probeCounter = s.probeCounter ∧
        u.raised.filter (fun x => decide (x.cls = .probeDone)) =
          ((s.flight.map (·.port)).toList ++ s.probeWaiting.map (·.port)).map (fun p =>
          { cls := .probeDone, items := { port := some p, booking := none, leg := none }, detail := none }) ∧
        t.sec = s.sec ∧ t.startCause = s.startCause ∧ t.flows = s.flows ∧
        (∀ p ∈ s.probedPorts, ∃ x, t.lastResults[p] = some x ∧ x.outcome = .aborted ∧ x.peaks = []) ∧
        (∀ p : PortIx, p ∉ s.probedPorts → t.lastResults[p] = s.lastResults[p]) ∧
        ∀ (b : BookingIx) (x : Booking), s.booking b = some x → ∃ y, t.booking b = some y ∧
          y.fixedTerms = x.fixedTerms ∧
          y.restartClose = (x.restartClose || decide (x.state ∈ [.armed, .live, .overrun])) ∧
          (x.state ≠ .closing → y.state = x.state))

/-- R24, R40, R130, R143, R178: a restart completes at the first boundary at which no booking is ARMED, LIVE, OVERRUN or
CLOSING: one that finds none at its start, and one that closes the last ones, marked at the acceptance, settled and with
room for their bills (R17, R23); there no watch counter has an action. Nothing is said of the L of a bill where the second
count wrapped while the booking was LIVE (log entry 31). -/
def Obligations.RestartCompletes : Prop :=
  (∀ (m : Moment) (s : State), s.restart = true →
    (∀ (b : BookingIx) (x : Booking), s.booking b = some x → x.state ∉ [.armed, .live, .overrun, .closing]) →
    ∃ t, exec (.secondBoundary m) s = .next t ∧ RestartDone s t ∧
      (∀ b : BookingIx, t.booking b = (s.booking b).bind fun x =>
        if x.state = .closed then
          some (if x.extendPending then { x with extendPending := false, lastExtend := some .state } else x)
        else none) ∧
      t.bills = s.bills ∧ t.billWaiting = s.billWaiting) ∧
  ∀ (m : Moment) (s : State), s.restart = true → s.NoActions → s.billWaiting = [] →
    (∀ (b : BookingIx) (x : Booking), s.booking b = some x → x.state ≠ .closing ∧
      (x.state ∈ [.armed, .live, .overrun] → x.restartClose = true ∧ x.settled = true)) →
    s.bills.length + s.countBookings (fun x => decide (x.state ∈ [.armed, .live, .overrun])) ≤ 64 →
    ∃ t, exec (.secondBoundary m) s = .next t ∧ RestartDone s t ∧ t.billWaiting = [] ∧ s.bills <+: t.bills ∧
      t.bills.length = s.bills.length + s.countBookings (fun x => decide (x.state ∈ [.armed, .live, .overrun])) ∧
      ∀ b : BookingIx,
        (∀ x, s.booking b = some x → x.state ∈ [.armed, .live, .overrun] →
          ∃ y, t.booking b = some y ∧ y.fixedTerms = x.fixedTerms ∧ y.state = .closed ∧ y.cut = some .restart ∧
            y.closeSecond = some s.nextSecond ∧ ∃ k ∈ t.bills, BilledAs b y (t.tariff y.tariff) k) ∧
        (∀ x, s.booking b = some x → x.state = .closed → t.booking b =
          some (if x.extendPending then { x with extendPending := false, lastExtend := some .state } else x)) ∧
        (s.stateOf b ∉ [some .armed, some .live, some .overrun, some .closed] → t.booking b = none)

/-- R176: NOTICE SET, the notice port after power-on and across a restart, and where a raise's notice goes. -/
def Obligations.NoticeSetNamesTheNoticePort : Prop :=
  (∀ (r : Req) (n : Nat) (s : State), FromOperator s r →
    (15 < n → ∃ t, exec (.noticeSet r (some n)) s = .next t ∧ AnsweredOnly (s.advance r.m) t r 3 .range []) ∧
    (n ≤ 15 → s.restart = true → ∃ t, exec (.noticeSet r (some n)) s = .next t ∧
      AnsweredOnly (s.advance r.m) t r 3 .state []) ∧
    (∀ p : PortIx, p.val = n → s.restart = false → ∃ t, exec (.noticeSet r (some n)) s = .next t ∧
      AnsweredOnly { s.advance r.m with noticePort := p } t r 3 .ok [])) ∧
  (∀ (r : Req) (n : Nat) (s : State), (s.port r.port).cls = .observer →
    ∃ t, exec (.noticeSet r (some n)) s = .next t ∧ AnsweredOnly (s.advance r.m) t r 3 .cls []) ∧
  (∀ (st : Straps) (s : State), ∃ t, exec (.powerOn st) s = .next t ∧ t.noticePort = st.opport) ∧
  (∀ (s t : State), (∃ r b, exec (.restart r b) s = .next t) ∨ (∃ m, exec (.secondBoundary m) s = .next t) →
    t.noticePort = s.noticePort) ∧
  (∀ (x : Raise) (s : State), s.masks[x.cls.ix] = false → (s.port s.noticePort).control.length < 16 →
    ((s.takeRaise x).port s.noticePort).control = (s.port s.noticePort).control ++
        [{ payload := noticePayload x.cls x.items s.sec s.milli s.timeSet x.detail, enqueued := s.clock }] ∧
      ∀ q, q ≠ s.noticePort → (s.takeRaise x).port q = s.port q)

/-- R8: TIME SET. -/
def Obligations.TimeSetLoadsTheTime : Prop :=
  ∀ (r : Req) (a : TimeSetArgs) (s : State), FromOperator s r →
    (999 < a.ms → ∃ t, exec (.timeSet r (some a)) s = .next t ∧ AnsweredOnly (s.advance r.m) t r 8 .range []) ∧
    (a.ms ≤ 999 → s.restart = true → ∃ t, exec (.timeSet r (some a)) s = .next t ∧
      AnsweredOnly (s.advance r.m) t r 8 .state []) ∧
    (a.ms ≤ 999 → s.restart = false →
      (∃ b x, s.booking b = some x ∧ x.state ∈ [.pending, .armed, .live, .overrun, .closing]) →
      ∃ t, exec (.timeSet r (some a)) s = .next t ∧ AnsweredOnly (s.advance r.m) t r 8 .inUse []) ∧
    (a.ms ≤ 999 → s.restart = false →
      (∀ b x, s.booking b = some x → x.state ∉ [.pending, .armed, .live, .overrun, .closing]) →
      ∃ t u, exec (.timeSet r (some a)) s = .next t ∧
        AnsweredOnly u t r 8 (if 5 ≤ a.idleClose ∧ a.idleClose ≤ 300 then .ok else .clamped) [] ∧
        u.sec = a.sec ∧ u.milli = a.ms ∧ u.timeSet = true ∧ u.idleClose = max 5 (min 300 a.idleClose) ∧
        u = { s.advance r.m with sec := u.sec, sub := u.sub, timeSet := true, idleClose := u.idleClose })

/-- R9: TIME READ, and the time after power-on. The millisecond count is read off the reference clock, to which the moment
adds its time, and stands at 999 while a boundary is due; that, and the clock's start, are the model's choice (log
entries 3 and 20). -/
def Obligations.TimeReadReportsTheTime : Prop :=
  (∀ (r : Req) (s : State), FromReader s r → ∃ t, exec (.timeRead r (some ())) s = .next t ∧
    AnsweredOnly (s.advance r.m) t r 9 .ok
      (encBool s.timeSet ++ enc32 s.sec ++ enc16 (min 999 ((s.sub + r.m.dt) / 10000000)) ++ enc32 s.idleClose)) ∧
  (∀ (st : Straps) (s : State), ∃ t, exec (.powerOn st) s = .next t ∧ t.idleClose = 30 ∧ t.timeSet = false ∧
    t.sec = 0 ∧ t.sub = 0 ∧ t.clock = 0)

/-- R43, R44, R109: PORT SET, in its refusal order; accepted, it writes the six settings, and a role that becomes OFF empties
the port's media queues, each copy an egress drop (R55, R73), and ends its probe, in flight or waiting, ABORTED, with every cause pending on it UNKNOWN; there no
watch counter has an action. That any other role leaves queued media where they are, VENUE too, is the model's choice (log
entry 29). -/
def Obligations.PortSetWritesTheSettings : Prop :=
  ∀ (r : Req) (a : PortSetArgs) (s : State) (p : PortIx), FromOperator s r →
    (¬ PortSetInRange a → ∃ t, exec (.portSet r (some a)) s = .next t ∧
      AnsweredOnly (s.advance r.m) t r 16 .range []) ∧
    (PortSetInRange a → s.restart = true → ∃ t, exec (.portSet r (some a)) s = .next t ∧
      AnsweredOnly (s.advance r.m) t r 16 .state []) ∧
    (PortSetInRange a → p.val = a.port → s.restart = false →
      let changes := a.capacity ≠ (s.port p).capacity ∨ a.reserve ≠ (s.port p).reserve ∨ a.role ≠ (s.port p).role.code
      let used := ∃ b x, s.booking b = some x ∧ x.usesPort p = true ∧
        x.state ∈ [.pending, .confirmed, .armed, .live, .overrun, .closing]
      let last := a.cls ≠ 2 ∧ ∀ q : PortIx, q ≠ p → (s.port q).cls ≠ .operator
      (changes ∧ used → ∃ t, exec (.portSet r (some a)) s = .next t ∧
        AnsweredOnly (s.advance r.m) t r 16 .inUse []) ∧
      (¬ (changes ∧ used) → last → ∃ t, exec (.portSet r (some a)) s = .next t ∧
        AnsweredOnly (s.advance r.m) t r 16 .state []) ∧
      (¬ (changes ∧ used) → ¬ last → ∃ t u, exec (.portSet r (some a)) s = .next t ∧
        AnsweredOnly u t r 16 .ok [] ∧
        (∃ role cls, Role.ofCode a.role = some role ∧ ControlClass.ofCode a.cls = some cls ∧
          (t.port p).settings = (role, a.capacity, a.reserve, a.demarcation, cls, a.autoProbe) ∧
          (role = .off → (s.port p).role ≠ .off → (t.port p).class1 = [] ∧ (t.port p).class2 = []) ∧
          (role ≠ .off ∨ (s.port p).role = .off → u = (s.advance r.m).setPort p
            { s.port p with role := role, capacity := a.capacity, reserve := a.reserve, demarcation := a.demarcation,
                            cls := cls, autoProbe := a.autoProbe })) ∧
        (∀ q, q ≠ p → (t.port q).settings = (s.port q).settings) ∧ (t.port p).link = (s.port p).link ∧
        (a.role = 0 → (s.port p).role ≠ .off → MediaDropped s t p) ∧
        (s.NoActions → a.role = 0 → (s.port p).role ≠ .off →
          let settles := fun (n : ProbeNo) => ∀ b x, s.booking b = some x → ∃ y, t.booking b = some y ∧
            y.outage = x.outage.map fun o => o.settledAs n { value := .unknown, brk := none }
          (∀ f, s.flight = some f → f.port = p → ProbeEnded s t f (.bare .aborted) ∧ settles f.number) ∧
          (∀ w ∈ s.probeWaiting, w.port = p → s.ProbeInv → t.flight = s.flight ∧
            t.probeWaiting = s.probeWaiting.filter (fun v => decide (v.port ≠ p)) ∧
            t.flags[FaultClass.probeDone.ix] = true ∧
            t.lastResults[p] = some { number := w.number, outcome := .aborted, peaks := [], breakDistance := none,
                                      second := s.sec, timeSet := s.timeSet } ∧ settles w.number) ∧
          (s.probeOf p = none → t.flight = s.flight ∧ t.probeWaiting = s.probeWaiting ∧
            t.lastResults = s.lastResults))))

/-- R45, R84, R113, R141, R153: the reads of a port, a pattern, a tariff, the reflectometer and the watch counters
answer OK with what stands and change nothing, during a restart too; a number out of range is refused RANGE. The bodies
are the fields of R170 in its order and in the widths of R169, among them the model's readings of log entries 7, 8
and 18. -/
def Obligations.ReadsChangeNothing : Prop :=
  ∀ (r : Req) (s : State), FromReader s r →
    (∀ p : PortIx, ∃ t, exec (.portRead r (some p.val)) s = .next t ∧
      AnsweredOnly (s.advance r.m) t r 17 .ok (bytesOf (s.portFields p))) ∧
    (∀ i : PatternIx, ∃ t, exec (.patternRead r (some i.val)) s = .next t ∧
      AnsweredOnly (s.advance r.m) t r 33 .ok (bytesOf (s.patternFields i))) ∧
    (∀ i : TariffIx, ∃ t, exec (.tariffRead r (some i.val)) s = .next t ∧
      AnsweredOnly (s.advance r.m) t r 41 .ok (bytesOf (s.tariffFields i))) ∧
    (∀ p : PortIx, ∃ t, exec (.probeRead r (some (some p.val))) s = .next t ∧
      AnsweredOnly (s.advance r.m) t r 49 .ok (bytesOf (s.probePortFields p))) ∧
    (∃ t, exec (.probeRead r (some none)) s = .next t ∧
      AnsweredOnly (s.advance r.m) t r 49 .ok (bytesOf s.probeAllFields)) ∧
    (∀ i : CounterIx, ∃ t, exec (.watchRead r (some (some i.val))) s = .next t ∧
      AnsweredOnly (s.advance r.m) t r 57 .ok (bytesOf (s.watchFields [i]))) ∧
    (∃ t, exec (.watchRead r (some none)) s = .next t ∧
      AnsweredOnly (s.advance r.m) t r 57 .ok (bytesOf (s.watchFields (List.finRange 8)))) ∧
    (∀ n, 15 < n → ∃ t, exec (.portRead r (some n)) s = .next t ∧ AnsweredOnly (s.advance r.m) t r 17 .range []) ∧
    (∀ n, 31 < n → ∃ t, exec (.patternRead r (some n)) s = .next t ∧ AnsweredOnly (s.advance r.m) t r 33 .range []) ∧
    (∀ n, 15 < n → ∃ t, exec (.tariffRead r (some n)) s = .next t ∧ AnsweredOnly (s.advance r.m) t r 41 .range []) ∧
    (∀ n, 15 < n → ∃ t, exec (.probeRead r (some (some n))) s = .next t ∧
      AnsweredOnly (s.advance r.m) t r 49 .range []) ∧
    (∀ n, 7 < n → ∃ t, exec (.watchRead r (some (some n))) s = .next t ∧
      AnsweredOnly (s.advance r.m) t r 57 .range [])

/-! ## Booking requests (chapter 1) -/

/-- R10, R26, R28: BOOK, in its refusal order; accepted, it takes the lowest FREE record, writes the request's fields with
every optional field absent, the destinations' drop and residency counts among them, its legs IDLE with no exclusion and no
timer running, and hands its entry to the admission unit. That an ident policy code or a protection mode code above 2, which
step 1 of R10 does not list, is refused RANGE is the model's reading of R169 and R172 (log entry 16). -/
def Obligations.BookAllocatesTheLowestRecord : Prop :=
  ∀ (r : Req) (a : BookArgs) (s : State), FromOperator s r →
    (¬ BookInRange a s → ∃ t, exec (.book r (some a)) s = .next t ∧ AnsweredOnly (s.advance r.m) t r 24 .range []) ∧
    (BookInRange a s → s.timeSet = false → ∃ t, exec (.book r (some a)) s = .next t ∧
      AnsweredOnly (s.advance r.m) t r 24 .timeUnset []) ∧
    (BookInRange a s → s.timeSet = true → s.restart = true → ∃ t, exec (.book r (some a)) s = .next t ∧
      AnsweredOnly (s.advance r.m) t r 24 .state []) ∧
    (BookInRange a s → s.timeSet = true → s.restart = false → (∀ b : BookingIx, s.booking b ≠ none) →
      ∃ t, exec (.book r (some a)) s = .next t ∧ AnsweredOnly (s.advance r.m) t r 24 .noRoom []) ∧
    (BookInRange a s → s.timeSet = true → s.restart = false → (∃ b : BookingIx, s.booking b = none) →
      4 ≤ s.waiting.length → ∃ t, exec (.book r (some a)) s = .next t ∧
        AnsweredOnly (s.advance r.m) t r 24 .busy []) ∧
    (∀ b : BookingIx, BookInRange a s → s.timeSet = true → s.restart = false → s.booking b = none →
      (∀ i, i < b → s.booking i ≠ none) → s.waiting.length < 4 →
      ∃ t u x, exec (.book r (some a)) s = .next t ∧ AnsweredOnly u t r 24 .accepted [BitVec.ofNat 8 b.val] ∧
        u = { s.advance r.m with bookings := u.bookings, scan := u.scan, waiting := u.waiting } ∧
        u.booking b = some x ∧ (∀ i, i ≠ b → u.booking i = s.booking i) ∧ x.state = .pending ∧
        x.fixedTerms = ([a.customer, a.tariff, a.rate, a.start, a.finish, a.armLead],
          a.legs.map (fun l => (portIx l.port, l.label, l.pattern.map patternIx,
            (IdentPolicy.ofCode l.policy).getD .none)),
          a.dests.map (fun d => (portIx d.port, d.label))) ∧
        x.allowance = a.allowance ∧
        x.mode = (match a.mode with
                  | none => .merge
                  | some c => (ProtectionMode.ofCode c).getD .merge) ∧
        (x.closeReq, x.cancelReq, x.extendPending, x.restartClose) = (none, false, false, false) ∧
        (x.liveFrom, x.liveTo, x.overrunFrom, x.closeSecond) = (none, none, none, none) ∧
        (x.cut, x.detail, x.lastExtend, x.merge, x.outage) = (none, none, none, none, none) ∧
        (∀ l ∈ x.legs, l.state = .idle ∧ l.ident = none ∧ l.identAt = none ∧ l.silenceAt = none ∧
          (l.exIdent, l.exWatch, l.exManual) = (false, false, false)) ∧
        (∀ d ∈ x.dests, d.account = none) ∧
        (s.scan = none → u.waiting = s.waiting ∧ u.scan = some
          { entry := { kind := .book, booking := b, void := false },
            candidate := { rate := a.rate, lo := a.start - a.armLead, hi := a.finish + a.allowance,
                           legs := a.legs.map (fun l => (portIx l.port, l.label)),
                           dests := a.dests.map (fun d => (portIx d.port, d.label)) },
            visited := 0, seen := [] }) ∧
        (s.scan ≠ none → u.scan = (s.advance r.m).scan ∧
          u.waiting = s.waiting ++ [{ kind := .book, booking := b, void := false }]))

/-- R19, R154, R160, R161: CANCEL by the record's state: PENDING marked, CONFIRMED freed or late-cancelled with its bill,
ARMED and LIVE asked to close, every other state refused. The response's body is the optional indication of R169 and
R170; that FREED is 0 and LATE_CANCEL 1, and that it is absent for a record that was not CONFIRMED, is the model's reading
(log entry 18). -/
def Obligations.CancelActsByTheState : Prop :=
  ∀ (r : Req) (b : BookingIx) (s : State), FromOperator s r → s.restart = false →
    (∀ n, 255 < n → ∃ t, exec (.cancel r (some n)) s = .next t ∧ AnsweredOnly (s.advance r.m) t r 25 .range []) ∧
    (s.stateOf b ∉ [some .pending, some .confirmed, some .armed, some .live] →
      ∃ t, exec (.cancel r (some b.val)) s = .next t ∧ AnsweredOnly (s.advance r.m) t r 25 .state []) ∧
    (∀ x, s.booking b = some x →
      (x.state = .pending → ∃ t, exec (.cancel r (some b.val)) s = .next t ∧
        AnsweredOnly ((s.advance r.m).setBooking b (some { x with cancelReq := true })) t r 25 .ok [0, 0]) ∧
      (x.state = .confirmed → ¬ (x.start : Int) - s.sec < (s.tariff x.tariff).lateWindow * 60 →
        ∃ t u, exec (.cancel r (some b.val)) s = .next t ∧ AnsweredOnly u t r 25 .ok [1, 0] ∧
          u = { s.advance r.m with bookings := u.bookings, scan := u.scan, waiting := u.waiting } ∧
          u.booking b = none ∧ (∀ i, i ≠ b → u.booking i = s.booking i) ∧
          ∀ e ∈ u.entries, e.kind ≠ .book → e.booking = b → e.void = true) ∧
      (x.state = .confirmed → (x.start : Int) - s.sec < (s.tariff x.tariff).lateWindow * 60 → x.outage = none →
        (∀ w ∈ s.billWaiting, w.booking ≠ b) →
        ∃ t u y, exec (.cancel r (some b.val)) s = .next t ∧ AnsweredOnly u t r 25 .ok [1, 1] ∧
          u.booking b = some y ∧ y = { x with state := y.state, cut := some .lateCancel, closeSecond := some s.sec } ∧
          (s.bills.length < 64 → y.state = .closed ∧ ∃ k, u.bills = s.bills ++ [k] ∧
            LateCancelBilled b x (s.tariff x.tariff) s.sec k ∧ u.billWaiting = s.billWaiting) ∧
          (64 ≤ s.bills.length → y.state = .closing ∧ ∃ k, u.billWaiting = s.billWaiting ++ [k] ∧
            LateCancelBilled b x (s.tariff x.tariff) s.sec k ∧ u.bills = s.bills ∧ t.flags[FaultClass.billWait.ix] = true)) ∧
      (x.state = .armed ∨ x.state = .live → ∃ t, exec (.cancel r (some b.val)) s = .next t ∧
        AnsweredOnly ((s.advance r.m).setBooking b (some { x with
          closeReq := some (x.closeReq.getD (if x.state = .armed then .cancelledArmed else .closedEarly)) }))
          t r 25 .ok [0, 0]))

/-- R20: CLOSE. Its refusals are those of R20 and of R23, during a restart. -/
def Obligations.CloseAsksForTheBoundary : Prop :=
  ∀ (r : Req) (b : BookingIx) (s : State), FromOperator s r →
    (∀ n, 255 < n → ∃ t, exec (.close r (some n)) s = .next t ∧ AnsweredOnly (s.advance r.m) t r 26 .range []) ∧
    (s.restart = true ∨ s.stateOf b ∉ [some .armed, some .live, some .overrun] →
      ∃ t, exec (.close r (some b.val)) s = .next t ∧ AnsweredOnly (s.advance r.m) t r 26 .state []) ∧
    (∀ x, s.restart = false → s.booking b = some x → x.state ∈ [.armed, .live, .overrun] →
      ∃ t, exec (.close r (some b.val)) s = .next t ∧
        AnsweredOnly ((s.advance r.m).setBooking b (some { x with
          closeReq := match x.closeReq, x.state with
                      | some held, _ => some held
                      | none, .armed => some .cancelledArmed
                      | none, .live => some .closedEarly
                      | none, _ => some .closed })) t r 26 .ok [])

/-- R21, R26: EXTEND, its refusals in order, of a FREE record and of an index above 255 too; accepted, extend-pending is
set and the admission with the new total, clamped at 7,200, is handed over. -/
def Obligations.ExtendHandsOverTheTotal : Prop :=
  (∀ (r : Req) (i n : Nat) (s : State), FromOperator s r → 255 < i →
    ∃ t, exec (.extend r (some { index := i, seconds := n })) s = .next t ∧
      AnsweredOnly (s.advance r.m) t r 27 .range []) ∧
  (∀ (r : Req) (b : BookingIx) (n : Nat) (s : State), FromOperator s r → s.booking b = none →
    ∃ t, exec (.extend r (some { index := b.val, seconds := n })) s = .next t ∧
      AnsweredOnly (s.advance r.m) t r 27 (if 1 ≤ n ∧ n ≤ 7200 then .state else .range) []) ∧
  ∀ (r : Req) (b : BookingIx) (n : Nat) (x : Booking) (s : State), FromOperator s r → s.booking b = some x →
    let total := min 7200 (x.allowance + n)
    let inRange := 1 ≤ n ∧ n ≤ 7200 ∧ x.finish + total ≤ 4294967295
    let open_ := x.state ∈ [.confirmed, .armed, .live, .overrun] ∧ x.closeReq = none ∧ x.extendPending = false
    (¬ inRange → ∃ t, exec (.extend r (some { index := b.val, seconds := n })) s = .next t ∧
      AnsweredOnly (s.advance r.m) t r 27 .range []) ∧
    (inRange → s.restart = true ∨ ¬ open_ → ∃ t, exec (.extend r (some { index := b.val, seconds := n })) s = .next t ∧
      AnsweredOnly (s.advance r.m) t r 27 .state []) ∧
    (inRange → s.restart = false → open_ → 4 ≤ s.waiting.length →
      ∃ t, exec (.extend r (some { index := b.val, seconds := n })) s = .next t ∧
        AnsweredOnly (s.advance r.m) t r 27 .busy []) ∧
    (inRange → s.restart = false → open_ → s.waiting.length < 4 →
      let clamped := decide (7200 < x.allowance + n)
      let entry : AdmissionEntry := { kind := .extend total clamped, booking := b, void := false }
      ∃ t u, exec (.extend r (some { index := b.val, seconds := n })) s = .next t ∧
        AnsweredOnly u t r 27 (if clamped then .clamped else .accepted) [] ∧
        u = { (s.advance r.m).setBooking b (some { x with extendPending := true }) with
              scan := u.scan, waiting := u.waiting } ∧
        (s.scan = none → u.waiting = s.waiting ∧
          u.scan = some { entry := entry, candidate := x.claim total, visited := 0, seen := [] }) ∧
        (s.scan ≠ none → u.scan = (s.advance r.m).scan ∧ u.waiting = s.waiting ++ [entry]))

/-- R82, R83: MODE, its refusals in order, of a FREE record and of an index above 255 too; accepted, the mode is written
and, in ARMED, LIVE or OVERRUN, the MANUAL and WATCH exclusions of both legs change as one event. -/
def Obligations.ModeWritesTheMode : Prop :=
  (∀ (r : Req) (i c : Nat) (s : State), FromOperator s r → 255 < i →
    ∃ t, exec (.mode r (some { index := i, mode := c })) s = .next t ∧ AnsweredOnly (s.advance r.m) t r 28 .range []) ∧
  (∀ (r : Req) (b : BookingIx) (c : Nat) (s : State), FromOperator s r → s.booking b = none →
    ∃ t, exec (.mode r (some { index := b.val, mode := c })) s = .next t ∧
      AnsweredOnly (s.advance r.m) t r 28 (if c ≤ 2 then .state else .range) []) ∧
  ∀ (r : Req) (b : BookingIx) (c : Nat) (x : Booking) (s : State), FromOperator s r → s.booking b = some x →
    let inRange := c ≤ 2 ∧ (c = 2 → x.backup ≠ none)
    (¬ inRange → ∃ t, exec (.mode r (some { index := b.val, mode := c })) s = .next t ∧
      AnsweredOnly (s.advance r.m) t r 28 .range []) ∧
    (inRange → s.restart = true ∨ x.state ∉ [.pending, .confirmed, .armed, .live, .overrun] →
      ∃ t, exec (.mode r (some { index := b.val, mode := c })) s = .next t ∧
        AnsweredOnly (s.advance r.m) t r 28 .state []) ∧
    (∀ md, inRange → s.restart = false → ProtectionMode.ofCode c = some md → x.state ∈ [.pending, .confirmed] →
      ∃ t, exec (.mode r (some { index := b.val, mode := c })) s = .next t ∧
        AnsweredOnly ((s.advance r.m).setBooking b (some { x with mode := md })) t r 28 .ok []) ∧
    (∀ md, inRange → s.restart = false → ProtectionMode.ofCode c = some md → x.state ∈ [.armed, .live, .overrun] →
      ∃ t u y, exec (.mode r (some { index := b.val, mode := c })) s = .next t ∧ AnsweredOnly u t r 28 .ok [] ∧
        KeepsSettings s t ∧ u.booking b = some y ∧ y.mode = md ∧ y.state = x.state ∧
        y.main = { x.main with exManual := decide (md = .backupOnly), exWatch := false } ∧
        y.backup = x.backup.map (fun l => { l with exManual := decide (md = .mainOnly), exWatch := false }) ∧
        (∀ i, i ≠ b → u.booking i = s.booking i) ∧ u.flows = s.flows ∧
        (x.state ≠ .armed → x.outage ≠ none → ∃ o, y.outage = some o ∧ o.flag = !y.anyUsable))

/-- R22: BOOKING READ reports the record as it stands, FREE for a record that holds nothing, and frees one that held an
outcome; an index above 255 is refused RANGE. The body is the fields of R170 in its order and in the widths of R169, among
them the model's readings of log entries 8, 9 and 18. -/
def Obligations.BookingReadReportsAndFrees : Prop :=
  ∀ (r : Req) (b : BookingIx) (s : State), FromReader s r →
    (∀ n, 255 < n → ∃ t, exec (.bookingRead r (some n)) s = .next t ∧
      AnsweredOnly (s.advance r.m) t r 29 .range []) ∧
    (s.booking b = none → ∃ t, exec (.bookingRead r (some b.val)) s = .next t ∧
      AnsweredOnly (s.advance r.m) t r 29 .ok [0]) ∧
    (∀ x, s.booking b = some x → x.state ∉ [.refused, .cancelled, .expired] →
      ∃ t, exec (.bookingRead r (some b.val)) s = .next t ∧
        AnsweredOnly (s.advance r.m) t r 29 .ok (bytesOf x.fields)) ∧
    (∀ x, s.booking b = some x → x.state ∈ [.refused, .cancelled, .expired] →
      ∃ t u, exec (.bookingRead r (some b.val)) s = .next t ∧
        AnsweredOnly u t r 29 .ok (bytesOf x.fields) ∧
        u = { s.advance r.m with bookings := u.bookings, scan := u.scan, waiting := u.waiting } ∧
        u.booking b = none ∧ (∀ i, i ≠ b → u.booking i = s.booking i) ∧
        ∀ e ∈ u.entries, e.kind ≠ .book → e.booking = b → e.void = true)

/-! ## Table requests -/

/-- R84: PATTERN SET, its refusals in order; accepted, it writes the pattern it names and both settings. -/
def Obligations.PatternSetWritesThePattern : Prop :=
  ∀ (r : Req) (a : PatternSetArgs) (s : State), FromOperator s r →
    let inRange := (∀ w, a.target = some w → w.index ≤ 31) ∧ 2 ≤ a.identTimeout ∧ a.identTimeout ≤ 60
    let used := ∃ w b x, a.target = some w ∧ s.booking b = some x ∧ x.state ∈ [.confirmed, .armed, .live, .overrun] ∧
      ∃ l ∈ x.legs, ∃ i : PatternIx, l.pattern = some i ∧ i.val = w.index
    (¬ inRange → ∃ t, exec (.patternSet r (some a)) s = .next t ∧ AnsweredOnly (s.advance r.m) t r 32 .range []) ∧
    (inRange → s.restart = true → ∃ t, exec (.patternSet r (some a)) s = .next t ∧
      AnsweredOnly (s.advance r.m) t r 32 .state []) ∧
    (inRange → s.restart = false → used → ∃ t, exec (.patternSet r (some a)) s = .next t ∧
      AnsweredOnly (s.advance r.m) t r 32 .inUse []) ∧
    (inRange → s.restart = false → ¬ used → ∃ t u, exec (.patternSet r (some a)) s = .next t ∧
      AnsweredOnly u t r 32 (if 50 ≤ a.silenceMs ∧ a.silenceMs ≤ 1000 then .ok else .clamped) [] ∧
      u = { s.advance r.m with patterns := u.patterns, silenceMs := max 50 (min 1000 a.silenceMs),
                               identTimeout := a.identTimeout } ∧
      ∀ i : PatternIx, u.patterns[i] = (match a.target with
        | some w => if i.val = w.index then some { reference := w.reference, mask := w.mask } else s.patterns[i]
        | none => s.patterns[i]))

/-- R151, R152: TARIFF SET, its refusals in order; accepted, it writes every field. -/
def Obligations.TariffSetWritesTheTariff : Prop :=
  ∀ (r : Req) (a : TariffSetArgs) (s : State), FromOperator s r →
    (¬ TariffSetInRange a → ∃ t, exec (.tariffSet r (some a)) s = .next t ∧
      AnsweredOnly (s.advance r.m) t r 40 .range []) ∧
    (TariffSetInRange a → s.restart = true → ∃ t, exec (.tariffSet r (some a)) s = .next t ∧
      AnsweredOnly (s.advance r.m) t r 40 .state []) ∧
    (TariffSetInRange a → s.restart = false → (∃ b x, s.booking b = some x ∧ x.tariff.val = a.index) →
      ∃ t, exec (.tariffSet r (some a)) s = .next t ∧ AnsweredOnly (s.advance r.m) t r 40 .inUse []) ∧
    (∀ i : TariffIx, i.val = a.index → TariffSetInRange a → s.restart = false →
      (∀ b x, s.booking b = some x → x.tariff ≠ i) →
      ∃ t mode, exec (.tariffSet r (some a)) s = .next t ∧ Rounding.ofCode a.rounding = some mode ∧
        AnsweredOnly { s.advance r.m with
          tariffs := s.tariffs.set i (some
            { price := a.price, multiplier := a.multiplier, disc1 := a.disc1, disc2 := a.disc2, disc3 := a.disc3,
              t1 := a.t1, t2 := a.t2, t3 := a.t3, creditFactor := a.creditFactor, creditUnknown := a.creditUnknown,
              rounding := mode, lateWindow := a.lateWindow, latePercent := a.latePercent }) } t r 40 .ok [])

/-- R96, R97, R98, R102: PROBE, its refusals in order; accepted, it joins the port's probe or creates one with the first
free number from the counter, in flight when none is. The body is the fields of R170; NEW 0, JOINED 1, IN_FLIGHT 0 and
WAITING 1 are the model's reading (log entry 18). -/
def Obligations.ProbeJoinsOrCreates : Prop :=
  ∀ (r : Req) (p : PortIx) (s : State), FromOperator s r →
    (∀ n, 15 < n → ∃ t, exec (.probe r (some n)) s = .next t ∧ AnsweredOnly (s.advance r.m) t r 48 .range []) ∧
    ((s.port p).role = .off → ∃ t, exec (.probe r (some p.val)) s = .next t ∧
      AnsweredOnly (s.advance r.m) t r 48 .range []) ∧
    ((s.port p).role ≠ .off →
      (s.restart = true → ∃ t, exec (.probe r (some p.val)) s = .next t ∧
        AnsweredOnly (s.advance r.m) t r 48 .state []) ∧
      (s.restart = false → s.fitted p = false → ∃ t, exec (.probe r (some p.val)) s = .next t ∧
        AnsweredOnly (s.advance r.m) t r 48 .unavailable []) ∧
      (s.restart = false → s.fitted p = true → (s.port p).link ≠ .down →
        ∃ t, exec (.probe r (some p.val)) s = .next t ∧ AnsweredOnly (s.advance r.m) t r 48 .liveFibre []) ∧
      (s.restart = false → s.fitted p = true → (s.port p).link = .down →
        (s.probeOf p = none → 8 ≤ s.probeWaiting.length → ∃ t, exec (.probe r (some p.val)) s = .next t ∧
          AnsweredOnly (s.advance r.m) t r 48 .busy []) ∧
        (∀ n, s.probeOf p = some n → ∃ t, exec (.probe r (some p.val)) s = .next t ∧
          AnsweredOnly (s.advance r.m) t r 48 .accepted (bytesOf (s.probeFields n true))) ∧
        (s.probeOf p = none → s.probeWaiting.length < 8 → ∃ t u n, exec (.probe r (some p.val)) s = .next t ∧
          AnsweredOnly u t r 48 .accepted (bytesOf (u.probeFields n false)) ∧
          n ∉ s.heldNumbers ∧ u.probeCounter = n + 1 ∧ u.probeOf p = some n ∧
          (∀ k : Nat, k < (n.val + (256 - s.probeCounter.val)) % 256 →
            Fin.ofNat 256 (s.probeCounter.val + k) ∈ s.heldNumbers) ∧
          (s.flight = none → ∃ f, u.flight = some f ∧ f.number = n ∧ f.port = p ∧ f.config = s.probeConfig ∧
            f.phase = .preSilence ∧ f.peaks = [] ∧ u.probeWaiting = s.probeWaiting) ∧
          (s.flight ≠ none → u = { s.advance r.m with
            probeCounter := n + 1, probeWaiting := s.probeWaiting ++ [{ number := n, port := p }] }))))

/-- R112: PROBE CONFIG, its refusals in order; accepted, it writes every setting, clamping the exponents and Q. -/
def Obligations.ProbeConfigWritesTheConfiguration : Prop :=
  ∀ (r : Req) (a : ProbeConfigArgs) (s : State), FromOperator s r →
    (¬ ProbeConfigInRange a → ∃ t, exec (.probeConfig r (some a)) s = .next t ∧
      AnsweredOnly (s.advance r.m) t r 50 .range []) ∧
    (ProbeConfigInRange a → s.restart = true → ∃ t, exec (.probeConfig r (some a)) s = .next t ∧
      AnsweredOnly (s.advance r.m) t r 50 .state []) ∧
    (ProbeConfigInRange a → s.restart = false → ∃ t, exec (.probeConfig r (some a)) s = .next t ∧
      AnsweredOnly { s.advance r.m with
        probeConfig :=
          { segments := a.segments.map (fun g => { first := g.first, last := g.last, exponent := min 6 g.exponent,
                                                   shadow := g.shadow, threshold := g.threshold }),
            silence := a.silence, preMs := a.preMs, breakThreshold := a.breakThreshold,
            q := max 400 (min 600 a.q) } } t r 50
        (if (∀ g ∈ a.segments, g.exponent ≤ 6) ∧ 400 ≤ a.q ∧ a.q ≤ 600 then .ok else .clamped) [])

/-- R140: WATCH SET, its refusals in order; accepted, it writes every setting of the one counter, loads the start value
and starts it afresh. That a match and a mask keep the low 12, 8 and 1 bits of their fields, and that the scope is read
from the fields its kind names alone, is the model's reading (log entry 16). -/
def Obligations.WatchSetWritesTheCounter : Prop :=
  ∀ (r : Req) (a : WatchSetArgs) (s : State), FromOperator s r →
    ((∀ sc, ¬ WatchSetInRange a sc) → ∃ t, exec (.watchSet r (some a)) s = .next t ∧
      AnsweredOnly (s.advance r.m) t r 56 .range []) ∧
    (∀ sc, WatchSetInRange a sc → s.restart = true → ∃ t, exec (.watchSet r (some a)) s = .next t ∧
      AnsweredOnly (s.advance r.m) t r 56 .state []) ∧
    (∀ sc (i : CounterIx), WatchSetInRange a sc → i.val = a.counter → s.restart = false →
      ∃ t ev act, exec (.watchSet r (some a)) s = .next t ∧ WatchKind.ofCode a.event = some ev ∧
        WatchAction.ofCode a.action = some act ∧
        AnsweredOnly ((s.advance r.m).setCounter i
          { event := ev, scope := sc,
            matchBits := { label := BitVec.ofNat 12 a.matchLabel, kind := BitVec.ofNat 8 a.matchKind,
                           endBit := BitVec.ofNat 1 a.matchEnd },
            maskBits := { label := BitVec.ofNat 12 a.maskLabel, kind := BitVec.ofNat 8 a.maskKind,
                          endBit := BitVec.ofNat 1 a.maskEnd },
            threshold := a.threshold, edge := a.edge, invert := a.invert, notice := a.notice, member := a.member,
            action := act, value := a.startValue, overflow := false, secondTotal := 0, previousMet := false,
            starting := true }) t r 56 .ok [])

/-- R142, R138: WATCH UNFREEZE clears every overflow flag and, when the group is frozen, unfreezes it with starting set
on its members. That previous-met stands as it was until the next boundary is the model's reading (log entry 13). -/
def Obligations.UnfreezeClearsTheFlags : Prop :=
  ∀ (r : Req) (s : State), FromOperator s r →
    (s.restart = true → ∃ t, exec (.watchUnfreeze r (some ())) s = .next t ∧
      AnsweredOnly (s.advance r.m) t r 58 .state []) ∧
    (s.restart = false → ∃ t u, exec (.watchUnfreeze r (some ())) s = .next t ∧ AnsweredOnly u t r 58 .ok [] ∧
      u = { s.advance r.m with frozen := false, counters := u.counters } ∧
      ∀ i : CounterIx, u.counter i = { s.counter i with
        overflow := false,
        starting := if s.frozen = true ∧ (s.counter i).member = true then true else (s.counter i).starting })

/-- R148, R149, R150: FAULT READ reports the flags, the masks and the capture as they stand and re-arms the capture;
FAULT CLEAR, its refusals in order, clears the flags of the classes it names and no other; FAULT MASK writes all
fourteen masks. A mask's byte in the report, 1 for a masked class, is the model's choice (log entry 7). R144, R145: the
raises of an event: each sets its flag, and one of them, the first of whichever class the moment takes first, is latched
into an armed capture; the classes are taken in any order, the raises of one class in the order they were made (the
model's reading, log entries 4 and 10); so too where an effect's raise meets the CONTROL_DROP of the response that a full queue discards (R56). -/
def Obligations.FaultRequestsReadClearAndMask : Prop :=
  (∀ (r : Req) (s : State), FromReader s r → ∃ t, exec (.faultRead r (some ())) s = .next t ∧
    AnsweredOnly { s.advance r.m with capture := none } t r 64 .ok
      (bytesOf s.faultFields)) ∧
  ((∀ (r : Req) (l : List Nat) (s : State), (s.port r.port).cls = .observer →
    ∃ t, exec (.faultClear r (some l)) s = .next t ∧ AnsweredOnly (s.advance r.m) t r 65 .cls []) ∧
  ∀ (r : Req) (l : List Nat) (s : State), FromOperator s r →
    ((∃ n ∈ l, n < 1 ∨ 14 < n) → ∃ t, exec (.faultClear r (some l)) s = .next t ∧
      AnsweredOnly (s.advance r.m) t r 65 .range []) ∧
    ((∀ n ∈ l, 1 ≤ n ∧ n ≤ 14) → s.restart = true → ∃ t, exec (.faultClear r (some l)) s = .next t ∧
      AnsweredOnly (s.advance r.m) t r 65 .state []) ∧
    ((∀ n ∈ l, 1 ≤ n ∧ n ≤ 14) → s.restart = false → ∃ t u, exec (.faultClear r (some l)) s = .next t ∧
      AnsweredOnly u t r 65 .ok [] ∧ u = { s.advance r.m with flags := u.flags } ∧
      ∀ c : FaultClass, u.flags[c.ix] = (s.flags[c.ix] && decide (c.number ∉ l)))) ∧
  (∀ (r : Req) (v : Vector Bool 14) (s : State), (s.port r.port).cls = .observer →
    ∃ t, exec (.faultMask r (some v)) s = .next t ∧ AnsweredOnly (s.advance r.m) t r 66 .cls []) ∧
  (∀ (r : Req) (v : Vector Bool 14) (s : State), FromOperator s r →
    (s.restart = true → ∃ t, exec (.faultMask r (some v)) s = .next t ∧
      AnsweredOnly (s.advance r.m) t r 66 .state []) ∧
    (s.restart = false → ∃ t, exec (.faultMask r (some v)) s = .next t ∧
      AnsweredOnly { s.advance r.m with masks := v } t r 66 .ok [])) ∧
  (∀ (m : Moment) (s : State), (s.flush m).raised = [] ∧ (∀ x ∈ s.raised, (s.flush m).flags[x.cls.ix] = true) ∧
    (∀ k, s.capture = some k → (s.flush m).capture = some k) ∧
    (∀ (x : Raise) (before after : List Raise), s.raised = before ++ x :: after → (∀ y ∈ before, y.cls ≠ x.cls) →
      s.capture = none → m.raises.head? = some x.cls.number ∨ (m.raises = [] ∧ before = []) →
      (s.flush m).capture = some { cls := x.cls, items := x.items, second := s.sec, milli := s.milli, timeSet := s.timeSet }) ∧
    ∃ l, KeepsClassOrder l s.raised ∧ s.flush m = { s.takeRaises l with raised := [] } ∧ (m.raises = [] → l = s.raised) ∧
      ∀ l', KeepsClassOrder l' s.raised → m.raises = l'.map (fun x => x.cls.number) → l = l') ∧
  ∀ (r : Req) (code : Nat) (res : Result) (body : List Byte) (x : Raise) (s : State), s.raised = [x] → s.capture = none →
    16 ≤ (s.port r.port).control.length →
    let t := s.respond r code res body
    t.flags[x.cls.ix] = true ∧ t.flags[FaultClass.controlDrop.ix] = true ∧
      (t.port r.port).control = (s.port r.port).control ∧
      ∃ k, t.capture = some k ∧ k.second = s.sec ∧ k.milli = s.milli ∧ k.timeSet = s.timeSet ∧
        (r.m.afterAnswer = 0 → k.cls = x.cls ∧ k.items = x.items) ∧
        (1 ≤ r.m.afterAnswer → k.cls = .controlDrop ∧ k.items = { port := some r.port, booking := none, leg := none })

/-- R164, R165: BILL READ reports the head of the queue with both numbers, or EMPTY, and changes nothing; BILL RELEASE, its
refusals in order, removes the head bill, frees its record and moves the first waiting bill up. The two counts of one byte each, and an
absent bill as its presence byte alone, are the model's reading (log entries 18 and 8). -/
def Obligations.BillRequestsReadAndRelease : Prop :=
  (∀ (r : Req) (s : State), FromReader s r →
    (∀ k rest, s.bills = k :: rest → ∃ t, exec (.billRead r (some ())) s = .next t ∧
      AnsweredOnly (s.advance r.m) t r 72 .ok
        (bytesOf ([(1, s.bills.length), (1, s.billWaiting.length), (1, 1)] ++ k.fields))) ∧
    (s.bills = [] → ∃ t, exec (.billRead r (some ())) s = .next t ∧
      AnsweredOnly (s.advance r.m) t r 72 .empty (bytesOf [(1, 0), (1, s.billWaiting.length), (1, 0)]) ∧
      (s.BillInv → s.billWaiting.length = 0))) ∧
  (∀ (r : Req) (n : Nat) (s : State), (s.port r.port).cls = .observer →
    ∃ t, exec (.billRelease r (some n)) s = .next t ∧ AnsweredOnly (s.advance r.m) t r 73 .cls []) ∧
  ∀ (r : Req) (b : BookingIx) (s : State), FromOperator s r →
    (∀ n, 255 < n → ∃ t, exec (.billRelease r (some n)) s = .next t ∧
      AnsweredOnly (s.advance r.m) t r 73 .range []) ∧
    ((∀ k rest, s.bills = k :: rest → k.booking ≠ b) → ∃ t, exec (.billRelease r (some b.val)) s = .next t ∧
      AnsweredOnly (s.advance r.m) t r 73 .state []) ∧
    (∀ k rest, s.bills = k :: rest → k.booking = b →
      ∃ t u, exec (.billRelease r (some b.val)) s = .next t ∧ AnsweredOnly u t r 73 .ok [] ∧
        u = { s.advance r.m with bookings := u.bookings, scan := u.scan, waiting := u.waiting, bills := u.bills,
                                 billWaiting := u.billWaiting } ∧
        u.booking b = none ∧ (∀ e ∈ u.entries, e.kind ≠ .book → e.booking = b → e.void = true) ∧
        (s.billWaiting = [] → u.bills = rest ∧ u.billWaiting = [] ∧ ∀ i, i ≠ b → u.booking i = s.booking i) ∧
        (∀ w more, s.billWaiting = w :: more → u.bills = rest ++ [w] ∧ u.billWaiting = more ∧
          (w.booking ≠ b → u.booking w.booking = (s.booking w.booking).map fun x => { x with state := .closed }) ∧
          ∀ i, i ≠ b → i ≠ w.booking → u.booking i = s.booking i))

/-- R131, R134 to R139: an event at a counter: counted raw at once or into the second total, unless the counter is halted
or the event does not reach it; an overflow wraps the value, sets the flag, raises WATCH_OVERFLOW, freezes a member's group
and runs the action; the per-second evaluation; and SECOND_BOUNDARY, at which a counter counts the outage seconds and
lived bookings within its scope, raw or into its evaluation. There no counter has an action, and none is a member unless
the group stands frozen; what `starting` leaves is the model's reading (log entry 13). -/
def Obligations.CountersCountAndOverflow : Prop :=
  (∀ (m : Moment) (e : WatchEvent) (i : CounterIx) (s : State),
    let c := s.counter i
    let t := s.countEvent m e i
    let counts := (s.frozen && c.member) = false ∧ c.reaches e = true
    (¬ counts → t = s) ∧
    (counts → c.threshold ≠ 0 → t = s.setCounter i { c with secondTotal := min 4294967295 (c.secondTotal + e.weight) }) ∧
    (counts → c.threshold = 0 → c.value + e.weight ≤ 4294967295 →
      t = s.setCounter i { c with value := c.value + e.weight }) ∧
    (counts → c.threshold = 0 → c.value ≤ 4294967295 → e.weight ≤ 4294967295 → 4294967295 < c.value + e.weight →
      KeepsSettings s t ∧ (t.counter i).value = (c.value + e.weight) % 4294967296 ∧ (t.counter i).overflow = true ∧
      (c.notice = true → { cls := .watchOverflow, items := c.scope.items, detail := some (.watch i) } ∈ t.raised) ∧ t.frozen = (s.frozen || c.member) ∧
      (∀ j, j ≠ i → t.counter j =
        if c.member && (s.counter j).member then { s.counter j with secondTotal := 0 } else s.counter j) ∧
      (∀ b l x lg, c.action = .excludeLeg → c.scope = .leg b l → s.booking b = some x →
        x.state ∈ [.armed, .live, .overrun] → x.leg l = some lg →
        ∃ y, t.booking b = some y ∧ y.leg l = some { lg with exWatch := true } ∧
          (x.state ≠ .armed → x.outage ≠ none → lg.exWatch = false → ∃ o, y.outage = some o ∧ o.flag = !y.anyUsable)) ∧
      (∀ p, c.action = .probePort → c.scope = .port p → (s.port p).link = .down → (s.port p).role ≠ .off →
        s.fitted p = true → s.restart = false → t.probeOf p ≠ none ∨ 8 ≤ t.probeWaiting.length))) ∧
  (∀ (c : Counter) (total : Nat),
    let met := if c.invert then total < c.threshold else c.threshold ≤ total
    (c.starting = true → (c.evaluate total).1 = 0 ∧ (c.evaluate total).2.starting = false) ∧
    (c.starting = false → (c.evaluate total).1 = (if met ∧ ¬ (c.edge = true ∧ c.previousMet = true) then 1 else 0) ∧
      (c.evaluate total).2 = { c with secondTotal := 0, previousMet := decide met })) ∧
  ∀ (m : Moment) (i : CounterIx) (s : State), s.restart = false → s.NoActions →
    let c := s.counter i
    let covers := fun (b : BookingIx) =>
      match c.scope with
      | .any => true
      | .booking k => decide (b = k)
      | .port _ | .leg _ _ => false
    let touches := fun (b : BookingIx) (x : Booking) =>
      match c.scope with
      | .any => true
      | .port p => x.usesPort p
      | .booking k => decide (b = k)
      | .leg k l => decide (b = k) && (x.leg l).isSome
    let events :=
      match c.event with
      | .outageSeconds => (List.finRange 256).countP fun b => covers b && (s.booking b).any fun x =>
          decide (x.state = .live ∨ x.state = .overrun) && x.lived s.sec && x.outage.any (·.touched)
      | .liveBookings => (List.finRange 256).countP fun b => (s.booking b).any fun x => x.lived s.sec && touches b x
      | _ => 0
    ∃ t, exec (.secondBoundary m) s = .next t ∧
      (s.frozen = true → c.member = true → t.counter i = c) ∧
      ((∀ j, (s.counter j).member = false) → c.value ≤ 4294967295 →
        let x := c.evaluate (min 4294967295 (c.secondTotal + events))
        let rise := if c.threshold = 0 then events else x.1
        t.counter i = { if c.threshold = 0 then c else x.2 with
          value := (c.value + rise) % 4294967296, overflow := c.overflow || decide (4294967295 < c.value + rise) })

/-! ## The second boundary (chapters 1, 3, 5 and 7) -/

/-- R7, R51, R52, R53: a boundary steps the second count, modulo 2^32, starts the millisecond count afresh at the instant
the second is over, hands each port's up-whole indication on, returns the bad-check counts to 0 and ends a LOF whose
second had no bad check. -/
def Obligations.BoundaryStepsTimeAndPorts : Prop :=
  ∀ (m : Moment) (s : State), ∃ t, exec (.secondBoundary m) s = .next t ∧ KeepsSettings s t ∧
    t.sec = (s.sec + 1) % 4294967296 ∧ t.milli = 0 ∧
    (s.sub + m.dt ≤ 10000000000 → t.clock = s.clock + (10000000000 - s.sub)) ∧
    ∀ p : PortIx, (t.port p).badChecks = 0 ∧ (t.port p).upLast = (s.port p).upWhole ∧
      (t.port p).link = (if (s.port p).link = .lof ∧ (s.port p).badChecks = 0 then .up else (s.port p).link) ∧
      (t.port p).upWhole = decide ((t.port p).link = .up) ∧ SameMedia (s.port p) (t.port p)

/-- R12, R13, R60, R78, R85, R88, R93: what a boundary makes of a CONFIRMED record, and of an ARMED one that is not to
close. No watch counter has an action; no restart is in progress. While one is, a CONFIRMED record neither arms nor
expires, no flow entry comes to stand for it where the flow table agrees with the booking table (R62), and the restart's
completion frees it (R24). -/
def Obligations.BoundaryArmsAndGoesLive : Prop :=
  (∀ (m : Moment) (b : BookingIx) (x : Booking) (s : State), s.restart = true → s.booking b = some x →
    x.state = .confirmed → ∃ t, exec (.secondBoundary m) s = .next t ∧
      (t.restart = true → t.booking b = some x ∧ t.flags[FaultClass.missed.ix] = s.flags[FaultClass.missed.ix] ∧
        (s.FlowsMatch → ∀ e ∈ t.flows, e.booking ≠ b)) ∧
      (t.restart = false → t.booking b = none ∧ t.flows = [])) ∧
  ∀ (m : Moment) (b : BookingIx) (x : Booking) (s : State), s.NoActions → s.restart = false → s.booking b = some x →
    ∃ t, exec (.secondBoundary m) s = .next t ∧
    (x.state = .confirmed → x.finish ≤ s.nextSecond →
      t.booking b = some { x with state := .expired, closeSecond := some s.nextSecond } ∧
        t.flags[FaultClass.missed.ix] = true) ∧
    (x.state = .confirmed → s.nextSecond < x.finish → s.nextSecond + x.armLead < x.start → t.booking b = some x) ∧
    (x.state = .confirmed → s.nextSecond < x.finish → x.start ≤ s.nextSecond + x.armLead →
      let arm := fun (l : Leg) (manual : Bool) =>
        { l with state := .waiting, silenceAt := none, exIdent := false, exWatch := false, exManual := manual,
                 ident := some (if l.policy = .none then .notChecked else .awaiting),
                 identAt := if l.policy = .none then none else some (t.clock + s.identTimeout * 10000000000) }
      t.booking b = some { x with
          state := .armed, main := arm x.main (decide (x.mode = .backupOnly)),
          backup := x.backup.map fun l => arm l (decide (x.mode = .mainOnly)),
          merge := some { lastFwd := none, resync := false, loss := 0, resyncCount := 0,
                          main := { redundant := 0, policerDrops := 0 },
                          backup := { redundant := 0, policerDrops := 0 } } } ∧
        ∀ l lg, x.leg l = some lg →
          (∃ e ∈ t.flows, e.port = lg.port ∧ e.label = lg.label ∧ e.booking = b ∧ e.leg = l ∧ e.rate = x.rate ∧
            e.tokens = x.rate * 100000) ∨
          ((b, l) ∈ t.deferred ∧ t.flowOf lg.port lg.label ≠ none)) ∧
    (x.state = .armed → x.restartClose = false → x.closeReq = none → s.nextSecond < x.start → t.booking b = some x) ∧
    (x.state = .armed → x.restartClose = false → x.closeReq = none → x.start ≤ s.nextSecond →
      ∃ y o, t.booking b = some y ∧ y.outage = some o ∧
        y = { x with
          state := .live, liveFrom := some s.nextSecond, outage := y.outage,
          merge := x.merge.map fun k => { k with lastFwd := none, resync := true, loss := 0 },
          dests := x.dests.map fun d => { d with account := some .initial } } ∧
        o.flag = !x.anyUsable ∧ o.touched = o.flag ∧ o.run = 0 ∧
        (x.anyUsable = true → o.records = []) ∧
        (x.anyUsable = false → t.flags[FaultClass.feedLost.ix] = true ∧
          ∃ k, o.records = [k] ∧ k.start = s.nextSecond ∧ k.finish = none ∧ k.seconds = 0))

/-- R14 to R17, R156, R161: what a boundary makes of a LIVE or OVERRUN record, and of an ARMED one that is to close, with its
bill, the second just ended having been classified; that the classification comes before the transition, so that the touched mark
of a booking closed in outage stays set, is the model's reading (log entry 14). Nothing is said of the L of a bill where the
second count wrapped while the booking was LIVE (log entry 31). No watch counter has an action. -/
def Obligations.BoundaryRunsOrCloses : Prop :=
  ∀ (m : Moment) (b : BookingIx) (x : Booking) (s : State), s.NoActions → s.booking b = some x →
    let now := s.nextSecond
    let c := x.classified s
    ∃ t, exec (.secondBoundary m) s = .next t ∧
    (x.state ∈ [.armed, .live, .overrun] → x.restartClose = true → ∃ y, t.booking b = some y ∧
      ClosedAs s t b c y .restart now) ∧
    (x.state = .armed → x.restartClose = false → x.closeReq ≠ none → ∃ y, t.booking b = some y ∧
      ClosedAs s t b c y .cancelledArmed now) ∧
    (x.state = .live → x.restartClose = false →
      (now < x.finish → x.closeReq = none → t.booking b = some c) ∧
      (now < x.finish → x.closeReq ≠ none → ∃ y, t.booking b = some y ∧ ClosedAs s t b c y .closedEarly now) ∧
      (x.finish ≤ now → x.closeReq ≠ none ∨ x.finish + x.allowance ≤ now → ∃ y, t.booking b = some y ∧
        ClosedAs s t b c y .endReached now) ∧
      (x.finish ≤ now → x.closeReq = none → now < x.finish + x.allowance →
        t.booking b = some { c with state := .overrun, overrunFrom := some now } ∧
          t.flags[FaultClass.overrunEntered.ix] = true)) ∧
    (x.state = .overrun → x.restartClose = false →
      (x.finish + x.allowance ≤ now → (s.restart = false → t.flags[FaultClass.overrunExhausted.ix] = true) ∧
        ∃ y, t.booking b = some y ∧ ClosedAs s t b c y .allowanceEnd now) ∧
      (now < x.finish + x.allowance →
        (∀ why, x.closeReq = some why → ∃ y, t.booking b = some y ∧ ClosedAs s t b c y why now) ∧
        (x.closeReq = none → c.outage.any (fun o => decide (s.idleClose ≤ o.run)) = true →
          ∃ y, t.booking b = some y ∧ ClosedAs s t b c y .sourceIdle now) ∧
        (x.closeReq = none → c.outage.any (fun o => decide (s.idleClose ≤ o.run)) = false → t.booking b = some c)))

/-- R124, R126, R127, R128: what a booking makes of a second `n` it lived: the outage second is counted in the run and in
the first record that was open in it, the mark stands for the new second, and each destination counts the second once,
live or overrun, undelivered or delivered in its band. That only a LIVE or OVERRUN record takes a second is the model's
reading (log entry 21). -/
def Obligations.SecondsAreClassified : Prop :=
  ∀ (r : Booking) (n : Nat) (up : Vector Bool 16) (tf : Tariff) (o : OutageState) (k : MergeState),
    r.outage = some o → r.merge = some k →
    let y := r.takeSecond n up tf
    (r.takes n = true ↔ (r.state = .live ∨ r.state = .overrun) ∧ (∃ f, r.liveFrom = some f ∧ f ≤ n) ∧
      ∀ e, r.liveTo = some e → n < e) ∧
    y = { r with outage := y.outage, merge := some { k with loss := 0 }, dests := y.dests } ∧
    (∃ o', y.outage = some o' ∧ o'.flag = o.flag ∧ o'.touched = o.flag ∧
      o'.run = (if o.touched then o.run + 1 else 0) ∧ o'.records.length = o.records.length ∧
      (o.touched = false → o'.records = o.records) ∧
      (o.touched = true → ∀ i z, o.records[i]? = some z →
        let openIn := fun (w : OutageRecord) => w.start ≤ n ∧ ∀ e, w.finish = some e → n ≤ e
        let first := openIn z ∧ ∀ (j : Nat) w, j < i → o.records[j]? = some w → ¬ openIn w
        (first → o'.records[i]? = some { z with seconds := z.seconds + 1 }) ∧ (¬ first → o'.records[i]? = some z))) ∧
    y.dests.length = r.dests.length ∧
    ∀ (i : Nat) (d : Dest) (a : DestAccount), r.dests[i]? = some d → d.account = some a →
      let delivered := !o.touched && up[d.port]
      let late := r.overrunFrom.any fun f => decide (f ≤ n)
      let loss := k.loss + a.secondDrops
      let band := if loss < tf.t1 then 0 else if loss < tf.t2 then 1 else if loss < tf.t3 then 2 else 3
      let one := fun (c : Bool) => if c then 1 else 0
      let add := fun (v : Bands) (c : Bool) =>
        ({ b0 := v.b0 + one (c && decide (band = 0)), b1 := v.b1 + one (c && decide (band = 1)),
           b2 := v.b2 + one (c && decide (band = 2)), b3 := v.b3 + one (c && decide (band = 3)) } : Bands)
      y.dests[i]? = some { d with account := some { a with
        secondDrops := 0
        residency :=
          { deliveredLive := a.residency.deliveredLive + one (delivered && !late)
            undeliveredLive := a.residency.undeliveredLive + one (!delivered && !late)
            bandLive := add a.residency.bandLive (delivered && !late)
            deliveredOver := a.residency.deliveredOver + one (delivered && late)
            undeliveredOver := a.residency.undeliveredOver + one (!delivered && late)
            bandOver := add a.residency.bandOver (delivered && late) } } }

/-- R124, R128: the balances: the lived seconds of every destination are the delivered and the undelivered ones, live and
overrun, every delivered one in one band; the seconds of the outage records are no more than the undelivered ones nor than
the lived ones; and a second taken adds to them exactly when it is an outage second. They hold after reset and every step
keeps them, but for a step taken in the last second before the count wraps. -/
def Obligations.SecondsStayBalanced : Prop :=
  State.reset.SecondsInv ∧
  (∀ s t : State, s.SecondsInv → s.sec < 4294967295 → step s = .next t → t.SecondsInv) ∧
  ∀ (r : Booking) (n : Nat) (up : Vector Bool 16) (tf : Tariff) (o : OutageState), r.SecondsOk n → r.forwarding = true →
    r.outage = some o → r.takes n = true ∧ ∃ o', (r.takeSecond n up tf).outage = some o' ∧
      o'.seconds = o.seconds + (if r.outageSecond n then 1 else 0)

/-- R115, R116, R118, R119: the capture of a leg's cause in the open record: kept at the same situation, replaced at
another one, left alone while the leg is held out by MANUAL. R117, R121: an entry into outage opens a record, or, at the
ninth, reopens record 8 with what it reported carried forward; and the silence of a one-leg booking's leg does both. -/
def Obligations.OutageCausesAreCaptured : Prop :=
  (∀ (b : BookingIx) (l : LegId) (x : Booking) (lg : Leg) (o : OutageState) (k : OutageRecord) (s : State),
    s.booking b = some x → x.leg l = some lg → x.outage = some o → o.openRecord = some k →
    let t := s.capture1 b l
    let z := lg.situationAt (s.port lg.port).link
    (lg.exManual = true ∨ z = none ∨ z = (k.legCause l).situation → t = s) ∧
    ∀ sit, lg.exManual = false → z = some sit → (k.legCause l).situation ≠ some sit →
      KeepsSettings s t ∧ (∀ i, i ≠ b → t.booking i = s.booking i) ∧
      ∃ c, CauseGiven s lg.port sit c ∧ (∀ n, c.value = .pending n → t.probeOf lg.port = some n) ∧
        t.booking b = some { x with outage := some { o with
          records := o.records.dropLast ++ [match l with
            | .main => { k with main := { k.main with held := some c, situation := some sit } }
            | .backup => { k with backup := { k.backup with held := some c, situation := some sit } }] } }) ∧
  (∀ (o : OutageState) (n : Nat),
    (o.records.length < 8 → o.enter n = { o with flag := true, touched := true, records := o.records ++ [
      { start := n, finish := none, seconds := 0, main := { held := none, situation := none, carried := none },
        backup := { held := none, situation := none, carried := none }, merged := false }] }) ∧
    ∀ before k, 8 ≤ o.records.length → o.records = before ++ [k] →
      let rank := fun (c : Cause) =>
        match c.value with
        | .network => 3
        | .pending _ => 2
        | .unknown => 1
        | .venue => 0
      let carry := fun (c : LegCause) =>
        ({ held := none, situation := none,
           carried := match c.carried, c.held with
                      | some a, some h => some (if rank a < rank h then h else a)
                      | some a, none => some a
                      | none, h => h } : LegCause)
      o.enter n = { o with flag := true, touched := true, records := before ++ [
        { k with finish := none, merged := true, main := carry k.main, backup := carry k.backup }] }) ∧
  ∀ (m : Moment) (b : BookingIx) (x : Booking) (at_ : Nat) (o : OutageState) (s : State), s.NoActions →
    s.booking b = some x → x.state = .live ∨ x.state = .overrun → x.backup = none → x.main.silenceAt = some at_ →
    x.main.state = .receiving → x.main.exManual = false → x.outage = some o → o.flag = false →
    let u := (s.advance m).elapseTo at_
    ∃ t y o' before k sit c, exec (.silenceTimerExpiry m b .main) s = .next t ∧ t.booking b = some y ∧
      y.outage = some o' ∧ o'.flag = true ∧ o'.touched = true ∧ o'.records = before ++ [k] ∧ k.finish = none ∧
      ({ x.main with state := .silent } : Leg).situationAt (s.port x.main.port).link = some sit ∧
      k.main.situation = some sit ∧ k.main.held = some c ∧ CauseGiven u x.main.port sit c ∧
      (o.records.length < 8 → before = o.records ∧ k.start = s.sec ∧ k.seconds = 0 ∧ k.merged = false) ∧
      (8 ≤ o.records.length → before = o.records.dropLast ∧ k.merged = true ∧
        ∀ old, o.records.getLast? = some old → k.start = old.start ∧ k.seconds = old.seconds)

/-! ## Light, frames and slots (chapters 3 to 5) -/

/-- R49, R53, R55, R73, R79, R99, R143 to R145: light lost on a lit port: DOWN, LOS raised, and, leaving UP, every leg on the
port SILENT and the media queues emptied, each copy an egress drop of its destination; a probe asked for where auto-probe asks. An armed capture latches one of the
event's raises: LOS, where the moment asks for no other first. The order in which an event makes its raises is the model's
reading (log entry 10); R144 names LOS first, and R145 lets any class be taken first. On a dark port nothing happens, which is
the model's choice (log entry 17). -/
def Obligations.LightLossTakesThePortDown : Prop :=
  ∀ (m : Moment) (p : PortIx) (s : State),
    ((s.port p).link = .down → exec (.lightLost m p) s = .next (s.advance m)) ∧
    ((s.port p).link ≠ .down → ∃ t, exec (.lightLost m p) s = .next t ∧ KeepsSettings s t ∧
      (t.port p).link = .down ∧ (t.port p).upWhole = false ∧
      (∀ q, q ≠ p → (t.port q).link = (s.port q).link ∧ (t.port q).upWhole = (s.port q).upWhole ∧
        SameMedia (s.port q) (t.port q)) ∧
      t.flags[FaultClass.los.ix] = true ∧
      (∀ k, s.capture = some k → t.capture = some k) ∧
      (s.capture = none → ∃ k, t.capture = some k ∧ k.second = s.sec ∧ k.milli = (s.advance m).milli ∧
        k.timeSet = s.timeSet ∧
        (m.raises = [] → k.cls = .los ∧ k.items = { port := some p, booking := none, leg := none })) ∧
      ((s.port p).link = .up → (t.port p).class1 = [] ∧ (t.port p).class2 = [] ∧ MediaDropped s t p) ∧
      ((s.port p).link ≠ .up → ∀ b x, s.booking b = some x → ∃ y, t.booking b = some y ∧ y.dests = x.dests) ∧
      (∀ b, t.stateOf b = s.stateOf b) ∧
      (∀ b x l lg, s.booking b = some x → x.leg l = some lg → ∃ y lg', t.booking b = some y ∧ y.leg l = some lg' ∧
        lg'.state = (if (s.port p).link = .up ∧ lg.port = p ∧ (lg.state = .waiting ∨ lg.state = .receiving)
                     then .silent else lg.state)) ∧
      ((s.port p).autoProbe = true → s.fitted p = true → s.restart = false →
        (∃ b x, s.booking b = some x ∧ x.state ∈ [.armed, .live, .overrun] ∧ ∃ l ∈ x.legs, l.port = p) →
        t.probeOf p ≠ none ∨ 8 ≤ t.probeWaiting.length))

/-- R49, R50, R53, R108: light returned to a dark port: ACQUIRING with a run of 0, and a probe of the port, in flight or
waiting, ended LIVE_FIBRE. On a lit port nothing happens, which is the model's choice (log entry 17). -/
def Obligations.LightReturnsToAcquiring : Prop :=
  ∀ (m : Moment) (p : PortIx) (s : State),
    ((s.port p).link ≠ .down → exec (.lightReturns m p) s = .next (s.advance m)) ∧
    ((s.port p).link = .down → ∃ t, exec (.lightReturns m p) s = .next t ∧ KeepsSettings s t ∧
      (t.port p).link = .acquiring ∧ (t.port p).goodRun = 0 ∧ (t.port p).badChecks = (s.port p).badChecks ∧
      (∀ q, q ≠ p → (t.port q).link = (s.port q).link) ∧
      t.flags[FaultClass.los.ix] = s.flags[FaultClass.los.ix] ∧
      (s.ProbeInv → t.probeOf p = none) ∧
      (∀ f, s.flight = some f → f.port = p → ProbeEnded s t f (.bare .liveFibre)) ∧
      (∀ w ∈ s.probeWaiting, w.port = p → s.ProbeInv → t.flight = s.flight ∧
        t.flags[FaultClass.probeDone.ix] = true ∧
        t.lastResults[p] = some { number := w.number, outcome := .liveFibre, peaks := [], breakDistance := none,
                                  second := s.sec, timeSet := s.timeSet }) ∧
      (s.probeOf p = none → t.lastResults = s.lastResults ∧ t.bookings = s.bookings ∧ t.flags = s.flags))

/-- R48, R50, R51, R54: what a received frame does to its port: none reaches a DOWN port; three good checks in a row
bring ACQUIRING to UP; a bad check is counted, breaks that run, and, once the second has counted more than 8, takes UP
to LOF, where the media queues are emptied, each copy an egress drop (R55, R73). -/
def Obligations.FramesDriveTheLink : Prop :=
  ∀ (m : Moment) (p : PortIx) (bytes : List Byte) (s : State),
    ((s.port p).link = .down → exec (.frameReceived m p bytes) s = .next (s.advance m)) ∧
    ((s.port p).link ≠ .down → ∃ t, exec (.frameReceived m p bytes) s = .next t ∧
      (∀ q, q ≠ p → (t.port q).link = (s.port q).link ∧ (t.port q).badChecks = (s.port q).badChecks) ∧
      (∀ f, readFrame bytes = some f → (t.port p).badChecks = (s.port p).badChecks ∧
        ((s.port p).link = .acquiring → (t.port p).goodRun = (s.port p).goodRun + 1 ∧
          (t.port p).link = if 3 ≤ (s.port p).goodRun + 1 then .up else .acquiring) ∧
        ((s.port p).link ≠ .acquiring → (t.port p).link = (s.port p).link) ∧
        (s.NoActions → f.kind = .fill ∨ ((f.kind = .media ∨ f.kind = .ident) ∧
            ((s.port p).link ≠ .up ∨ (s.port p).role = .off)) →
          KeepsSettings s t ∧ t.bookings = s.bookings ∧ t.flows = s.flows ∧
            ∀ q, SameMedia (s.port q) (t.port q))) ∧
      (readFrame bytes = none → KeepsSettings s t ∧ t.flows = s.flows ∧ (∀ b, t.stateOf b = s.stateOf b) ∧
        (t.port p).badChecks = (s.port p).badChecks + 1 ∧
        ((s.port p).link = .acquiring → (t.port p).link = .acquiring ∧ (t.port p).goodRun = 0) ∧
        ((s.port p).link = .lof → (t.port p).link = .lof) ∧
        ((s.port p).link = .up → (s.port p).badChecks + 1 ≤ 8 → (t.port p).link = .up) ∧
        ((s.port p).link = .up → 8 < (s.port p).badChecks + 1 → (t.port p).link = .lof ∧
          (t.port p).upWhole = false ∧ (t.port p).class1 = [] ∧ (t.port p).class2 = [] ∧ MediaDropped s t p ∧
          t.flags[FaultClass.lof.ix] = true)))

/-- R63, R66, R70, R71, R79, R89, R90, R91, R92: a MEDIA frame that passes the policer of a leg no exclusion holds out, of
a LIVE or OVERRUN booking: its leg is RECEIVING, an outage ends, the merge test decides, and a forwarded frame goes as
one copy to each destination, appended to the queue of its class or dropped there. R69, R89: one of an ARMED booking, or on a leg that an exclusion
holds out, is kept: its leg is RECEIVING, and no queue, merge count or destination changes. No watch counter has an
action. -/
def Obligations.MediaIsForwarded : Prop :=
  (∀ (m : Moment) (p : PortIx) (bytes : List Byte) (f : Frame) (e : FlowEntry) (x : Booking) (lg : Leg) (k : MergeState)
    (s : State), s.NoActions → (s.port p).link = .up → (s.port p).role ≠ .off → readFrame bytes = some f →
    f.kind = .media → s.flowOf p f.label = some e →
    f.payload.length * 8 ≤ (e.refill (s.clock + m.dt)).tokens →
    s.booking e.booking = some x → x.state = .live ∨ x.state = .overrun → x.leg e.leg = some lg →
    lg.exIdent = false → lg.exWatch = false → lg.exManual = false → x.merge = some k →
    (x.dests.map (·.port)).Nodup →
    let full := e.refill (s.clock + m.dt)
    let v := MergeState.test { k with resync := k.resync || x.outage.any (·.flag) } e.leg f.seq
    ∃ t y, exec (.frameReceived m p bytes) s = .next t ∧ KeepsSettings s t ∧
      t.flowOf p f.label = some { full with tokens := full.tokens - f.payload.length * 8 } ∧
      t.booking e.booking = some y ∧ (∀ i, i ≠ e.booking → t.booking i = s.booking i) ∧
      y.state = x.state ∧ y.merge = some v.2 ∧ y.outage.any (·.flag) = false ∧
      y.leg e.leg = some { lg with state := .receiving,
                                   silenceAt := some (s.clock + m.dt + s.silenceMs * 10000000) } ∧
      (∀ l, l ≠ e.leg → y.leg l = x.leg l) ∧
      (v.1 = .redundant → y.dests = x.dests ∧ y.closeReq = x.closeReq ∧ ∀ q, SameMedia (s.port q) (t.port q)) ∧
      ∀ gap, v.1 = .forward gap →
        y.closeReq = (if f.endFlag = true ∧ x.state = .overrun then some (x.closeReq.getD .sourceEnded)
                      else x.closeReq) ∧
        (∀ q, q ∉ x.dests.map (·.port) → SameMedia (s.port q) (t.port q)) ∧
        ∀ i d, x.dests[i]? = some d →
          let copy : MediaCopy := { booking := e.booking, position := i + 1, label := d.label, flags := f.flags,
                                    seq := f.seq, payload := f.payload }
          let q := s.port d.port
          let two := x.backup.isSome
          if q.link = .up ∧ q.role ≠ .off ∧ (if two then q.class1 else q.class2).length < 256 then
            y.dests[i]? = some d ∧ (t.port d.port).class1 = (if two then q.class1 ++ [copy] else q.class1) ∧
              (t.port d.port).class2 = (if two then q.class2 else q.class2 ++ [copy])
          else
            SameMedia q (t.port d.port) ∧ y.dests[i]? = some { d with account := d.account.map fun a =>
              { a with secondDrops := a.secondDrops + 1, totalDrops := (a.totalDrops + 1) % 4294967296 } }) ∧
  ∀ (m : Moment) (p : PortIx) (bytes : List Byte) (f : Frame) (e : FlowEntry) (x : Booking) (lg : Leg) (s : State),
    s.NoActions → (s.port p).link = .up → (s.port p).role ≠ .off → readFrame bytes = some f → f.kind = .media →
    s.flowOf p f.label = some e → f.payload.length * 8 ≤ (e.refill (s.clock + m.dt)).tokens →
    s.booking e.booking = some x → x.leg e.leg = some lg →
    x.state = .armed ∨ ((x.state = .live ∨ x.state = .overrun) ∧
      (lg.exIdent = true ∨ lg.exWatch = true ∨ lg.exManual = true) ∧
      (x.outage.any (·.flag) = true → x.anyUsable = false)) →
    let full := e.refill (s.clock + m.dt)
    ∃ t y, exec (.frameReceived m p bytes) s = .next t ∧ KeepsSettings s t ∧
      t.flowOf p f.label = some { full with tokens := full.tokens - f.payload.length * 8 } ∧
      t.booking e.booking = some y ∧ (∀ i, i ≠ e.booking → t.booking i = s.booking i) ∧
      y.leg e.leg = some { lg with state := .receiving,
                                   silenceAt := some (s.clock + m.dt + s.silenceMs * 10000000) } ∧
      (∀ l, l ≠ e.leg → y.leg l = x.leg l) ∧
      y = { x with main := y.main, backup := y.backup, outage := y.outage } ∧
      (x.state = .armed → y.outage = x.outage) ∧ ∀ q, SameMedia (s.port q) (t.port q)

/-- R63, R65, R66, R67: an unbooked frame goes nowhere; a MEDIA frame above its policer's tokens is dropped, counted and
raised EXCESS, and moves no leg; and the refill of a policer neither passes its depth nor depends on how often it is
taken. No watch counter has an action. -/
def Obligations.MediaIsStopped : Prop :=
  (∀ (m : Moment) (p : PortIx) (bytes : List Byte) (f : Frame) (s : State), s.NoActions → (s.port p).link = .up →
    (s.port p).role ≠ .off → readFrame bytes = some f →
    (f.kind = .media ∨ f.kind = .ident → s.flowOf p f.label = none →
      ∃ t, exec (.frameReceived m p bytes) s = .next t ∧ KeepsSettings s t ∧ t.bookings = s.bookings ∧
        t.flows = s.flows ∧ ∀ q, SameMedia (s.port q) (t.port q)) ∧
    (∀ e x k, f.kind = .media → s.flowOf p f.label = some e → s.booking e.booking = some x → x.merge = some k →
      (e.refill (s.clock + m.dt)).tokens < f.payload.length * 8 →
      let bump := fun (c : LegCounts) => { c with policerDrops := (c.policerDrops + 1) % 4294967296 }
      ∃ t, exec (.frameReceived m p bytes) s = .next t ∧ KeepsSettings s t ∧
        t.flowOf p f.label = some (e.refill (s.clock + m.dt)) ∧ t.flags[FaultClass.excess.ix] = true ∧
        t.booking e.booking = some { x with merge := some (match e.leg with
          | .main => { k with main := bump k.main }
          | .backup => { k with backup := bump k.backup }) } ∧
        (∀ i, i ≠ e.booking → t.booking i = s.booking i) ∧ ∀ q, SameMedia (s.port q) (t.port q))) ∧
  (∀ (e : FlowEntry) (a c : Nat), a ≤ c → (e.refill a).refill c = e.refill c) ∧
  ∀ (e : FlowEntry) (a : Nat), (e.refill a).tokens ≤ e.rate * 100000

/-- R90 and its law: the verdict on a frame by its distance from the last one forwarded, and that a frame just forwarded
is kept as a duplicate when it comes again on either leg. -/
def Obligations.MergeTestForwardsOnce : Prop :=
  (∀ (k : MergeState) (l : LegId) (seq last : Nat), k.resync = false → k.lastFwd = some last → seq < 65536 →
    last < 65536 →
    let d := ((seq : Int) - last) % 65536
    (1 ≤ d → d ≤ 1025 → k.test l seq = (.forward (d - 1).toNat,
      { k with lastFwd := some seq, loss := min 4294967295 (k.loss + (d - 1).toNat) })) ∧
    (1025 < d → d < 32768 → k.test l seq = (.forward 0,
      { k with lastFwd := some seq, resyncCount := (k.resyncCount + 1) % 4294967296 })) ∧
    (d = 0 ∨ 32768 ≤ d → k.test l seq = (.redundant, match l with
      | .main => { k with main := { k.main with redundant := (k.main.redundant + 1) % 4294967296 } }
      | .backup => { k with backup := { k.backup with redundant := (k.backup.redundant + 1) % 4294967296 } }))) ∧
  (∀ (k : MergeState) (l : LegId) (seq : Nat), k.resync = true →
    k.test l seq = (.forward 0, { k with lastFwd := some seq, resync := false })) ∧
  ∀ (k : MergeState) (l l' : LegId) (seq gap : Nat), (k.test l seq).1 = .forward gap →
    ((k.test l seq).2.test l' seq).1 = .redundant

/-- R86, R64: an IDENT frame of a booked leg is compared with the leg's pattern, draws no token, and moves the leg's
ident state and its IDENT exclusion alone. No watch counter has an action. -/
def Obligations.IdentFramesAreChecked : Prop :=
  ∀ (m : Moment) (p : PortIx) (bytes : List Byte) (f : Frame) (e : FlowEntry) (x : Booking) (lg : Leg) (s : State),
    s.NoActions → (s.port p).link = .up → (s.port p).role ≠ .off → readFrame bytes = some f → f.kind = .ident →
    s.flowOf p f.label = some e → s.booking e.booking = some x → x.leg e.leg = some lg →
    ∃ t, exec (.frameReceived m p bytes) s = .next t ∧ KeepsSettings s t ∧ t.flows = s.flows ∧
      (∀ i, i ≠ e.booking → t.booking i = s.booking i) ∧ (∀ q, SameMedia (s.port q) (t.port q)) ∧
      (lg.policy = .none → t.bookings = s.bookings) ∧
      ∀ i k, lg.policy ≠ .none → lg.pattern = some i → s.patterns[i] = some k → k.reference.length = 32 →
        k.mask.length = 32 →
        ∃ y, t.booking e.booking = some y ∧ y.state = x.state ∧ (∀ l, l ≠ e.leg → y.leg l = x.leg l) ∧
          (IdentAgrees k f.payload →
            y.leg e.leg = some { lg with ident := some .matched, identAt := none, exIdent := false }) ∧
          (¬ IdentAgrees k f.payload →
            y.leg e.leg = some { lg with ident := some .mismatched, identAt := none, exIdent := true } ∧
            (lg.ident ≠ some .mismatched → t.flags[FaultClass.wrongSource.ix] = true)) ∧
          (x.state = .live ∨ x.state = .overrun → x.outage ≠ none → ∃ o, y.outage = some o ∧ o.flag = !y.anyUsable)

/-- R80, R87, R92, R93: the silence timer of a RECEIVING leg and the ident timeout of an AWAITING leg expire, each at its
instant; an outage begins where no usable leg is left. A timer that does not run does not expire,
which is the model's choice (log entry 17), and so is the instant: a timer's own, or a later one when the command comes
late (log entry 3). -/
def Obligations.LegTimersExpire : Prop :=
  (∀ (m : Moment) (b : BookingIx) (l : LegId) (x : Booking) (lg : Leg) (at_ : Nat) (s : State), s.NoActions →
    s.booking b = some x → x.leg l = some lg → lg.silenceAt = some at_ → lg.state = .receiving →
    ∃ t y, exec (.silenceTimerExpiry m b l) s = .next t ∧ KeepsSettings s t ∧ t.clock = max (s.clock + m.dt) at_ ∧
      t.booking b = some y ∧ (∀ i, i ≠ b → t.booking i = s.booking i) ∧ y.state = x.state ∧
      y.leg l = some { lg with state := .silent, silenceAt := none } ∧ (∀ o, o ≠ l → y.leg o = x.leg o) ∧
      t.flags[FaultClass.legSilent.ix] = true ∧
      (x.state = .live ∨ x.state = .overrun → x.outage ≠ none → ∃ o, y.outage = some o ∧ o.flag = !y.anyUsable) ∧
      (x.state = .live ∨ x.state = .overrun → x.outage.any (·.flag) = false → y.anyUsable = false →
        t.flags[FaultClass.feedLost.ix] = true)) ∧
  (∀ (m : Moment) (b : BookingIx) (l : LegId) (x : Booking) (lg : Leg) (at_ : Nat) (s : State),
    s.booking b = some x → x.leg l = some lg → lg.identAt = some at_ →
    ∃ t y, exec (.identTimeoutExpiry m b l) s = .next t ∧ KeepsSettings s t ∧ t.clock = max (s.clock + m.dt) at_ ∧
      t.booking b = some y ∧ (∀ i, i ≠ b → t.booking i = s.booking i) ∧ y.state = x.state ∧
      y.leg l = some { lg with ident := some .unconfirmed, identAt := none,
                               exIdent := lg.exIdent || decide (lg.policy = .require) } ∧
      (∀ o, o ≠ l → y.leg o = x.leg o) ∧
      (x.state = .live ∨ x.state = .overrun → x.outage ≠ none → ∃ o, y.outage = some o ∧ o.flag = !y.anyUsable)) ∧
  ∀ (m : Moment) (b : BookingIx) (l : LegId) (s : State),
    ((∀ x lg, s.booking b = some x → x.leg l = some lg → lg.silenceAt = none) →
      exec (.silenceTimerExpiry m b l) s = .next (s.advance m)) ∧
    ((∀ x lg, s.booking b = some x → x.leg l = some lg → lg.identAt = none) →
      exec (.identTimeoutExpiry m b l) s = .next (s.advance m))

/-- R57, R58: the arbiter's order at the start of a slot: a control head that has waited longer than 2 ms, unless the
previous slot escalated; class 1; class 2; control; fill. While a probe of the port is in flight no slot begins. That the
head is sent whatever the port's role, VENUE too, is the model's choice (log entry 29; R57 names no role), and that a slot
begins when the line comes free, or later when the command comes late, is the model's choice (log entry 3). -/
def Obligations.ArbiterChoosesInOrder : Prop :=
  ∀ (m : Moment) (p : PortIx) (s : State),
    ((∃ f, s.flight = some f ∧ f.port = p) → exec (.slotStart m p) s = .next (s.advance m)) ∧
    ((∀ f, s.flight = some f → f.port ≠ p) →
      let q := s.port p
      let now := if q.sending.isSome then max (s.clock + m.dt) q.freeAt else s.clock + m.dt
      let sends := fun (x : Port) (bytes : List Byte) (escalated : Bool) =>
        { x with sending := some bytes, freeAt := now + (bytes.length + 8) * 8, escalated := escalated }
      let escalates := ∃ f rest, q.control = f :: rest ∧ 20000000 < now - f.enqueued ∧ q.escalated = false
      ∃ t, exec (.slotStart m p) s = .next t ∧ t.clock = now ∧ t.bookings = s.bookings ∧ KeepsSettings s t ∧
        (∀ i, i ≠ p → t.port i = s.port i) ∧
        (∀ f rest, q.control = f :: rest → escalates →
          t.port p = sends { q with control := rest } (controlFrame f.payload) true) ∧
        (∀ c rest, ¬ escalates → q.class1 = c :: rest → t.port p = sends { q with class1 := rest } c.frame false) ∧
        (∀ c rest, ¬ escalates → q.class1 = [] → q.class2 = c :: rest →
          t.port p = sends { q with class2 := rest } c.frame false) ∧
        (∀ f rest, ¬ escalates → q.class1 = [] → q.class2 = [] → q.control = f :: rest →
          t.port p = sends { q with control := rest } (controlFrame f.payload) false) ∧
        (q.class1 = [] → q.class2 = [] → q.control = [] → t.port p = sends q fillFrame false))

/-! ## Admission, probes and bills (chapters 2, 6, 7 and 10) -/

/-- R11, R21, R27, R33 to R36: the scan in flight completes: ADMISSION is raised, its entry settles its booking by the
verdict (cancel-requested stays set in a record that becomes CANCELLED, which is the model's choice, log entry 28), void
entries at the head of the queue complete, and the next scan begins. With no scan in flight nothing
happens, which is the model's choice (log entry 17); a void entry behind the next scan keeps its place until a scan would
begin for it, which is the model's reading (log entry 11). -/
def Obligations.AdmissionCompletes : Prop :=
  ∀ (m : Moment) (s : State),
    (s.scan = none → exec (.admissionCompletion m) s = .next (s.advance m)) ∧
    ∀ sc, s.scan = some sc →
      let v := (sc.visitTo s.bookings 256).verdict fun p => (s.port p).capacity - (s.port p).reserve
      let b := sc.entry.booking
      ∃ t, exec (.admissionCompletion m) s = .next t ∧ KeepsSettings s t ∧
        (s.booking b ≠ none ∨ sc.entry.void = true → t.flags[FaultClass.admission.ix] = true) ∧
        (∀ i, i ≠ b → t.booking i = s.booking i) ∧
        (sc.entry.void = true → t.bookings = s.bookings) ∧
        (∀ x, sc.entry.void = false → sc.entry.kind = .book → s.booking b = some x →
          t.booking b = some
            (if x.cancelReq then { x with state := .cancelled }
             else match v with
              | none => { x with state := .confirmed }
              | some why => { x with state := .refused, detail := some why })) ∧
        (∀ x total clamped, sc.entry.void = false → sc.entry.kind = .extend total clamped → s.booking b = some x →
          t.booking b = some
            (if x.state ∈ [.confirmed, .armed, .live, .overrun] ∧ x.closeReq = none ∧ x.restartClose = false then
              match v with
              | none => { x with extendPending := false, allowance := total,
                                 lastExtend := some (if clamped then .clamped else .ok) }
              | some (.conflict p n) => { x with extendPending := false, lastExtend := some (.conflict p n) }
              | some (.clash p n) => { x with extendPending := false, lastExtend := some (.clash p n) }
             else { x with extendPending := false, lastExtend := some .state })) ∧
        (match s.waiting.dropWhile (·.void) with
         | [] => t.scan = none ∧ t.waiting = []
         | e :: rest => t.waiting = rest ∧ ∃ k, t.scan = some k ∧ k.entry = e ∧ k.visited = 0 ∧ k.seen = [] ∧
             ∀ y, t.booking e.booking = some y → k.candidate = y.claim (e.allowance y))

/-- R29, R30: the evaluation points suffice: the second a port's check answers is the least second of the candidate's
window at which the load with the candidate exceeds the bookable capacity, and it answers none exactly when there is no
such second. -/
def Obligations.EvaluationPointsSuffice : Prop :=
  ∀ (cand : Claim) (seen : List Claim) (dir : Direction) (p : PortIx) (bookable : Nat), cand.lo < cand.hi →
    (∀ n, failingSecond cand seen dir p bookable = some n ↔
      cand.lo ≤ n ∧ n < cand.hi ∧ bookable < loadAt cand seen dir p n ∧
        ∀ i, cand.lo ≤ i → i < n → loadAt cand seen dir p i ≤ bookable) ∧
    (failingSecond cand seen dir p bookable = none ↔
      ∀ i, cand.lo ≤ i → i < cand.hi → loadAt cand seen dir p i ≤ bookable)

/-- R102 to R105, R107, R110, R111: the phases of the probe in flight, each on its event: the transmitter passing,
energy or none before and after, each segment's trace, the result by the first kept peak at the break threshold, and the
timer's expiry; a trace of another probe, as of one that ended before, is ignored. With no probe in flight nothing happens,
which is the model's choice (log entry 17), and so are the instants: a trace is taken no earlier than its phase's work is
done (log entry 12), and a late command acts late (log entry 3). -/
def Obligations.ProbePassesItsPhases : Prop :=
  (∀ (m : Moment) (trace : Trace) (s : State), s.flight = none →
    exec (.transmitterPasses m) s = .next (s.advance m) ∧ exec (.phaseTimerExpiry m) s = .next (s.advance m) ∧
      exec (.traceDelivered m trace) s = .next (s.advance m)) ∧
  (∀ (m : Moment) (f : Flight) (trace : Trace) (s : State), s.flight = some f → trace.probe ≠ f.number →
    exec (.traceDelivered m trace) s = .next (s.advance m)) ∧
  (∀ (m : Moment) (f : Flight) (s : State), s.flight = some f → f.began = none →
    ∃ t, exec (.transmitterPasses m) s = .next t ∧ KeepsSettings s t ∧ t.bookings = s.bookings ∧
      t.clock = max (s.clock + m.dt) (s.port f.port).freeAt ∧ t.flight = some { f with began := some t.clock } ∧
      t.port f.port = { s.port f.port with sending := none } ∧ ∀ i, i ≠ f.port → t.port i = s.port i) ∧
  ∀ (m : Moment) (f : Flight) (since : Nat) (s : State), s.flight = some f → f.began = some since →
    (∃ t, exec (.phaseTimerExpiry m) s = .next t ∧ KeepsSettings s t ∧
      t.clock = max (s.clock + m.dt) (since + 10000000000) ∧ ProbeEnded s t f (.bare .timeout)) ∧
    (∀ level, f.phase = .preSilence → ∃ t, exec (.traceDelivered m { probe := f.number, measured := .silence level }) s = .next t ∧
      t.clock = max (s.clock + m.dt) (since + f.config.preMs * 10000000) ∧
      (level ≤ f.config.silence → t.bookings = s.bookings ∧ t.ports = s.ports ∧ t.lastResults = s.lastResults ∧
        t.flight = some { f with phase := .segment 1, began := some t.clock }) ∧
      (f.config.silence < level → ProbeEnded s t f (.bare .liveFibre))) ∧
    (∀ k g shots, f.phase = .segment k → f.config.segments[k - 1]? = some g → shots.length = 2 ^ g.exponent →
      (∀ x ∈ shots, x.length = g.last + 1) →
      ∃ t, exec (.traceDelivered m { probe := f.number, measured := .samples shots }) s = .next t ∧ t.bookings = s.bookings ∧ t.ports = s.ports ∧
        t.lastResults = s.lastResults ∧
        t.clock = max (s.clock + m.dt) (since + 2 ^ g.exponent * (g.last + 1) * 50) ∧
        t.flight = some { f with phase := if k < f.config.segments.length then .segment (k + 1) else .postSilence,
                                 began := some t.clock, peaks := f.peaks ++ segmentPeaks g shots }) ∧
    (∀ level, f.phase = .postSilence → ∃ t, exec (.traceDelivered m { probe := f.number, measured := .silence level }) s = .next t ∧
      (f.config.silence < level → ProbeEnded s t f (.bare .liveFibre)) ∧
      (level ≤ f.config.silence →
        let kept := (f.peaks.take 5).map fun k =>
          ({ distance := (k.index * f.config.q + 512) / 1024, amplitude := k.amplitude } : KeptPeak)
        let first := kept.find? fun k => decide (f.config.breakThreshold ≤ k.amplitude)
        ProbeEnded s t f { outcome := if first.isSome then .brk else .noBreak, peaks := kept,
                           distance := first.map (·.distance) }))

/-- R106: the peaks a segment declares stand in rising index order; each is a sample above the threshold that no sample
up to the end of its run exceeds, and its run is as many lower samples in a row as the shadow length. And what a search
declares: nothing at or below the threshold; the first sample above it, or a higher one that replaces it before its run is
full, as soon as the run is full, the search beginning afresh behind it; and nothing of a candidate open at the end. -/
def Obligations.PeaksAreDeclaredByRuns : Prop :=
  (∀ (threshold shadow first : Nat) (xs : List Nat), 1 ≤ shadow →
    let peaks := searchPeaks threshold shadow none ((xs.zipIdx first).map fun x => (x.2, x.1))
    peaks.Pairwise (fun a c => a.index < c.index) ∧
    ∀ k ∈ peaks, threshold < k.amplitude ∧ first ≤ k.index ∧ xs[k.index - first]? = some k.amplitude ∧
      ∃ j, k.index + shadow ≤ j ∧ j < first + xs.length ∧
        (∀ i, k.index ≤ i → i ≤ j → ∃ x, xs[i - first]? = some x ∧ x ≤ k.amplitude) ∧
        ∀ i x, j < i + shadow → i ≤ j → xs[i - first]? = some x → x < k.amplitude) ∧
  ∀ (threshold shadow first : Nat) (pre low post : List Nat) (x : Nat), 1 ≤ shadow → (∀ v ∈ pre, v ≤ threshold) →
    let search := fun (from_ : Nat) (xs : List Nat) =>
      searchPeaks threshold shadow none ((xs.zipIdx from_).map fun x => (x.2, x.1))
    let full := fun (i : Nat) => i + shadow ≤ low.length ∧ ∀ j, i ≤ j → j < i + shadow → ∃ v, low[j]? = some v ∧ v < x
    let behind := first + pre.length + 1 + low.length
    search first pre = [] ∧
    (threshold < x → (∀ v ∈ low, v ≤ x) → shadow ≤ low.length → (∀ i, full i ↔ i + shadow = low.length) →
      search first (pre ++ x :: low ++ post) = { index := first + pre.length, amplitude := x } :: search behind post) ∧
    (threshold < x → (∀ v ∈ low, v ≤ x) → (∀ i, ¬ full i) →
      search first (pre ++ x :: low) = [] ∧
      ∀ z, x < z → search first (pre ++ x :: low ++ z :: post) = search behind (z :: post))

/-- R108, R109, R117, R122, R129, R154: the end of a probe, in flight or waiting, settles every cause pending on it, in
every booking, against the port's demarcation distance, and a CLOSING booking that this settles is billed; a RESTART ends
all probes and settles their causes UNKNOWN; the attribution of a record goes by strength, its break by the leg whose
cause is the attribution. Nothing is said of the L of a bill where the second count wrapped while the booking was LIVE (log
entry 31). -/
def Obligations.ProbesSettleCauses : Prop :=
  (∀ (m : Moment) (f : Flight) (e : ProbeEnd) (s : State), CausesSettled s (s.endFlight m f e) f.number f.port e) ∧
  (∀ (m : Moment) (p : PortIx) (o : ProbeOutcome) (s : State),
    (∀ f, s.flight = some f → f.port = p → CausesSettled s (s.endProbeOf m p o) f.number p (.bare o)) ∧
    (∀ w ∈ s.probeWaiting, w.port = p → s.ProbeInv → CausesSettled s (s.endProbeOf m p o) w.number p (.bare o)) ∧
    (s.probeOf p = none → s.endProbeOf m p o = s)) ∧
  (∀ (m : Moment) (p : PortIx) (s : State), (s.port p).link = .down → ∃ t, exec (.lightReturns m p) s = .next t ∧
    (∀ f, s.flight = some f → f.port = p → CausesSettled s t f.number p (.bare .liveFibre)) ∧
    ∀ w ∈ s.probeWaiting, w.port = p → s.ProbeInv → CausesSettled s t w.number p (.bare .liveFibre)) ∧
  (∀ (r : Req) (b : BookingIx) (x : Booking) (s : State), FromOperator s r → s.restart = false →
    s.countBookings (fun x => decide (x.state ∈ [.armed, .live, .overrun, .closing])) ≤ 64 - s.bills.length →
    s.booking b = some x →
    let swap := fun (c : Cause) =>
      if ∃ n ∈ s.heldNumbers, c.value = .pending n then { value := .unknown, brk := none } else c
    let leg := fun (c : LegCause) => { c with held := c.held.map swap, carried := c.carried.map swap }
    ∃ t y, exec (.restart r (some ())) s = .next t ∧ t.booking b = some y ∧
      y.outage = x.outage.map (fun o =>
        { o with records := o.records.map fun k => { k with main := leg k.main, backup := leg k.backup } }) ∧
      (x.state = .closing → s.heldNumbers ≠ [] → y.settled = true →
        y.state = .closed ∨ ∃ k ∈ t.billWaiting, k.booking = b)) ∧
  (∀ o : OutageRecord,
    (o.attribution = .network ↔ ∃ c ∈ o.reported, c.value = .network) ∧
    (o.attribution = .pending ↔ (∀ c ∈ o.reported, c.value ≠ .network) ∧ ∃ c ∈ o.reported, ∃ n, c.value = .pending n) ∧
    (o.attribution = .unknown ↔ (∀ c ∈ o.reported, c.value ≠ .network ∧ ∀ n, c.value ≠ .pending n) ∧
      ∃ c ∈ o.reported, c.value = .unknown) ∧
    (o.attribution = .venue ↔ ∀ c ∈ o.reported, c.value = .venue)) ∧
  ∀ (o : OutageRecord) (k : Break), o.brk = some k →
    (∃ c, o.main.reported = some c ∧ c.value.attribution = o.attribution ∧ c.brk = some k) ∨
    ((∀ c, o.main.reported = some c → c.value.attribution = o.attribution → c.brk = none) ∧
      ∃ c, o.backup.reported = some c ∧ c.value.attribution = o.attribution ∧ c.brk = some k)

/-- R156 to R160: the rounding modes, the line charge with its clamp and ceiling, the total, and the charge of a late
cancel. -/
def Obligations.ChargesAreRoundedAndBounded : Prop :=
  (∀ n d : Nat, 0 < d → let q := n / d; let r := n % d
    roundQuotient .floor n d = q ∧
    roundQuotient .ceiling n d = (if r = 0 then q else q + 1) ∧
    (2 * r < d → roundQuotient .nearestEven n d = q) ∧
    (d < 2 * r → roundQuotient .nearestEven n d = q + 1) ∧
    (2 * r = d → roundQuotient .nearestEven n d % 2 = 0 ∧ q ≤ roundQuotient .nearestEven n d ∧
      roundQuotient .nearestEven n d ≤ q + 1)) ∧
  (∀ (r : Booking) (t : Tariff) (d : Dest),
    let x := d.residency
    let weigh := fun (v : Bands) =>
      (v.b0 * 100 + v.b1 * (100 - t.disc1) + v.b2 * (100 - t.disc2) + v.b3 * (100 - t.disc3) : Nat)
    let n : Int := (r.rate * t.price : Int) *
      (16 * (weigh x.bandLive : Int) + t.multiplier * (weigh x.bandOver : Int)
        - 1600 * t.creditFactor * (r.creditedSeconds t : Int))
    let y := lineOf r t d
    (y.port, y.deliveredLive, y.deliveredOver, y.bandLive, y.bandOver) =
      (d.port, x.deliveredLive, x.deliveredOver, x.bandLive, x.bandOver) ∧
    y.creditClamped = decide (n < 0) ∧ chargeOk y.charge y.saturated ∧
    (n ≤ 0 → y.charge = 0 ∧ y.saturated = false) ∧
    (0 < n → let c := roundQuotient t.rounding n.toNat 96000
      (c ≤ 4294967294 → y.charge = c ∧ y.saturated = false) ∧
      (4294967294 < c → y.charge = 4294967295 ∧ y.saturated = true))) ∧
  (∀ lines : List BillLine,
    ((∃ l ∈ lines, l.saturated = true) → totalOf lines = (4294967295, true)) ∧
    ((∀ l ∈ lines, l.saturated = false) → totalOf lines =
      if (lines.map (·.charge)).sum ≤ 4294967294 then ((lines.map (·.charge)).sum, false) else (4294967295, true))) ∧
  ∀ (r : Booking) (t : Tariff), r.start ≤ r.finish →
    let minutes := (r.finish - r.start + 59) / 60
    let c := roundQuotient t.rounding (r.rate * t.price * minutes * t.latePercent) 100
    lateCancelCharge r t = if c ≤ 4294967294 then (c, false) else (4294967295, true)
end

