-- ==== Sys2Proof/Laws/State.lean ====
section
/-! SUPPORT. What each named update leaves in each field of the state, and how the accessors read through them. -/

namespace Sys2Proof.Machine
open Sys2Proof.Config

variable (s : State)

/-! ### elapse -/

@[simp] theorem State.elapse_pending (dt : Nat) : (s.elapse dt).pending = s.pending := rfl
@[simp] theorem State.elapse_clock (dt : Nat) : (s.elapse dt).clock = s.clock + dt := rfl
@[simp] theorem State.elapse_sec (dt : Nat) : (s.elapse dt).sec = s.sec := rfl
@[simp] theorem State.elapse_sub (dt : Nat) : (s.elapse dt).sub = s.sub + dt := rfl
@[simp] theorem State.elapse_timeSet (dt : Nat) : (s.elapse dt).timeSet = s.timeSet := rfl
@[simp] theorem State.elapse_idleClose (dt : Nat) : (s.elapse dt).idleClose = s.idleClose := rfl
@[simp] theorem State.elapse_restart (dt : Nat) : (s.elapse dt).restart = s.restart := rfl
@[simp] theorem State.elapse_bookings (dt : Nat) : (s.elapse dt).bookings = s.bookings := rfl
@[simp] theorem State.elapse_scan (dt : Nat) : (s.elapse dt).scan = s.scan := rfl
@[simp] theorem State.elapse_waiting (dt : Nat) : (s.elapse dt).waiting = s.waiting := rfl
@[simp] theorem State.elapse_ports (dt : Nat) : (s.elapse dt).ports = s.ports := rfl
@[simp] theorem State.elapse_flows (dt : Nat) : (s.elapse dt).flows = s.flows := rfl
@[simp] theorem State.elapse_deferred (dt : Nat) : (s.elapse dt).deferred = s.deferred := rfl
@[simp] theorem State.elapse_patterns (dt : Nat) : (s.elapse dt).patterns = s.patterns := rfl
@[simp] theorem State.elapse_silenceMs (dt : Nat) : (s.elapse dt).silenceMs = s.silenceMs := rfl
@[simp] theorem State.elapse_identTimeout (dt : Nat) : (s.elapse dt).identTimeout = s.identTimeout := rfl
@[simp] theorem State.elapse_flight (dt : Nat) : (s.elapse dt).flight = s.flight := rfl
@[simp] theorem State.elapse_probeWaiting (dt : Nat) : (s.elapse dt).probeWaiting = s.probeWaiting := rfl
@[simp] theorem State.elapse_probeCounter (dt : Nat) : (s.elapse dt).probeCounter = s.probeCounter := rfl
@[simp] theorem State.elapse_probeConfig (dt : Nat) : (s.elapse dt).probeConfig = s.probeConfig := rfl
@[simp] theorem State.elapse_lastResults (dt : Nat) : (s.elapse dt).lastResults = s.lastResults := rfl
@[simp] theorem State.elapse_counters (dt : Nat) : (s.elapse dt).counters = s.counters := rfl
@[simp] theorem State.elapse_frozen (dt : Nat) : (s.elapse dt).frozen = s.frozen := rfl
@[simp] theorem State.elapse_flags (dt : Nat) : (s.elapse dt).flags = s.flags := rfl
@[simp] theorem State.elapse_masks (dt : Nat) : (s.elapse dt).masks = s.masks := rfl
@[simp] theorem State.elapse_capture (dt : Nat) : (s.elapse dt).capture = s.capture := rfl
@[simp] theorem State.elapse_raised (dt : Nat) : (s.elapse dt).raised = s.raised := rfl
@[simp] theorem State.elapse_tariffs (dt : Nat) : (s.elapse dt).tariffs = s.tariffs := rfl
@[simp] theorem State.elapse_bills (dt : Nat) : (s.elapse dt).bills = s.bills := rfl
@[simp] theorem State.elapse_billWaiting (dt : Nat) : (s.elapse dt).billWaiting = s.billWaiting := rfl
@[simp] theorem State.elapse_noticePort (dt : Nat) : (s.elapse dt).noticePort = s.noticePort := rfl
@[simp] theorem State.elapse_startCause (dt : Nat) : (s.elapse dt).startCause = s.startCause := rfl
@[simp] theorem State.elapse_straps (dt : Nat) : (s.elapse dt).straps = s.straps := rfl

/-! ### beginEvent -/

@[simp] theorem State.beginEvent_pending (dt : Nat) : (s.beginEvent dt).pending = s.pending := rfl
@[simp] theorem State.beginEvent_clock (dt : Nat) : (s.beginEvent dt).clock = s.clock + dt := rfl
@[simp] theorem State.beginEvent_sec (dt : Nat) : (s.beginEvent dt).sec = s.sec := rfl
@[simp] theorem State.beginEvent_sub (dt : Nat) : (s.beginEvent dt).sub = s.sub + dt := rfl
@[simp] theorem State.beginEvent_timeSet (dt : Nat) : (s.beginEvent dt).timeSet = s.timeSet := rfl
@[simp] theorem State.beginEvent_idleClose (dt : Nat) : (s.beginEvent dt).idleClose = s.idleClose := rfl
@[simp] theorem State.beginEvent_restart (dt : Nat) : (s.beginEvent dt).restart = s.restart := rfl
@[simp] theorem State.beginEvent_bookings (dt : Nat) : (s.beginEvent dt).bookings = s.bookings := rfl
@[simp] theorem State.beginEvent_scan (dt : Nat) : (s.beginEvent dt).scan = s.scan := rfl
@[simp] theorem State.beginEvent_waiting (dt : Nat) : (s.beginEvent dt).waiting = s.waiting := rfl
@[simp] theorem State.beginEvent_ports (dt : Nat) : (s.beginEvent dt).ports = s.ports := rfl
@[simp] theorem State.beginEvent_flows (dt : Nat) : (s.beginEvent dt).flows = s.flows := rfl
@[simp] theorem State.beginEvent_deferred (dt : Nat) : (s.beginEvent dt).deferred = s.deferred := rfl
@[simp] theorem State.beginEvent_patterns (dt : Nat) : (s.beginEvent dt).patterns = s.patterns := rfl
@[simp] theorem State.beginEvent_silenceMs (dt : Nat) : (s.beginEvent dt).silenceMs = s.silenceMs := rfl
@[simp] theorem State.beginEvent_identTimeout (dt : Nat) : (s.beginEvent dt).identTimeout = s.identTimeout := rfl
@[simp] theorem State.beginEvent_flight (dt : Nat) : (s.beginEvent dt).flight = s.flight := rfl
@[simp] theorem State.beginEvent_probeWaiting (dt : Nat) : (s.beginEvent dt).probeWaiting = s.probeWaiting := rfl
@[simp] theorem State.beginEvent_probeCounter (dt : Nat) : (s.beginEvent dt).probeCounter = s.probeCounter := rfl
@[simp] theorem State.beginEvent_probeConfig (dt : Nat) : (s.beginEvent dt).probeConfig = s.probeConfig := rfl
@[simp] theorem State.beginEvent_lastResults (dt : Nat) : (s.beginEvent dt).lastResults = s.lastResults := rfl
@[simp] theorem State.beginEvent_counters (dt : Nat) : (s.beginEvent dt).counters = s.counters := rfl
@[simp] theorem State.beginEvent_frozen (dt : Nat) : (s.beginEvent dt).frozen = s.frozen := rfl
@[simp] theorem State.beginEvent_flags (dt : Nat) : (s.beginEvent dt).flags = s.flags := rfl
@[simp] theorem State.beginEvent_masks (dt : Nat) : (s.beginEvent dt).masks = s.masks := rfl
@[simp] theorem State.beginEvent_capture (dt : Nat) : (s.beginEvent dt).capture = s.capture := rfl
@[simp] theorem State.beginEvent_raised (dt : Nat) : (s.beginEvent dt).raised = [] := rfl
@[simp] theorem State.beginEvent_tariffs (dt : Nat) : (s.beginEvent dt).tariffs = s.tariffs := rfl
@[simp] theorem State.beginEvent_bills (dt : Nat) : (s.beginEvent dt).bills = s.bills := rfl
@[simp] theorem State.beginEvent_billWaiting (dt : Nat) : (s.beginEvent dt).billWaiting = s.billWaiting := rfl
@[simp] theorem State.beginEvent_noticePort (dt : Nat) : (s.beginEvent dt).noticePort = s.noticePort := rfl
@[simp] theorem State.beginEvent_startCause (dt : Nat) : (s.beginEvent dt).startCause = s.startCause := rfl
@[simp] theorem State.beginEvent_straps (dt : Nat) : (s.beginEvent dt).straps = s.straps := rfl

/-! ### setPort -/

@[simp] theorem State.setPort_pending (p : PortIx) (x : Port) : (s.setPort p x).pending = s.pending := rfl
@[simp] theorem State.setPort_clock (p : PortIx) (x : Port) : (s.setPort p x).clock = s.clock := rfl
@[simp] theorem State.setPort_sec (p : PortIx) (x : Port) : (s.setPort p x).sec = s.sec := rfl
@[simp] theorem State.setPort_sub (p : PortIx) (x : Port) : (s.setPort p x).sub = s.sub := rfl
@[simp] theorem State.setPort_timeSet (p : PortIx) (x : Port) : (s.setPort p x).timeSet = s.timeSet := rfl
@[simp] theorem State.setPort_idleClose (p : PortIx) (x : Port) : (s.setPort p x).idleClose = s.idleClose := rfl
@[simp] theorem State.setPort_restart (p : PortIx) (x : Port) : (s.setPort p x).restart = s.restart := rfl
@[simp] theorem State.setPort_bookings (p : PortIx) (x : Port) : (s.setPort p x).bookings = s.bookings := rfl
@[simp] theorem State.setPort_scan (p : PortIx) (x : Port) : (s.setPort p x).scan = s.scan := rfl
@[simp] theorem State.setPort_waiting (p : PortIx) (x : Port) : (s.setPort p x).waiting = s.waiting := rfl
@[simp] theorem State.setPort_ports (p : PortIx) (x : Port) : (s.setPort p x).ports = s.ports.set p x := rfl
@[simp] theorem State.setPort_flows (p : PortIx) (x : Port) : (s.setPort p x).flows = s.flows := rfl
@[simp] theorem State.setPort_deferred (p : PortIx) (x : Port) : (s.setPort p x).deferred = s.deferred := rfl
@[simp] theorem State.setPort_patterns (p : PortIx) (x : Port) : (s.setPort p x).patterns = s.patterns := rfl
@[simp] theorem State.setPort_silenceMs (p : PortIx) (x : Port) : (s.setPort p x).silenceMs = s.silenceMs := rfl
@[simp] theorem State.setPort_identTimeout (p : PortIx) (x : Port) : (s.setPort p x).identTimeout = s.identTimeout := rfl
@[simp] theorem State.setPort_flight (p : PortIx) (x : Port) : (s.setPort p x).flight = s.flight := rfl
@[simp] theorem State.setPort_probeWaiting (p : PortIx) (x : Port) : (s.setPort p x).probeWaiting = s.probeWaiting := rfl
@[simp] theorem State.setPort_probeCounter (p : PortIx) (x : Port) : (s.setPort p x).probeCounter = s.probeCounter := rfl
@[simp] theorem State.setPort_probeConfig (p : PortIx) (x : Port) : (s.setPort p x).probeConfig = s.probeConfig := rfl
@[simp] theorem State.setPort_lastResults (p : PortIx) (x : Port) : (s.setPort p x).lastResults = s.lastResults := rfl
@[simp] theorem State.setPort_counters (p : PortIx) (x : Port) : (s.setPort p x).counters = s.counters := rfl
@[simp] theorem State.setPort_frozen (p : PortIx) (x : Port) : (s.setPort p x).frozen = s.frozen := rfl
@[simp] theorem State.setPort_flags (p : PortIx) (x : Port) : (s.setPort p x).flags = s.flags := rfl
@[simp] theorem State.setPort_masks (p : PortIx) (x : Port) : (s.setPort p x).masks = s.masks := rfl
@[simp] theorem State.setPort_capture (p : PortIx) (x : Port) : (s.setPort p x).capture = s.capture := rfl
@[simp] theorem State.setPort_raised (p : PortIx) (x : Port) : (s.setPort p x).raised = s.raised := rfl
@[simp] theorem State.setPort_tariffs (p : PortIx) (x : Port) : (s.setPort p x).tariffs = s.tariffs := rfl
@[simp] theorem State.setPort_bills (p : PortIx) (x : Port) : (s.setPort p x).bills = s.bills := rfl
@[simp] theorem State.setPort_billWaiting (p : PortIx) (x : Port) : (s.setPort p x).billWaiting = s.billWaiting := rfl
@[simp] theorem State.setPort_noticePort (p : PortIx) (x : Port) : (s.setPort p x).noticePort = s.noticePort := rfl
@[simp] theorem State.setPort_startCause (p : PortIx) (x : Port) : (s.setPort p x).startCause = s.startCause := rfl
@[simp] theorem State.setPort_straps (p : PortIx) (x : Port) : (s.setPort p x).straps = s.straps := rfl

/-! ### setBooking -/

@[simp] theorem State.setBooking_pending (b : BookingIx) (x : Option Booking) : (s.setBooking b x).pending = s.pending := rfl
@[simp] theorem State.setBooking_clock (b : BookingIx) (x : Option Booking) : (s.setBooking b x).clock = s.clock := rfl
@[simp] theorem State.setBooking_sec (b : BookingIx) (x : Option Booking) : (s.setBooking b x).sec = s.sec := rfl
@[simp] theorem State.setBooking_sub (b : BookingIx) (x : Option Booking) : (s.setBooking b x).sub = s.sub := rfl
@[simp] theorem State.setBooking_timeSet (b : BookingIx) (x : Option Booking) : (s.setBooking b x).timeSet = s.timeSet := rfl
@[simp] theorem State.setBooking_idleClose (b : BookingIx) (x : Option Booking) : (s.setBooking b x).idleClose = s.idleClose := rfl
@[simp] theorem State.setBooking_restart (b : BookingIx) (x : Option Booking) : (s.setBooking b x).restart = s.restart := rfl
@[simp] theorem State.setBooking_bookings (b : BookingIx) (x : Option Booking) : (s.setBooking b x).bookings = s.bookings.set b x := rfl
@[simp] theorem State.setBooking_scan (b : BookingIx) (x : Option Booking) : (s.setBooking b x).scan = s.scan := rfl
@[simp] theorem State.setBooking_waiting (b : BookingIx) (x : Option Booking) : (s.setBooking b x).waiting = s.waiting := rfl
@[simp] theorem State.setBooking_ports (b : BookingIx) (x : Option Booking) : (s.setBooking b x).ports = s.ports := rfl
@[simp] theorem State.setBooking_flows (b : BookingIx) (x : Option Booking) : (s.setBooking b x).flows = s.flows := rfl
@[simp] theorem State.setBooking_deferred (b : BookingIx) (x : Option Booking) : (s.setBooking b x).deferred = s.deferred := rfl
@[simp] theorem State.setBooking_patterns (b : BookingIx) (x : Option Booking) : (s.setBooking b x).patterns = s.patterns := rfl
@[simp] theorem State.setBooking_silenceMs (b : BookingIx) (x : Option Booking) : (s.setBooking b x).silenceMs = s.silenceMs := rfl
@[simp] theorem State.setBooking_identTimeout (b : BookingIx) (x : Option Booking) : (s.setBooking b x).identTimeout = s.identTimeout := rfl
@[simp] theorem State.setBooking_flight (b : BookingIx) (x : Option Booking) : (s.setBooking b x).flight = s.flight := rfl
@[simp] theorem State.setBooking_probeWaiting (b : BookingIx) (x : Option Booking) : (s.setBooking b x).probeWaiting = s.probeWaiting := rfl
@[simp] theorem State.setBooking_probeCounter (b : BookingIx) (x : Option Booking) : (s.setBooking b x).probeCounter = s.probeCounter := rfl
@[simp] theorem State.setBooking_probeConfig (b : BookingIx) (x : Option Booking) : (s.setBooking b x).probeConfig = s.probeConfig := rfl
@[simp] theorem State.setBooking_lastResults (b : BookingIx) (x : Option Booking) : (s.setBooking b x).lastResults = s.lastResults := rfl
@[simp] theorem State.setBooking_counters (b : BookingIx) (x : Option Booking) : (s.setBooking b x).counters = s.counters := rfl
@[simp] theorem State.setBooking_frozen (b : BookingIx) (x : Option Booking) : (s.setBooking b x).frozen = s.frozen := rfl
@[simp] theorem State.setBooking_flags (b : BookingIx) (x : Option Booking) : (s.setBooking b x).flags = s.flags := rfl
@[simp] theorem State.setBooking_masks (b : BookingIx) (x : Option Booking) : (s.setBooking b x).masks = s.masks := rfl
@[simp] theorem State.setBooking_capture (b : BookingIx) (x : Option Booking) : (s.setBooking b x).capture = s.capture := rfl
@[simp] theorem State.setBooking_raised (b : BookingIx) (x : Option Booking) : (s.setBooking b x).raised = s.raised := rfl
@[simp] theorem State.setBooking_tariffs (b : BookingIx) (x : Option Booking) : (s.setBooking b x).tariffs = s.tariffs := rfl
@[simp] theorem State.setBooking_bills (b : BookingIx) (x : Option Booking) : (s.setBooking b x).bills = s.bills := rfl
@[simp] theorem State.setBooking_billWaiting (b : BookingIx) (x : Option Booking) : (s.setBooking b x).billWaiting = s.billWaiting := rfl
@[simp] theorem State.setBooking_noticePort (b : BookingIx) (x : Option Booking) : (s.setBooking b x).noticePort = s.noticePort := rfl
@[simp] theorem State.setBooking_startCause (b : BookingIx) (x : Option Booking) : (s.setBooking b x).startCause = s.startCause := rfl
@[simp] theorem State.setBooking_straps (b : BookingIx) (x : Option Booking) : (s.setBooking b x).straps = s.straps := rfl

/-! ### setCounter -/

@[simp] theorem State.setCounter_pending (i : CounterIx) (c : Counter) : (s.setCounter i c).pending = s.pending := rfl
@[simp] theorem State.setCounter_clock (i : CounterIx) (c : Counter) : (s.setCounter i c).clock = s.clock := rfl
@[simp] theorem State.setCounter_sec (i : CounterIx) (c : Counter) : (s.setCounter i c).sec = s.sec := rfl
@[simp] theorem State.setCounter_sub (i : CounterIx) (c : Counter) : (s.setCounter i c).sub = s.sub := rfl
@[simp] theorem State.setCounter_timeSet (i : CounterIx) (c : Counter) : (s.setCounter i c).timeSet = s.timeSet := rfl
@[simp] theorem State.setCounter_idleClose (i : CounterIx) (c : Counter) : (s.setCounter i c).idleClose = s.idleClose := rfl
@[simp] theorem State.setCounter_restart (i : CounterIx) (c : Counter) : (s.setCounter i c).restart = s.restart := rfl
@[simp] theorem State.setCounter_bookings (i : CounterIx) (c : Counter) : (s.setCounter i c).bookings = s.bookings := rfl
@[simp] theorem State.setCounter_scan (i : CounterIx) (c : Counter) : (s.setCounter i c).scan = s.scan := rfl
@[simp] theorem State.setCounter_waiting (i : CounterIx) (c : Counter) : (s.setCounter i c).waiting = s.waiting := rfl
@[simp] theorem State.setCounter_ports (i : CounterIx) (c : Counter) : (s.setCounter i c).ports = s.ports := rfl
@[simp] theorem State.setCounter_flows (i : CounterIx) (c : Counter) : (s.setCounter i c).flows = s.flows := rfl
@[simp] theorem State.setCounter_deferred (i : CounterIx) (c : Counter) : (s.setCounter i c).deferred = s.deferred := rfl
@[simp] theorem State.setCounter_patterns (i : CounterIx) (c : Counter) : (s.setCounter i c).patterns = s.patterns := rfl
@[simp] theorem State.setCounter_silenceMs (i : CounterIx) (c : Counter) : (s.setCounter i c).silenceMs = s.silenceMs := rfl
@[simp] theorem State.setCounter_identTimeout (i : CounterIx) (c : Counter) : (s.setCounter i c).identTimeout = s.identTimeout := rfl
@[simp] theorem State.setCounter_flight (i : CounterIx) (c : Counter) : (s.setCounter i c).flight = s.flight := rfl
@[simp] theorem State.setCounter_probeWaiting (i : CounterIx) (c : Counter) : (s.setCounter i c).probeWaiting = s.probeWaiting := rfl
@[simp] theorem State.setCounter_probeCounter (i : CounterIx) (c : Counter) : (s.setCounter i c).probeCounter = s.probeCounter := rfl
@[simp] theorem State.setCounter_probeConfig (i : CounterIx) (c : Counter) : (s.setCounter i c).probeConfig = s.probeConfig := rfl
@[simp] theorem State.setCounter_lastResults (i : CounterIx) (c : Counter) : (s.setCounter i c).lastResults = s.lastResults := rfl
@[simp] theorem State.setCounter_counters (i : CounterIx) (c : Counter) : (s.setCounter i c).counters = s.counters.set i c := rfl
@[simp] theorem State.setCounter_frozen (i : CounterIx) (c : Counter) : (s.setCounter i c).frozen = s.frozen := rfl
@[simp] theorem State.setCounter_flags (i : CounterIx) (c : Counter) : (s.setCounter i c).flags = s.flags := rfl
@[simp] theorem State.setCounter_masks (i : CounterIx) (c : Counter) : (s.setCounter i c).masks = s.masks := rfl
@[simp] theorem State.setCounter_capture (i : CounterIx) (c : Counter) : (s.setCounter i c).capture = s.capture := rfl
@[simp] theorem State.setCounter_raised (i : CounterIx) (c : Counter) : (s.setCounter i c).raised = s.raised := rfl
@[simp] theorem State.setCounter_tariffs (i : CounterIx) (c : Counter) : (s.setCounter i c).tariffs = s.tariffs := rfl
@[simp] theorem State.setCounter_bills (i : CounterIx) (c : Counter) : (s.setCounter i c).bills = s.bills := rfl
@[simp] theorem State.setCounter_billWaiting (i : CounterIx) (c : Counter) : (s.setCounter i c).billWaiting = s.billWaiting := rfl
@[simp] theorem State.setCounter_noticePort (i : CounterIx) (c : Counter) : (s.setCounter i c).noticePort = s.noticePort := rfl
@[simp] theorem State.setCounter_startCause (i : CounterIx) (c : Counter) : (s.setCounter i c).startCause = s.startCause := rfl
@[simp] theorem State.setCounter_straps (i : CounterIx) (c : Counter) : (s.setCounter i c).straps = s.straps := rfl

/-! ### recordRaise -/

@[simp] theorem State.recordRaise_pending (c : FaultClass) (it : RaiseItems) : (s.recordRaise c it).pending = s.pending := rfl
@[simp] theorem State.recordRaise_clock (c : FaultClass) (it : RaiseItems) : (s.recordRaise c it).clock = s.clock := rfl
@[simp] theorem State.recordRaise_sec (c : FaultClass) (it : RaiseItems) : (s.recordRaise c it).sec = s.sec := rfl
@[simp] theorem State.recordRaise_sub (c : FaultClass) (it : RaiseItems) : (s.recordRaise c it).sub = s.sub := rfl
@[simp] theorem State.recordRaise_timeSet (c : FaultClass) (it : RaiseItems) : (s.recordRaise c it).timeSet = s.timeSet := rfl
@[simp] theorem State.recordRaise_idleClose (c : FaultClass) (it : RaiseItems) : (s.recordRaise c it).idleClose = s.idleClose := rfl
@[simp] theorem State.recordRaise_restart (c : FaultClass) (it : RaiseItems) : (s.recordRaise c it).restart = s.restart := rfl
@[simp] theorem State.recordRaise_bookings (c : FaultClass) (it : RaiseItems) : (s.recordRaise c it).bookings = s.bookings := rfl
@[simp] theorem State.recordRaise_scan (c : FaultClass) (it : RaiseItems) : (s.recordRaise c it).scan = s.scan := rfl
@[simp] theorem State.recordRaise_waiting (c : FaultClass) (it : RaiseItems) : (s.recordRaise c it).waiting = s.waiting := rfl
@[simp] theorem State.recordRaise_ports (c : FaultClass) (it : RaiseItems) : (s.recordRaise c it).ports = s.ports := rfl
@[simp] theorem State.recordRaise_flows (c : FaultClass) (it : RaiseItems) : (s.recordRaise c it).flows = s.flows := rfl
@[simp] theorem State.recordRaise_deferred (c : FaultClass) (it : RaiseItems) : (s.recordRaise c it).deferred = s.deferred := rfl
@[simp] theorem State.recordRaise_patterns (c : FaultClass) (it : RaiseItems) : (s.recordRaise c it).patterns = s.patterns := rfl
@[simp] theorem State.recordRaise_silenceMs (c : FaultClass) (it : RaiseItems) : (s.recordRaise c it).silenceMs = s.silenceMs := rfl
@[simp] theorem State.recordRaise_identTimeout (c : FaultClass) (it : RaiseItems) : (s.recordRaise c it).identTimeout = s.identTimeout := rfl
@[simp] theorem State.recordRaise_flight (c : FaultClass) (it : RaiseItems) : (s.recordRaise c it).flight = s.flight := rfl
@[simp] theorem State.recordRaise_probeWaiting (c : FaultClass) (it : RaiseItems) : (s.recordRaise c it).probeWaiting = s.probeWaiting := rfl
@[simp] theorem State.recordRaise_probeCounter (c : FaultClass) (it : RaiseItems) : (s.recordRaise c it).probeCounter = s.probeCounter := rfl
@[simp] theorem State.recordRaise_probeConfig (c : FaultClass) (it : RaiseItems) : (s.recordRaise c it).probeConfig = s.probeConfig := rfl
@[simp] theorem State.recordRaise_lastResults (c : FaultClass) (it : RaiseItems) : (s.recordRaise c it).lastResults = s.lastResults := rfl
@[simp] theorem State.recordRaise_counters (c : FaultClass) (it : RaiseItems) : (s.recordRaise c it).counters = s.counters := rfl
@[simp] theorem State.recordRaise_frozen (c : FaultClass) (it : RaiseItems) : (s.recordRaise c it).frozen = s.frozen := rfl
@[simp] theorem State.recordRaise_flags (c : FaultClass) (it : RaiseItems) : (s.recordRaise c it).flags = s.flags.set c.ix true := rfl
@[simp] theorem State.recordRaise_masks (c : FaultClass) (it : RaiseItems) : (s.recordRaise c it).masks = s.masks := rfl
@[simp] theorem State.recordRaise_raised (c : FaultClass) (it : RaiseItems) : (s.recordRaise c it).raised = s.raised := rfl
@[simp] theorem State.recordRaise_tariffs (c : FaultClass) (it : RaiseItems) : (s.recordRaise c it).tariffs = s.tariffs := rfl
@[simp] theorem State.recordRaise_bills (c : FaultClass) (it : RaiseItems) : (s.recordRaise c it).bills = s.bills := rfl
@[simp] theorem State.recordRaise_billWaiting (c : FaultClass) (it : RaiseItems) : (s.recordRaise c it).billWaiting = s.billWaiting := rfl
@[simp] theorem State.recordRaise_noticePort (c : FaultClass) (it : RaiseItems) : (s.recordRaise c it).noticePort = s.noticePort := rfl
@[simp] theorem State.recordRaise_startCause (c : FaultClass) (it : RaiseItems) : (s.recordRaise c it).startCause = s.startCause := rfl
@[simp] theorem State.recordRaise_straps (c : FaultClass) (it : RaiseItems) : (s.recordRaise c it).straps = s.straps := rfl

/-! ### raise -/

@[simp] theorem State.raise_pending (c : FaultClass) (it : RaiseItems) (d : Option Detail) : (s.raise c it d).pending = s.pending := rfl
@[simp] theorem State.raise_clock (c : FaultClass) (it : RaiseItems) (d : Option Detail) : (s.raise c it d).clock = s.clock := rfl
@[simp] theorem State.raise_sec (c : FaultClass) (it : RaiseItems) (d : Option Detail) : (s.raise c it d).sec = s.sec := rfl
@[simp] theorem State.raise_sub (c : FaultClass) (it : RaiseItems) (d : Option Detail) : (s.raise c it d).sub = s.sub := rfl
@[simp] theorem State.raise_timeSet (c : FaultClass) (it : RaiseItems) (d : Option Detail) : (s.raise c it d).timeSet = s.timeSet := rfl
@[simp] theorem State.raise_idleClose (c : FaultClass) (it : RaiseItems) (d : Option Detail) : (s.raise c it d).idleClose = s.idleClose := rfl
@[simp] theorem State.raise_restart (c : FaultClass) (it : RaiseItems) (d : Option Detail) : (s.raise c it d).restart = s.restart := rfl
@[simp] theorem State.raise_bookings (c : FaultClass) (it : RaiseItems) (d : Option Detail) : (s.raise c it d).bookings = s.bookings := rfl
@[simp] theorem State.raise_scan (c : FaultClass) (it : RaiseItems) (d : Option Detail) : (s.raise c it d).scan = s.scan := rfl
@[simp] theorem State.raise_waiting (c : FaultClass) (it : RaiseItems) (d : Option Detail) : (s.raise c it d).waiting = s.waiting := rfl
@[simp] theorem State.raise_ports (c : FaultClass) (it : RaiseItems) (d : Option Detail) : (s.raise c it d).ports = s.ports := rfl
@[simp] theorem State.raise_flows (c : FaultClass) (it : RaiseItems) (d : Option Detail) : (s.raise c it d).flows = s.flows := rfl
@[simp] theorem State.raise_deferred (c : FaultClass) (it : RaiseItems) (d : Option Detail) : (s.raise c it d).deferred = s.deferred := rfl
@[simp] theorem State.raise_patterns (c : FaultClass) (it : RaiseItems) (d : Option Detail) : (s.raise c it d).patterns = s.patterns := rfl
@[simp] theorem State.raise_silenceMs (c : FaultClass) (it : RaiseItems) (d : Option Detail) : (s.raise c it d).silenceMs = s.silenceMs := rfl
@[simp] theorem State.raise_identTimeout (c : FaultClass) (it : RaiseItems) (d : Option Detail) : (s.raise c it d).identTimeout = s.identTimeout := rfl
@[simp] theorem State.raise_flight (c : FaultClass) (it : RaiseItems) (d : Option Detail) : (s.raise c it d).flight = s.flight := rfl
@[simp] theorem State.raise_probeWaiting (c : FaultClass) (it : RaiseItems) (d : Option Detail) : (s.raise c it d).probeWaiting = s.probeWaiting := rfl
@[simp] theorem State.raise_probeCounter (c : FaultClass) (it : RaiseItems) (d : Option Detail) : (s.raise c it d).probeCounter = s.probeCounter := rfl
@[simp] theorem State.raise_probeConfig (c : FaultClass) (it : RaiseItems) (d : Option Detail) : (s.raise c it d).probeConfig = s.probeConfig := rfl
@[simp] theorem State.raise_lastResults (c : FaultClass) (it : RaiseItems) (d : Option Detail) : (s.raise c it d).lastResults = s.lastResults := rfl
@[simp] theorem State.raise_counters (c : FaultClass) (it : RaiseItems) (d : Option Detail) : (s.raise c it d).counters = s.counters := rfl
@[simp] theorem State.raise_frozen (c : FaultClass) (it : RaiseItems) (d : Option Detail) : (s.raise c it d).frozen = s.frozen := rfl
@[simp] theorem State.raise_flags (c : FaultClass) (it : RaiseItems) (d : Option Detail) : (s.raise c it d).flags = s.flags := rfl
@[simp] theorem State.raise_masks (c : FaultClass) (it : RaiseItems) (d : Option Detail) : (s.raise c it d).masks = s.masks := rfl
@[simp] theorem State.raise_capture (c : FaultClass) (it : RaiseItems) (d : Option Detail) : (s.raise c it d).capture = s.capture := rfl
@[simp] theorem State.raise_raised (c : FaultClass) (it : RaiseItems) (d : Option Detail) : (s.raise c it d).raised = s.raised ++ [{ cls := c, items := it, detail := d }] := rfl
@[simp] theorem State.raise_tariffs (c : FaultClass) (it : RaiseItems) (d : Option Detail) : (s.raise c it d).tariffs = s.tariffs := rfl
@[simp] theorem State.raise_bills (c : FaultClass) (it : RaiseItems) (d : Option Detail) : (s.raise c it d).bills = s.bills := rfl
@[simp] theorem State.raise_billWaiting (c : FaultClass) (it : RaiseItems) (d : Option Detail) : (s.raise c it d).billWaiting = s.billWaiting := rfl
@[simp] theorem State.raise_noticePort (c : FaultClass) (it : RaiseItems) (d : Option Detail) : (s.raise c it d).noticePort = s.noticePort := rfl
@[simp] theorem State.raise_startCause (c : FaultClass) (it : RaiseItems) (d : Option Detail) : (s.raise c it d).startCause = s.startCause := rfl
@[simp] theorem State.raise_straps (c : FaultClass) (it : RaiseItems) (d : Option Detail) : (s.raise c it d).straps = s.straps := rfl

/-! ### Accessors through updates -/

@[simp] theorem State.setPort_port (p q : PortIx) (x : Port) :
    (s.setPort p x).port q = if q = p then x else s.port q := by
  by_cases h : q = p
  · subst h; simp [State.port]
  · have h' : p.val ≠ q.val := fun e => h (Fin.ext e.symm)
    simp [State.port, h, h']

@[simp] theorem State.setBooking_booking (b c : BookingIx) (x : Option Booking) :
    (s.setBooking b x).booking c = if c = b then x else s.booking c := by
  by_cases h : c = b
  · subst h; simp [State.booking]
  · have h' : b.val ≠ c.val := fun e => h (Fin.ext e.symm)
    simp [State.booking, h, h']

@[simp] theorem State.setCounter_counter (i j : CounterIx) (c : Counter) :
    (s.setCounter i c).counter j = if j = i then c else s.counter j := by
  by_cases h : j = i
  · subst h; simp [State.counter]
  · have h' : i.val ≠ j.val := fun e => h (Fin.ext e.symm)
    simp [State.counter, h, h']

@[simp] theorem State.setBooking_port (b : BookingIx) (x : Option Booking) (p : PortIx) :
    (s.setBooking b x).port p = s.port p := rfl
@[simp] theorem State.setPort_booking (p : PortIx) (x : Port) (b : BookingIx) :
    (s.setPort p x).booking b = s.booking b := rfl
@[simp] theorem State.setCounter_port (i : CounterIx) (c : Counter) (p : PortIx) :
    (s.setCounter i c).port p = s.port p := rfl
@[simp] theorem State.setCounter_booking (i : CounterIx) (c : Counter) (b : BookingIx) :
    (s.setCounter i c).booking b = s.booking b := rfl
@[simp] theorem State.elapse_port (dt : Nat) (p : PortIx) : (s.elapse dt).port p = s.port p := rfl
@[simp] theorem State.elapse_booking (dt : Nat) (b : BookingIx) : (s.elapse dt).booking b = s.booking b := rfl
@[simp] theorem State.recordRaise_port (c : FaultClass) (it : RaiseItems) (p : PortIx) :
    (s.recordRaise c it).port p = s.port p := rfl
@[simp] theorem State.recordRaise_booking (c : FaultClass) (it : RaiseItems) (b : BookingIx) :
    (s.recordRaise c it).booking b = s.booking b := rfl

@[simp] theorem State.raise_port (c : FaultClass) (it : RaiseItems) (d : Option Detail) (p : PortIx) :
    (s.raise c it d).port p = s.port p := rfl
@[simp] theorem State.raise_booking (c : FaultClass) (it : RaiseItems) (d : Option Detail) (b : BookingIx) :
    (s.raise c it d).booking b = s.booking b := rfl

@[simp] theorem pickRaises_nil (ns : List Nat) : pickRaises ns [] = ([], []) := by
  induction ns with
  | nil => rfl
  | cons n ns ih => simpa [pickRaises] using ih

/-- An event that raised nothing leaves the fault unit as it was. -/
theorem State.flush_of_nil {s : State} (h : s.raised = []) (m : Moment) : s.flush m = s := by
  have e : s.raiseOrder m = [] := by simp [State.raiseOrder, h]
  cases s
  simp only [State.flush, State.takeRaises, e, List.foldl_nil]
  simp_all

@[simp] theorem State.takeRaises_nil : s.takeRaises [] = s := rfl
@[simp] theorem State.flush_raised (m : Moment) : (s.flush m).raised = [] := rfl
@[simp] theorem State.advance_raised (m : Moment) : (s.advance m).raised = [] := by
  unfold State.advance; dsimp only; split <;> rfl

/-- Two states with the same port records have the same ports. -/
theorem State.port_congr {s t : State} (h : t.ports = s.ports) (p : PortIx) : t.port p = s.port p := by
  simp [State.port, h]

/-- Two states with the same booking table have the same records. -/
theorem State.booking_congr {s t : State} (h : t.bookings = s.bookings) (b : BookingIx) :
    t.booking b = s.booking b := by
  simp [State.booking, h]

end Sys2Proof.Machine
end

