-- ==== Sys2Proof/Laws/Answers.lean ====
section
/-! SUPPORT. What a response can do, said once: it changes nothing but what offering frames to control queues touches,
and it reaches the queue of its port or is lost with CONTROL_DROP raised. -/

namespace Sys2Proof.Machine
open Sys2Proof.Config

theorem OnlyAnswers.refl (s : State) : OnlyAnswers s s :=
  ⟨rfl, fun _ => rfl, fun _ => List.prefix_refl _, fun _ h => h, fun _ h => h⟩

theorem OnlyAnswers.trans {s t u : State} (h : OnlyAnswers s t) (k : OnlyAnswers t u) : OnlyAnswers s u := by
  refine ⟨?_, fun p => ?_, fun p => (h.control p).trans (k.control p), fun i x => k.flags i (h.flags i x),
    fun c x => k.capture c (h.capture c x)⟩
  · have e1 := h.rest
    have e2 := k.rest
    rw [e1] at e2
    exact e2
  · have e1 := h.ports p
    have e2 := k.ports p
    rw [← e1, ← e2]

theorem onlyAnswers_recordRaise (c : FaultClass) (it : RaiseItems) (s : State) : OnlyAnswers s (s.recordRaise c it) := by
  refine ⟨rfl, fun _ => rfl, fun _ => List.prefix_refl _, fun i h => ?_, fun x h => ?_⟩
  · by_cases e : c.ix.val = i.val
    · simp [State.recordRaise, e]
    · simpa [State.recordRaise, Vector.getElem_set, e] using h
  · simp [State.recordRaise, h]

theorem appendControl_port (p q : PortIx) (payload : List Byte) (s : State) :
    (s.appendControl p payload).port q =
      if q = p then { s.port p with control := (s.port p).control ++ [{ payload := payload, enqueued := s.clock }] }
      else s.port q := by
  unfold State.appendControl
  by_cases e : q = p
  · subst e; simp
  · simp [e]

theorem onlyAnswers_appendControl (p : PortIx) (payload : List Byte) (s : State) :
    OnlyAnswers s (s.appendControl p payload) := by
  refine ⟨rfl, fun q => ?_, fun q => ?_, fun _ h => h, fun _ h => h⟩
  · rw [appendControl_port]; split
    · next e => subst e; rfl
    · rfl
  · rw [appendControl_port]; split
    · next e => subst e; exact List.prefix_append _ _
    · exact List.prefix_refl _

/-- A CONTROL_DROP raised: its flag set, its notice in the notice port's queue when that has room. -/
theorem raiseControlDrop_spec (p : PortIx) (s : State) :
    OnlyAnswers s (s.raiseControlDrop p) ∧
      (s.raiseControlDrop p).flags = s.flags.set FaultClass.controlDrop.ix true ∧
      ∀ q, ((s.raiseControlDrop p).port q).control = (s.port q).control ∨
        (s.port q).control.length < controlQueueDepth := by
  dsimp only [State.raiseControlDrop]
  have h := onlyAnswers_recordRaise .controlDrop (.ofPort p) s
  split
  · exact ⟨h, rfl, fun q => .inl rfl⟩
  · split
    · next hr =>
      refine ⟨h.trans (onlyAnswers_appendControl ..), rfl, fun q => ?_⟩
      rw [appendControl_port]
      split
      · next e => subst e; right; exact of_decide_eq_true hr
      · left; rfl
    · exact ⟨h, rfl, fun q => .inl rfl⟩

/-- A frame offered to a control queue, and what it leaves. -/
theorem offerControl_spec (r : Req) (payload : List Byte) (s : State) :
    OnlyAnswers s (s.offerControl r.port payload) ∧ Answered s (s.offerControl r.port payload) r payload := by
  unfold State.offerControl
  split
  · next h =>
    simp only [State.controlRoom, decide_eq_true_eq] at h
    refine ⟨onlyAnswers_appendControl .., ?_⟩
    simp only [Answered, h, if_true]
    refine ⟨by rw [appendControl_port]; simp, fun q e => by rw [appendControl_port]; simp [e], rfl, rfl⟩
  · next h =>
    simp only [State.controlRoom, decide_eq_true_eq] at h
    obtain ⟨h1, h2, h3⟩ := raiseControlDrop_spec r.port s
    refine ⟨h1, ?_⟩
    simp only [Answered, h, if_false]
    exact ⟨(h3 r.port).resolve_right h, h2⟩

/-! ## The order of raises (R109, R145) -/

/-- No two classes bear one number. -/
theorem number_inj {c d : FaultClass} (h : c.number = d.number) : c = d := by
  cases c <;> cases d <;> simp_all [FaultClass.number]

theorem KeepsClassOrder.refl (l : List Raise) : KeepsClassOrder l l := ⟨.refl _, fun _ => rfl⟩

theorem KeepsClassOrder.trans {k l l' : List Raise} (h : KeepsClassOrder k l) (h' : KeepsClassOrder l l') :
    KeepsClassOrder k l' := ⟨h.1.trans h'.1, fun c => (h.2 c).trans (h'.2 c)⟩

theorem KeepsClassOrder.cons {l l' : List Raise} (x : Raise) (h : KeepsClassOrder l l') :
    KeepsClassOrder (x :: l) (x :: l') := ⟨h.1.cons x, fun c => by simp [List.filter_cons, h.2 c]⟩

/-- The earliest raise of its class brought to the front: no class's order changes. -/
theorem keepsClassOrder_pick {x : Raise} {n : Nat} {l : List Raise}
    (h : l.find? (fun x => decide (x.cls.number = n)) = some x) :
    KeepsClassOrder (x :: l.eraseP fun x => decide (x.cls.number = n)) l := by
  obtain ⟨hx, before, after, rfl, hb⟩ := List.find?_eq_some_iff_append.1 h
  have hx : x.cls.number = n := of_decide_eq_true hx
  have hb : ∀ y ∈ before, y.cls.number ≠ n := fun y hy => by simpa using hb y hy
  have e : (before ++ x :: after).eraseP (fun x => decide (x.cls.number = n)) = before ++ after := by
    rw [List.eraseP_append_right _ fun y hy => by simpa using hb y hy]
    simp [hx]
  rw [e]
  refine ⟨List.perm_middle.symm, fun c => ?_⟩
  by_cases hc : x.cls = c
  · have : before.filter (fun x => decide (x.cls = c)) = [] :=
      List.filter_eq_nil_iff.2 fun y hy k => hb y hy (by rw [of_decide_eq_true k, ← hc, hx])
    simp [hc, this]
  · simp [hc]

/-- What is picked and what is left: the raises there were, each once, and each class in its order. -/
theorem pickRaises_spec (ns : List Nat) (l : List Raise) :
    KeepsClassOrder ((pickRaises ns l).1 ++ (pickRaises ns l).2) l := by
  induction ns generalizing l with
  | nil => exact .refl l
  | cons n ns ih =>
    unfold pickRaises
    split
    · exact ih l
    · next x h => exact ((ih _).cons x).trans (keepsClassOrder_pick h)

/-- The moment's order holds each raise of the event once, and each class in its order. -/
theorem raiseOrder_spec (m : Moment) (s : State) : KeepsClassOrder (s.raiseOrder m) s.raised := pickRaises_spec ..

/-- Any order that keeps the order within each class, or the beginning of one, is what the classes of its raises name. -/
theorem pickRaises_of_keepsClassOrder {l rest made : List Raise} (h : KeepsClassOrder (l ++ rest) made) :
    (pickRaises (l.map fun x => x.cls.number) made).1 = l := by
  induction l generalizing made with
  | nil => rfl
  | cons x l ih =>
    have e : made.find? (fun y => decide (y.cls.number = x.cls.number)) = some x := by
      have hd : (fun y : Raise => decide (y.cls.number = x.cls.number)) = fun y => decide (y.cls = x.cls) :=
        funext fun y => decide_eq_decide.2 ⟨number_inj, fun k => by rw [k]⟩
      rw [hd, ← List.head?_filter, ← h.2 x.cls]
      simp
    have hp := keepsClassOrder_pick e
    have hk : KeepsClassOrder (l ++ rest) (made.eraseP fun y => decide (y.cls.number = x.cls.number)) := by
      have k := h.trans ⟨hp.1.symm, fun c => (hp.2 c).symm⟩
      refine ⟨k.1.cons_inv, fun c => ?_⟩
      have := k.2 c
      by_cases hc : x.cls = c <;> simpa [List.filter_cons, hc] using this
    simp [pickRaises, e, ih hk]

/-- Every order that keeps the order within each class is the order of some moment. -/
theorem raiseOrder_of_keepsClassOrder {m : Moment} {s : State} {l : List Raise} (h : KeepsClassOrder l s.raised)
    (e : m.raises = l.map fun x => x.cls.number) : s.raiseOrder m = l := by
  have h1 : (pickRaises m.raises s.raised).1 = l := by
    rw [e]; exact pickRaises_of_keepsClassOrder (rest := []) (by simpa using h)
  have h2 := ((raiseOrder_spec m s).1.trans h.1.symm).length_eq
  simp only [State.raiseOrder, h1, List.length_append] at h2 ⊢
  rw [List.eq_nil_of_length_eq_zero (by omega : (pickRaises m.raises s.raised).2.length = 0), List.append_nil]

/-- A response, and what it leaves. -/
theorem respond_answeredOnly (r : Req) (code : Nat) (res : Result) (body : List Byte) (s : State) :
    AnsweredOnly s (s.respond r code res body) r code res body :=
  ⟨_, _, _, by rw [List.take_append_drop]; exact raiseOrder_spec r.m s, (offerControl_spec ..).1,
    (offerControl_spec ..).2, rfl⟩

/-- Of an effect without raises, a response is an offered frame and nothing else. -/
theorem answeredOnly_of_quiet {s t : State} {r : Req} {code : Nat} {res : Result} {body : List Byte}
    (h : s.raised = []) (k : AnsweredOnly s t r code res body) :
    OnlyAnswers s t ∧ Answered s t r (responsePayload code res r.tag body) := by
  obtain ⟨before, after, u, hp, ho, ha, rfl⟩ := k
  have hp := hp.1
  rw [h, List.perm_nil, List.append_eq_nil_iff] at hp
  obtain ⟨rfl, rfl⟩ := hp
  simp only [State.takeRaises_nil] at ho ha ⊢
  have e : u.raised = [] := by rw [ho.rest]; exact h
  have e : ({ u with raised := [] } : State) = u := by cases u; simp_all
  rw [e]; exact ⟨ho, ha⟩

/-! ## A request taken (R172, R173) -/

variable {α : Type} {r : Req} {code : Nat} {act : α → State → Answer} {s : State}

/-- From a port of class NONE: discarded. -/
theorem takeRequest_none (h : (s.port r.port).cls = .none) (body : Body α) : s.takeRequest r code body act = s := by
  simp [State.takeRequest, h]

/-- Not of good form: FORMAT. -/
theorem takeRequest_format (h : (s.port r.port).cls ≠ .none) :
    s.takeRequest r code none act = s.respond r code .format [] := by
  simp [State.takeRequest, h]

/-- From an OBSERVER, a request OBSERVER may not send: CLASS. -/
theorem takeRequest_class (h : (s.port r.port).cls = .observer) (ho : observerMaySend code = false) (a : α) :
    s.takeRequest r code (some a) act = s.respond r code .cls [] := by
  simp [State.takeRequest, h, ho]

/-- From an OPERATOR: what the owning block answers. -/
theorem takeRequest_operator (h : (s.port r.port).cls = .operator) (a : α) :
    s.takeRequest r code (some a) act = (act a s).state.respond r code (act a s).result (act a s).body := by
  simp [State.takeRequest, h]

/-- A request OBSERVER may send, from OBSERVER or OPERATOR: what the owning block answers. -/
theorem takeRequest_reader (h : (s.port r.port).cls ≠ .none) (ho : observerMaySend code = true) (a : α) :
    s.takeRequest r code (some a) act = (act a s).state.respond r code (act a s).result (act a s).body := by
  simp [State.takeRequest, h, ho]

/-- The same, with what the answer leaves. -/
theorem takeRequest_operator_spec (h : (s.port r.port).cls = .operator) (a : α) :
    AnsweredOnly (act a s).state (s.takeRequest r code (some a) act) r code (act a s).result (act a s).body := by
  rw [takeRequest_operator h]; exact respond_answeredOnly ..

theorem takeRequest_reader_spec (h : (s.port r.port).cls ≠ .none) (ho : observerMaySend code = true) (a : α) :
    AnsweredOnly (act a s).state (s.takeRequest r code (some a) act) r code (act a s).result (act a s).body := by
  rw [takeRequest_reader h ho]; exact respond_answeredOnly ..

end Sys2Proof.Machine
end

