-- ==== Sys2Proof/Laws/Later.lean ====
section
/-! SUPPORT. What the work of an event can do, said once: `Later s t` holds when `t` comes from `s` by raises, notices,
captures of causes, judgements, counts, probe requests, bills and copies. Everything outside those blocks' own fields is
the same, records keep their terms, flags and capture only gain, control queues only grow, and the laws of the queues
are kept. One lemma per operation. -/

namespace Sys2Proof.Machine
open Sys2Proof.Config

/-- A port without its queues and the frame in transmission: its settings and its receive side. -/
def Port.face (x : Port) : Port := { x with class1 := [], class2 := [], control := [], sending := none }

/-- A leg's terms (R3). -/
def Leg.bare (l : Leg) : Leg :=
  { l with state := .idle, silenceAt := none, exIdent := false, exWatch := false, exManual := false, ident := none,
           identAt := none }

/-- A destination's terms (R3). -/
def Dest.bare (d : Dest) : Dest := { d with account := none }

/-- A record's terms, flags and times, without its state, its close request and what the other blocks keep (R5). -/
def Booking.bare (r : Booking) : Booking :=
  { r with state := .pending, closeReq := none, main := r.main.bare, backup := r.backup.map Leg.bare,
           dests := r.dests.map Dest.bare, merge := none, outage := none }

/-- The state without what the work of an event may change. -/
def State.still (s : State) : State :=
  { s with bookings := Vector.replicate 256 none, ports := s.ports.map Port.face, flows := [], flight := none,
           probeWaiting := [], probeCounter := 0, lastResults := Vector.replicate 16 none,
           counters := Vector.replicate 8 .initial, frozen := false, flags := Vector.replicate 14 false,
           capture := none, raised := [], bills := [], billWaiting := [] }

/-- The keys of the flow entries. -/
def State.flowKeys (s : State) : List (PortIx × Nat) := s.flows.map fun e => (e.port, e.label)

/-- `t` comes from `s` by the work of an event. -/
structure Later (s t : State) : Prop where
  still : t.still = s.still
  bare : ∀ b, (t.booking b).map Booking.bare = (s.booking b).map Booking.bare
  flowKeys : t.flowKeys = s.flowKeys
  flags : ∀ i : Fin 14, s.flags[i] = true → t.flags[i] = true
  capture : ∀ c, s.capture = some c → t.capture = some c
  control : ∀ p, (s.port p).control <+: (t.port p).control
  controlInv : s.ControlInv → t.ControlInv
  mediaOk : ∀ p, (s.port p).MediaOk → (t.port p).MediaOk
  probeInv : s.ProbeInv → t.ProbeInv
  billInv : s.BillInv → t.BillInv

theorem Later.refl (s : State) : Later s s :=
  ⟨rfl, fun _ => rfl, rfl, fun _ h => h, fun _ h => h, fun _ => List.prefix_refl _, fun h => h, fun _ h => h,
    fun h => h, fun h => h⟩

theorem Later.trans {s t u : State} (h : Later s t) (k : Later t u) : Later s u :=
  ⟨k.still.trans h.still, fun b => (k.bare b).trans (h.bare b), k.flowKeys.trans h.flowKeys,
    fun i x => k.flags i (h.flags i x), fun c x => k.capture c (h.capture c x),
    fun p => (h.control p).trans (k.control p), fun x => k.controlInv (h.controlInv x),
    fun p x => k.mediaOk p (h.mediaOk p x), fun x => k.probeInv (h.probeInv x), fun x => k.billInv (h.billInv x)⟩

/-- The same, the later part first. -/
theorem Later.after {s t u : State} (k : Later t u) (h : Later s t) : Later s u := h.trans k

theorem later_foldl {α : Type} {f : State → α → State} (h : ∀ s x, Later s (f s x)) (l : List α) (s : State) :
    Later s (l.foldl f s) := by
  induction l generalizing s with
  | nil => exact .refl s
  | cons x t ih => exact (h s x).trans (ih _)

/-- An update of the records, the counters, the frozen indication, the last results or the probe counter alone. -/
theorem Later.of_eq {s t : State} (still : t.still = s.still) (ports : t.ports = s.ports) (flags : t.flags = s.flags)
    (capture : t.capture = s.capture) (flows : t.flowKeys = s.flowKeys) (bills : t.bills = s.bills)
    (waiting : t.billWaiting = s.billWaiting) (flight : t.flight = s.flight) (probes : t.probeWaiting = s.probeWaiting)
    (bare : ∀ b, (t.booking b).map Booking.bare = (s.booking b).map Booking.bare) : Later s t := by
  have hp := fun p => State.port_congr ports p
  refine ⟨still, bare, flows, ?_, ?_, ?_, ?_, ?_, ?_, ?_⟩
  · intro i h; rw [flags]; exact h
  · intro c h; rw [capture]; exact h
  · intro p; rw [hp p]
  · intro h p; rw [hp p]; exact h p
  · intro p h; rw [hp p]; exact h
  · simp only [State.ProbeInv, State.probedPorts, flight, probes]; exact fun h => h
  · simp only [State.BillInv, bills, waiting]; exact fun h => h

/-- A record replaced by one with the same terms. -/
theorem later_setBooking {s : State} {b : BookingIx} {r r' : Booking} (hb : s.booking b = some r)
    (h : r'.bare = r.bare) : Later s (s.setBooking b (some r')) := by
  refine .of_eq rfl rfl rfl rfl rfl rfl rfl rfl rfl ?_
  intro c
  by_cases e : c = b
  · subst e; simp [hb, h]
  · simp [e]

theorem later_updBooking {s : State} {b : BookingIx} {f : Booking → Booking} (h : ∀ r, (f r).bare = r.bare) :
    Later s (s.updBooking b f) := by
  unfold State.updBooking
  split
  · exact .refl s
  · next r hb => exact later_setBooking hb (h r)

/-- Every record mapped to one with the same terms. -/
theorem later_mapBookings {s : State} {f : Booking → Booking} (h : ∀ r, (f r).bare = r.bare) :
    Later s { s with bookings := s.bookings.map fun o => o.map f } := by
  refine .of_eq rfl rfl rfl rfl rfl rfl rfl rfl rfl ?_
  intro b
  simp only [State.booking, Vector.getElem_map, Fin.getElem_fin, Option.map_map]
  cases s.bookings[b.val] <;> simp [h]

theorem later_setCounter (s : State) (i : CounterIx) (c : Counter) : Later s (s.setCounter i c) :=
  .of_eq rfl rfl rfl rfl rfl rfl rfl rfl rfl fun _ => rfl

/-! ## Ports -/

theorem still_setPort {s : State} {p : PortIx} {x : Port} (h : x.face = (s.port p).face) :
    (s.setPort p x).still = s.still := by
  have : (s.ports.set p x).map Port.face = s.ports.map Port.face := by
    ext i hi
    by_cases e : p.val = i
    · subst e; simp [h, State.port]
    · simp [e]
  simp only [State.still, State.setPort, this]

/-- A port replaced by one with the same face, a control queue that is no shorter and media queues that keep their
law. -/
theorem later_setPort {s : State} {p : PortIx} {x : Port} (h : x.face = (s.port p).face)
    (hc : (s.port p).control <+: x.control)
    (hb : (s.port p).control.length ≤ controlQueueDepth → x.control.length ≤ controlQueueDepth)
    (hm : (s.port p).MediaOk → x.MediaOk) : Later s (s.setPort p x) := by
  refine ⟨still_setPort h, fun _ => rfl, rfl, fun _ k => k, fun _ k => k, ?_, ?_, ?_, fun k => k, fun k => k⟩
  · intro q; by_cases e : q = p
    · subst e; simpa using hc
    · simp [e]
  · intro k q; by_cases e : q = p
    · subst e; simpa using hb (k q)
    · simpa [e] using k q
  · intro q k; by_cases e : q = p
    · subst e; simpa using hm k
    · simpa [e] using k

/-! ## Raises and control queues (R56, R144) -/

theorem later_recordRaise (c : FaultClass) (it : RaiseItems) (s : State) : Later s (s.recordRaise c it) := by
  refine ⟨rfl, fun _ => rfl, rfl, ?_, ?_, fun _ => List.prefix_refl _, fun k => k, fun _ k => k, fun k => k, fun k => k⟩
  · intro i h
    by_cases e : c.ix.val = i.val
    · simp [State.recordRaise, e]
    · simpa [State.recordRaise, Vector.getElem_set, e] using h
  · intro x h; simp [State.recordRaise, h]

theorem later_appendControl (p : PortIx) (payload : List Byte) {s : State} (h : s.controlRoom p = true) :
    Later s (s.appendControl p payload) := by
  simp only [State.controlRoom, decide_eq_true_eq] at h
  refine later_setPort rfl (List.prefix_append _ _) ?_ fun k => k
  intro _; simp; omega

theorem later_raiseControlDrop (p : PortIx) (s : State) : Later s (s.raiseControlDrop p) := by
  dsimp only [State.raiseControlDrop]
  split
  · exact later_recordRaise ..
  · split
    · next h => exact (later_recordRaise _ _ _).trans (later_appendControl _ _ h)
    · exact later_recordRaise ..

theorem later_offerControl (p : PortIx) (payload : List Byte) (s : State) : Later s (s.offerControl p payload) := by
  unfold State.offerControl
  split
  · next h => exact later_appendControl _ _ h
  · exact later_raiseControlDrop ..

theorem later_raise (c : FaultClass) (it : RaiseItems) (d : Option Detail) (s : State) :
    Later s (s.raise c it d) := .of_eq rfl rfl rfl rfl rfl rfl rfl rfl rfl fun _ => rfl

theorem later_takeRaise (x : Raise) (s : State) : Later s (s.takeRaise x) := by
  dsimp only [State.takeRaise]
  split
  · exact later_recordRaise ..
  · exact (later_recordRaise _ _ _).trans (later_offerControl ..)

theorem later_takeRaises (l : List Raise) (s : State) : Later s (s.takeRaises l) :=
  later_foldl (fun s x => later_takeRaise x s) l s

/-- The raises of the event taken, or some of them. -/
theorem later_setRaised (l : List Raise) (s : State) : Later s { s with raised := l } :=
  .of_eq rfl rfl rfl rfl rfl rfl rfl rfl rfl fun _ => rfl

theorem later_takeEarly (m : Moment) (s : State) : Later s (s.takeEarly m) :=
  (later_takeRaises (pickRaises m.beforeRequest s.raised).1 s).trans (later_setRaised _ _)

theorem later_flush (m : Moment) (s : State) : Later s (s.flush m) :=
  (later_takeRaises (s.raiseOrder m) s).trans (later_setRaised _ _)

theorem later_respond (r : Req) (code : Nat) (res : Result) (body : List Byte) (s : State) :
    Later s (s.respond r code res body) :=
  (((later_takeRaises ..).trans (later_offerControl ..)).trans (later_takeRaises ..)).trans (later_setRaised _ _)

end Sys2Proof.Machine
end

