-- ==== Sys2Proof/Laws/Events.lean ====
section
/-! SUPPORT. The operations of the reflectometer's requests, the tracker, the merge unit, the watch counters and the
billing unit are the work of an event (`Later`). -/

namespace Sys2Proof.Machine
open Sys2Proof.Config

/-! ## Probe requests (R96 to R102) -/

theorem later_idleLine (p : PortIx) (s : State) : Later s (s.setPort p { s.port p with sending := none }) :=
  later_setPort rfl (List.prefix_refl _) (fun h => h) fun h => h

/-- Only the probe queue's law is left to show where the flight and the waiting probes change. -/
theorem Later.withProbes {s t u : State} (h : Later s t) {f : Option Flight} {w : List WaitingProbe} {k : ProbeNo}
    (hu : u = { t with flight := f, probeWaiting := w, probeCounter := k }) (hp : s.ProbeInv → u.ProbeInv) :
    Later s u := by
  subst hu
  exact ⟨h.still, h.bare, h.flowKeys, h.flags, h.capture, h.control, h.controlInv, h.mediaOk, hp, h.billInv⟩

theorem probeOf_none {s : State} {p : PortIx} (h : s.probeOf p = none) : p ∉ s.probedPorts := by
  simp only [State.probeOf, State.probedPorts] at *
  have key : ∀ l : List WaitingProbe, (l.find? fun w => decide (w.port = p)).map (·.number) = none →
      p ∉ l.map (·.port) := by
    intro l hl
    rw [Option.map_eq_none_iff, List.find?_eq_none] at hl
    simp only [List.mem_map, not_exists, not_and]
    intro w hw e; exact hl w hw (by simp [e])
  split at h
  · next f hf =>
    split at h
    · simp at h
    · next hne => simp only [hf, Option.map_some, Option.toList_some, List.singleton_append, List.mem_cons, not_or]
                  exact ⟨fun e => hne e.symm, key _ h⟩
  · next hf => simpa [hf] using key _ h

theorem later_enterFlight {s : State} {n : ProbeNo} {p : PortIx}
    (h : s.ProbeInv → (s.probeWaiting.map (·.port)).Nodup ∧ p ∉ s.probeWaiting.map (·.port)) :
    Later s (s.enterFlight n p) := by
  have base : Later s (if s.lineBusy p then s else s.setPort p { s.port p with sending := none }) := by
    split
    · exact .refl s
    · exact later_idleLine p s
  have hw : (if s.lineBusy p then s else s.setPort p { s.port p with sending := none }).probeWaiting
      = s.probeWaiting := by split <;> rfl
  refine ⟨base.still, base.bare, base.flowKeys, base.flags, base.capture, base.control, base.controlInv,
    base.mediaOk, ?_, base.billInv⟩
  intro k
  have := h k
  refine ⟨?_, by simp [State.enterFlight], ?_⟩
  · simpa [State.enterFlight, hw] using k.1
  · simp only [State.probedPorts, State.enterFlight, Option.map_some, Option.toList_some, List.singleton_append,
      List.nodup_cons, hw]
    exact ⟨this.2, this.1⟩

theorem later_probeRequest (p : PortIx) (s : State) : Later s (s.probeRequest p).1 := by
  unfold State.probeRequest
  split
  · exact .refl s
  · next hn =>
    split
    · exact .refl s
    · next hfull =>
      have hmem := probeOf_none hn
      have hc : Later s { s with probeCounter := s.nextNumber + 1 } :=
        .of_eq rfl rfl rfl rfl rfl rfl rfl rfl rfl fun _ => rfl
      dsimp only
      split
      · next hf =>
        refine hc.trans (later_enterFlight fun k => ?_)
        have hf' : s.flight = none := by simpa using hf
        have : s.probeWaiting = [] := k.2.1 hf'
        simp [this]
      · next hf =>
        refine ⟨rfl, fun _ => rfl, rfl, fun _ h => h, fun _ h => h, fun _ => List.prefix_refl _, fun h => h,
          fun _ h => h, ?_, fun h => h⟩
        intro k
        have hf' : s.flight ≠ none := by simpa using hf
        refine ⟨by simp; omega, fun e => absurd e hf', ?_⟩
        have e : State.probedPorts { s with
            probeCounter := s.nextNumber + 1
            probeWaiting := s.probeWaiting ++ [{ number := s.nextNumber, port := p }] } = s.probedPorts ++ [p] := by
          simp [State.probedPorts]
        rw [e]
        exact List.nodup_append.2 ⟨k.2.2, by simp, by simpa using fun a ha (e : a = p) => hmem (by rw [← e]; exact ha)⟩

theorem later_causeRequest (p : PortIx) (s : State) : Later s (s.causeRequest p).1 := by
  unfold State.causeRequest
  split
  · exact .refl s
  · split
    · exact later_probeRequest p s
    · exact .refl s

theorem later_autoProbe (p : PortIx) (s : State) : Later s (s.autoProbe p) := by
  unfold State.autoProbe
  split
  · exact later_probeRequest p s
  · exact .refl s

theorem later_actionProbe (p : PortIx) (s : State) : Later s (s.actionProbe p) := by
  unfold State.actionProbe
  split
  · exact later_probeRequest p s
  · exact .refl s

/-! ## The tracker (R115 to R124) -/

@[simp] theorem updOutage_bare (r : Booking) (f : OutageState → OutageState) : (r.updOutage f).bare = r.bare := rfl

theorem later_causeFor (sit : Situation) (p : PortIx) (s : State) : Later s (s.causeFor sit p).1 := by
  unfold State.causeFor
  cases sit <;> try exact .refl s
  dsimp only
  split
  · have := later_causeRequest p s
    split <;> next h => simpa [h] using this
  · exact .refl s

theorem later_capture1 (b : BookingIx) (l : LegId) (s : State) : Later s (s.capture1 b l) := by
  unfold State.capture1
  split
  · exact .refl s
  · split
    · split
      · exact .refl s
      · split
        · exact .refl s
        · split
          · exact .refl s
          · exact (later_causeFor _ _ s).trans (later_updBooking (by intro; rfl))
    · exact .refl s

theorem later_captureLegs (b : BookingIx) (ls : List LegId) (s : State) : Later s (s.captureLegs b ls) :=
  later_foldl (fun s l => later_capture1 b l s) ls s

theorem later_trackEntry (m : Moment) (b : BookingIx) (s : State) : Later s (s.trackEntry m b) :=
  (later_captureLegs ..).after (later_updBooking (by intro; rfl))

theorem later_trackExit (b : BookingIx) (s : State) : Later s (s.trackExit b) := later_updBooking (by intro; rfl)

theorem later_recapturePort (m : Moment) (p : PortIx) (s : State) : Later s (s.recapturePort m p) := by
  refine later_foldl (fun s b => ?_) _ s
  split
  · exact .refl s
  · split
    · exact later_captureLegs ..
    · exact .refl s

theorem later_settleCauses (n : ProbeNo) (c : Cause) (s : State) : Later s (s.settleCauses n c) :=
  later_mapBookings fun _ => rfl

theorem takeSecond_bare (r : Booking) (t : Nat) (u : Vector Bool 16) (tf : Tariff) :
    (r.takeSecond t u tf).bare = r.bare := by
  simp [Booking.bare, Booking.takeSecond, Dest.bare, Dest.takeSecond, Function.comp_def]

theorem later_classify (t : Nat) (s : State) : Later s (s.classify t) := by
  refine later_mapBookings fun r => ?_
  split
  · exact takeSecond_bare ..
  · rfl

/-! ## The merge unit (R86, R87, R92 to R94) -/

theorem updLeg_bare (r : Booking) (l : LegId) {f : Leg → Leg} (h : ∀ x, (f x).bare = x.bare) :
    (r.updLeg l f).bare = r.bare := by
  cases l
  · simp [Booking.updLeg, Booking.bare, h]
  · cases hb : r.backup <;> simp [Booking.updLeg, Booking.bare, hb, h]

theorem later_updLeg {b : BookingIx} {l : LegId} {f : Leg → Leg} (h : ∀ x, (f x).bare = x.bare) (s : State) :
    Later s (s.updBooking b fun r => r.updLeg l f) := later_updBooking fun r => updLeg_bare r l h

theorem later_enterOutage (m : Moment) (b : BookingIx) (s : State) : Later s (s.enterOutage m b) :=
  (later_raise ..).trans (later_trackEntry ..)

theorem later_exitOutage (b : BookingIx) (s : State) : Later s (s.exitOutage b) :=
  (later_trackExit ..).after (later_updBooking (by intro; rfl))

theorem later_judge (m : Moment) (b : BookingIx) (ls : List LegId) (s : State) : Later s (s.judge m b ls) := by
  unfold State.judge
  split
  · exact .refl s
  · split
    · split
      · split
        · exact later_exitOutage ..
        · exact later_captureLegs ..
      · split
        · exact .refl s
        · exact later_enterOutage ..
    · exact .refl s

theorem later_identFrame (m : Moment) (b : BookingIx) (l : LegId) (payload : List Byte) (s : State) :
    Later s (s.identFrame m b l payload) := by
  unfold State.identFrame
  split
  · exact .refl s
  · split
    · exact .refl s
    · split
      · exact .refl s
      · split
        · exact (later_judge ..).after (later_updLeg (by intro; rfl) s)
        · refine (later_judge ..).after ?_
          have h := later_updLeg (b := b) (l := l) (f := fun x =>
            { x with ident := some .mismatched, identAt := none, exIdent := true }) (by intro; rfl) s
          split
          · exact h
          · exact (later_raise ..).after h

theorem later_identExpire (m : Moment) (b : BookingIx) (l : LegId) (s : State) : Later s (s.identExpire m b l) := by
  unfold State.identExpire
  split
  · exact .refl s
  · split
    · exact .refl s
    · exact (later_judge ..).after (later_updLeg (by intro; rfl) s)

theorem later_legReceives (m : Moment) (b : BookingIx) (l : LegId) (s : State) : Later s (s.legReceives m b l) := by
  unfold State.legReceives
  split
  · exact .refl s
  · split
    · exact .refl s
    · split
      · exact (later_judge ..).after (later_updLeg (by intro; rfl) s)
      · exact .refl s

/-! ## The watch counters (R131 to R139) -/

theorem later_excludeLeg (m : Moment) (b : BookingIx) (l : LegId) (s : State) : Later s (s.excludeLeg m b l) := by
  unfold State.excludeLeg
  split
  · exact .refl s
  · split
    · exact .refl s
    · split
      · exact (later_judge ..).after (later_updLeg (by intro; rfl) s)
      · exact .refl s

theorem later_runAction (m : Moment) (c : Counter) (s : State) : Later s (s.runAction m c) := by
  unfold State.runAction
  split
  · exact later_excludeLeg ..
  · exact later_actionProbe ..
  · exact .refl s

theorem later_freezeGroup (s : State) : Later s s.freezeGroup :=
  .of_eq rfl rfl rfl rfl rfl rfl rfl rfl rfl fun _ => rfl

theorem later_overflowAt (m : Moment) (i : CounterIx) (v : Nat) (s : State) : Later s (s.overflowAt m i v) := by
  dsimp only [State.overflowAt]
  refine Later.trans ?_ (later_runAction ..)
  have h1 := later_setCounter s i { s.counter i with value := v, overflow := true }
  have h2 : Later s (if (s.counter i).notice = true then
      (s.setCounter i { s.counter i with value := v, overflow := true }).raise .watchOverflow
        (s.counter i).scope.items (some (.watch i))
      else s.setCounter i { s.counter i with value := v, overflow := true }) := by
    split
    · exact h1.trans (later_raise ..)
    · exact h1
  split
  · exact h2.trans (later_freezeGroup _)
  · exact h2

theorem later_addValue (m : Moment) (i : CounterIx) (w : Nat) (s : State) : Later s (s.addValue m i w) := by
  dsimp only [State.addValue]
  split
  · exact later_overflowAt ..
  · exact later_setCounter ..

theorem later_countEvent (m : Moment) (e : WatchEvent) (i : CounterIx) (s : State) :
    Later s (s.countEvent m e i) := by
  dsimp only [State.countEvent]
  split
  · exact .refl s
  · split
    · exact later_addValue ..
    · exact later_setCounter ..

theorem later_watch (m : Moment) (e : WatchEvent) (s : State) : Later s (s.watch m e) :=
  later_foldl (fun s i => later_countEvent m e i s) _ s

theorem later_boundaryCount (m : Moment) (o : List BookingIx) (l : List (BookingIx × Booking)) (i : CounterIx)
    (s : State) : Later s (s.boundaryCount m o l i) := by
  dsimp only [State.boundaryCount]
  split
  · exact .refl s
  · split
    · split
      · refine later_foldl (fun s _ => ?_) _ s
        split
        · exact .refl s
        · exact later_addValue ..
      · exact later_addValue ..
      · exact .refl s
    · exact (later_setCounter ..).trans (later_addValue ..)

theorem later_watchBoundary (m : Moment) (o : List BookingIx) (l : List (BookingIx × Booking)) (s : State) :
    Later s (s.watchBoundary m o l) := later_foldl (fun s i => later_boundaryCount m o l i s) _ s

theorem later_legSilent (m : Moment) (b : BookingIx) (l : LegId) (s : State) : Later s (s.legSilent m b l) := by
  unfold State.legSilent
  split
  · exact .refl s
  · split
    · exact .refl s
    · split
      · exact (later_watch ..).after ((later_judge ..).after ((later_raise ..).after (later_updLeg (by intro; rfl) s)))
      · exact .refl s

/-! ## The billing unit (R154 to R161) -/

theorem ceilCharge_ok (n : Nat) : chargeOk (ceilCharge n).1 (ceilCharge n).2 := by
  unfold ceilCharge chargeOk
  split
  · simp
  · next h => simpa using Nat.le_of_not_lt h

theorem lineOf_ok (r : Booking) (t : Tariff) (d : Dest) : chargeOk (lineOf r t d).charge (lineOf r t d).saturated := by
  dsimp only [lineOf]
  split
  · exact ceilCharge_ok _
  · simp [chargeOk]

theorem totalOf_ok (l : List BillLine) : chargeOk (totalOf l).1 (totalOf l).2 := by
  unfold totalOf
  split
  · simp [chargeOk]
  · exact ceilCharge_ok _

theorem lateCancelCharge_ok (r : Booking) (t : Tariff) :
    chargeOk (lateCancelCharge r t).1 (lateCancelCharge r t).2 := by
  dsimp only [lateCancelCharge]
  split
  · simp [chargeOk]
  · exact ceilCharge_ok _

/-- R156: the seconds between two recorded seconds are their difference where the count did not wrap between them, and a
32-bit count in every case. -/
theorem secondsBetween_spec (since upto : Nat) :
    (since ≤ upto → secondsBetween since upto = upto - since) ∧
      (upto ≤ maxU32 → secondsBetween since upto ≤ maxU32) := by
  unfold secondsBetween
  split
  · exact ⟨fun _ => rfl, fun h => by omega⟩
  · next h => exact ⟨fun k => absurd k h, fun _ => by have := (wrappedSeconds since upto).isLt; unfold maxU32; omega⟩

@[simp] theorem secondsBetween_self (n : Nat) : secondsBetween n n = 0 := by simp [secondsBetween]

/-- The bill of a booking that carried its feed or armed holds what R156 to R161 list. -/
theorem billOf_billedAs (b : BookingIx) {r : Booking} {why : CutReason} {n : Nat} (hc : r.cut = some why)
    (hw : why ≠ .lateCancel) (hn : r.closeSecond = some n) (t : Tariff) : BilledAs b r t (billOf b r t) := by
  have late : why.kind ≠ .lateCancel := by cases why <;> simp_all [CutReason.kind]
  have records : r.outage.toList.flatMap (·.records) = r.outageRecords := by
    cases h : r.outage <;> simp [Booking.outageRecords, h]
  have sum : ∀ a, secondsOf a r.outageRecords =
      (((r.outageRecords.map OutageRecord.onBill).filter fun o => decide (o.attribution = a)).map (·.seconds)).sum := by
    intro a
    simp only [secondsOf, List.filter_map, List.map_map]
    rfl
  have live := fun f u => (secondsBetween_spec f u).1
  constructor
  case liveSeconds =>
    simp only [billOf, hc, Option.getD_some, late, decide_false, Booking.liveSeconds]
    cases r.liveFrom <;> cases r.overrunFrom <;> cases r.liveTo <;> simp_all
  case overSeconds =>
    simp only [billOf, hc, Option.getD_some, late, decide_false, Booking.overSeconds]
    cases r.overrunFrom <;> cases r.liveTo <;> simp_all
  all_goals simp [billOf, hc, hn, late, records, sum]
  case outages => exact fun _ _ => rfl

/-- The bill of a settled booking is sound (R159, R161). -/
theorem billOf_sound (b : BookingIx) {r : Booking} (h : r.settled = true) (t : Tariff) : (billOf b r t).Sound := by
  refine ⟨?_, ?_, ?_⟩
  · dsimp only [billOf]
    split
    · exact lateCancelCharge_ok ..
    · exact totalOf_ok _
  · intro x hx
    dsimp only [billOf] at hx
    split at hx
    · simp at hx
    · obtain ⟨d, _, rfl⟩ := List.mem_map.1 hx
      exact lineOf_ok ..
  · intro o ho
    dsimp only [billOf] at ho
    split at ho
    · simp at ho
    · obtain ⟨x, hx, rfl⟩ := List.mem_map.1 ho
      simp only [OutageRecord.onBill]
      simp only [Booking.outageRecords] at hx
      cases hr : r.outage with
      | none => simp [hr] at hx
      | some os =>
        simp only [hr, Option.map_some, Option.getD_some] at hx
        simp only [Booking.settled, hr, Option.all_some, List.all_eq_true, decide_eq_true_eq] at h
        exact h x hx

theorem later_closeBooking (b : BookingIx) (s : State) : Later s (s.closeBooking b) := later_updBooking (by intro; rfl)

theorem closeBooking_bills (b : BookingIx) (s : State) :
    (s.closeBooking b).bills = s.bills ∧ (s.closeBooking b).billWaiting = s.billWaiting := by
  unfold State.closeBooking State.updBooking; split <;> exact ⟨rfl, rfl⟩

theorem later_billNow {b : BookingIx} {s : State} (h : ∀ r, s.booking b = some r → r.settled = true) :
    Later s (s.billNow b) := by
  unfold State.billNow
  split
  · exact .refl s
  · next r hb =>
    have hs := billOf_sound b (h r hb) (s.tariff r.tariff)
    dsimp only
    split
    · next hlt =>
      refine (later_closeBooking b _).after ⟨rfl, fun _ => rfl, rfl, fun _ h => h, fun _ h => h,
        fun _ => List.prefix_refl _, fun h => h, fun _ h => h, fun h => h, ?_⟩
      intro ⟨h1, h2, h3⟩
      have hw : s.billWaiting = [] := by
        by_contra hne; have := h2 hne; omega
      refine ⟨by simp; omega, fun hne => absurd hw hne, ?_⟩
      intro x hx
      simp only [hw, List.append_nil, List.mem_append, List.mem_singleton] at hx
      rcases hx with hx | rfl
      · exact h3 x (by simp [hx])
      · exact hs
    · next hge =>
      refine (later_raise ..).after ⟨rfl, fun _ => rfl, rfl, fun _ h => h, fun _ h => h,
        fun _ => List.prefix_refl _, fun h => h, fun _ h => h, fun h => h, ?_⟩
      intro ⟨h1, h2, h3⟩
      refine ⟨h1, fun _ => by simp only; omega, ?_⟩
      intro x hx
      simp only [List.mem_append, List.mem_singleton] at hx
      rcases hx with hx | hx | rfl
      · exact h3 x (by simp [hx])
      · exact h3 x (by simp [hx])
      · exact hs

theorem later_settleBooking (b : BookingIx) (s : State) : Later s (s.settleBooking b) := by
  unfold State.settleBooking
  split
  · exact .refl s
  · next r hb =>
    split
    · next h =>
      simp only [Bool.and_eq_true] at h
      exact later_billNow fun r' h' => by rw [hb] at h'; cases h'; exact h.1.2
    · exact .refl s

theorem later_settleAll (m : Moment) (s : State) : Later s (s.settleAll m) :=
  later_foldl (fun s b => later_settleBooking b s) _ s

/-! ## The end of a probe (R108 to R111) -/

theorem later_concludeProbe (m : Moment) (n : ProbeNo) (p : PortIx) (e : ProbeEnd) (s : State) :
    Later s (s.concludeProbe m n p e) := by
  dsimp only [State.concludeProbe]
  refine (later_raise ..).after ((later_settleAll ..).after ((later_settleCauses ..).after ?_))
  exact .of_eq rfl rfl rfl rfl rfl rfl rfl rfl rfl fun _ => rfl

/-! ## Copies and drops (R55, R70 to R73) -/

theorem updAt_bare {f : Dest → Dest} (h : ∀ d, (f d).bare = d.bare) (n : Nat) (l : List Dest) :
    (updAt f n l).map Dest.bare = l.map Dest.bare := by
  induction n, l using updAt.induct <;> simp_all [updAt]

theorem countDrop_bare (r : Booking) (n : Nat) : (r.countDrop n).bare = r.bare := by
  unfold Booking.countDrop
  split
  · simp only [Booking.bare]
    rw [updAt_bare]
    intro d; rfl
  · rfl

theorem later_egressDrop (m : Moment) (p : PortIx) (c : MediaCopy) (s : State) : Later s (s.egressDrop m p c) :=
  (later_watch ..).after (later_updBooking fun r => countDrop_bare r _)

/-- The media queues of `p` emptied: the work of an event that leaves them empty. -/
theorem later_emptyMedia (m : Moment) (p : PortIx) (s : State) : Later s (s.emptyMedia m p) := by
  dsimp only [State.emptyMedia]
  refine (later_foldl (fun s c => later_egressDrop m p c s) _ _).after
    (later_setPort rfl (List.prefix_refl _) (fun h => h) fun _ => ?_)
  simp [Port.MediaOk]

theorem takesCopy_ok {x : Port} {two : Bool} {c : MediaCopy} (h : x.takesCopy two = true) (k : x.MediaOk) :
    (x.appendMedia two c).MediaOk := by
  simp only [Port.takesCopy, decide_eq_true_eq] at h
  obtain ⟨hu, hr, hl⟩ := h
  cases two
  · simp only [Port.mediaQueue, Bool.false_eq_true, if_false] at hl
    exact ⟨k.1, by simp [Port.appendMedia]; omega, by simp [Port.appendMedia, hu, hr]⟩
  · simp only [Port.mediaQueue, if_true] at hl
    exact ⟨by simp [Port.appendMedia]; omega, k.2.1, by simp [Port.appendMedia, hu, hr]⟩

theorem later_offerCopy (m : Moment) (p : PortIx) (two : Bool) (leg : LegId) (c : MediaCopy) (s : State) :
    Later s (s.offerCopy m p two leg c) := by
  unfold State.offerCopy
  split
  · next h =>
    refine (later_watch ..).after (later_setPort ?_ ?_ ?_ fun k => takesCopy_ok h k)
    · cases two <;> rfl
    · cases two <;> exact List.prefix_refl _
    · cases two <;> exact fun k => k
  · exact later_egressDrop ..

theorem later_fanOut (m : Moment) (b : BookingIx) (r : Booking) (l : LegId) (f : Frame) (s : State) :
    Later s (s.fanOut m b r l f) := 
  later_foldl (f := fun s (x : PortIx × MediaCopy) => s.offerCopy m x.1 r.backup.isSome l x.2)
    (fun _ _ => later_offerCopy ..) _ s

/-! ## Leaving UP (R53, R79) -/

theorem later_silencePort (m : Moment) (p : PortIx) (s : State) : Later s (s.silencePort m p) :=
  later_foldl (fun s b => later_foldl (fun s l => later_legSilent m b l s) _ s) _ s

theorem later_leaveUp (m : Moment) (p : PortIx) (s : State) : Later s (s.leaveUp m p) :=
  (later_emptyMedia ..).after (later_silencePort ..)

end Sys2Proof.Machine
end

