-- ==== Sys2Proof/Laws/Probes.lean ====
section
/-! SUPPORT. The end of a probe, and a frame's way from the flow table to its copies, are the work of an event
(`Later`). -/

namespace Sys2Proof.Machine
open Sys2Proof.Config

/-! ## Ends of probes (R108 to R110) -/

theorem waiting_nodup {s : State} (h : s.ProbeInv) : (s.probeWaiting.map (·.port)).Nodup :=
  (List.nodup_append.1 h.2.2).2.1

/-- The engine gives up the probe in flight and takes the next. -/
theorem later_leaveNext (f : Flight) (s : State) : Later s (s.leaveFlight f).nextProbe := by
  have idle : Later s (if f.began.isSome then s.setPort f.port { s.port f.port with sending := none } else s) := by
    split
    · exact later_idleLine f.port s
    · exact .refl s
  have hl : s.leaveFlight f =
      { (if f.began.isSome then s.setPort f.port { s.port f.port with sending := none } else s) with
        flight := none } := by
    unfold State.leaveFlight; dsimp only; split <;> rfl
  generalize (if f.began.isSome then s.setPort f.port { s.port f.port with sending := none } else s) = t at idle hl
  rw [hl]
  unfold State.nextProbe
  cases hw : t.probeWaiting with
  | nil =>
    simp only
    refine idle.withProbes (f := none) (w := t.probeWaiting) (k := t.probeCounter) rfl fun _ => ?_
    simp [State.ProbeInv, State.probedPorts, hw]
  | cons w rest =>
    simp only
    have h1 : Later s { t with flight := none, probeWaiting := [] } :=
      idle.withProbes (k := t.probeCounter) rfl fun _ => by simp [State.ProbeInv, State.probedPorts]
    have h2 : Later s (State.enterFlight w.number w.port { t with flight := none, probeWaiting := [] }) :=
      h1.trans (later_enterFlight fun _ => by simp)
    refine h2.withProbes
      (f := (State.enterFlight w.number w.port { t with flight := none, probeWaiting := [] }).flight)
      (w := rest) (k := t.probeCounter) ?_ fun k => ?_
    · cases hb : t.lineBusy w.port
      · have e1 : State.lineBusy { t with flight := none, probeWaiting := rest } w.port = false := hb
        have e2 : State.lineBusy { t with flight := none, probeWaiting := [] } w.port = false := hb
        simp only [State.enterFlight, e1, e2]; rfl
      · have e1 : State.lineBusy { t with flight := none, probeWaiting := rest } w.port = true := hb
        have e2 : State.lineBusy { t with flight := none, probeWaiting := [] } w.port = true := hb
        simp only [State.enterFlight, e1, e2]; rfl
    · have k' := idle.probeInv k
      have hn := waiting_nodup k'
      simp only [hw, List.map_cons, List.nodup_cons] at hn
      have hlen := k'.1
      simp only [hw, List.length_cons] at hlen
      refine ⟨?_, by simp [State.enterFlight], ?_⟩
      · have : (State.enterFlight w.number w.port { t with flight := none, probeWaiting := rest }).probeWaiting
            = rest := by unfold State.enterFlight; dsimp only; split <;> rfl
        rw [this]; omega
      · have : (State.enterFlight w.number w.port { t with flight := none, probeWaiting := rest }).probeWaiting
            = rest := by unfold State.enterFlight; dsimp only; split <;> rfl
        simp only [State.probedPorts, this]
        simpa [State.enterFlight] using hn

theorem later_endFlight (m : Moment) (f : Flight) (e : ProbeEnd) (s : State) : Later s (s.endFlight m f e) :=
  (later_leaveNext ..).after (later_concludeProbe ..)

/-- Waiting probes removed. -/
theorem later_filterWaiting (test : WaitingProbe → Bool) (s : State) :
    Later s { s with probeWaiting := s.probeWaiting.filter test } := by
  refine (Later.refl s).withProbes (f := s.flight) (k := s.probeCounter) rfl fun k => ?_
  refine ⟨(List.length_filter_le ..).trans k.1, fun h => by simp [k.2.1 h], ?_⟩
  exact k.2.2.sublist (List.Sublist.append (List.Sublist.refl _) (List.Sublist.map _ List.filter_sublist))

theorem later_endProbeOf (m : Moment) (p : PortIx) (o : ProbeOutcome) (s : State) : Later s (s.endProbeOf m p o) := by
  unfold State.endProbeOf
  split
  · split
    · exact later_endFlight ..
    · split
      · exact (later_concludeProbe ..).after (later_filterWaiting _ s)
      · exact .refl s
  · split
    · exact (later_concludeProbe ..).after (later_filterWaiting _ s)
    · exact .refl s

/-- The flight given up with no probe waiting. -/
theorem later_leaveAlone (f : Flight) {s : State} (h : s.ProbeInv → s.probeWaiting = []) :
    Later s (s.leaveFlight f) := by
  have idle : Later s (if f.began.isSome then s.setPort f.port { s.port f.port with sending := none } else s) := by
    split
    · exact later_idleLine f.port s
    · exact .refl s
  have hl : s.leaveFlight f =
      { (if f.began.isSome then s.setPort f.port { s.port f.port with sending := none } else s) with
        flight := none } := by
    unfold State.leaveFlight; dsimp only; split <;> rfl
  have hw : (s.leaveFlight f).probeWaiting = s.probeWaiting := by
    unfold State.leaveFlight; dsimp only; split <;> rfl
  refine idle.withProbes (f := none) (w := (if f.began.isSome then
    s.setPort f.port { s.port f.port with sending := none } else s).probeWaiting) (k := (if f.began.isSome then
    s.setPort f.port { s.port f.port with sending := none } else s).probeCounter) (by rw [hl]) fun k => ?_
  have hf : (s.leaveFlight f).flight = none := by unfold State.leaveFlight; dsimp only; split <;> rfl
  simp [State.ProbeInv, State.probedPorts, hw, hf, h k]

/-! ## Frames (R63 to R72, R89 to R91) -/

theorem later_setFlow (x : FlowEntry) (s : State) : Later s (s.setFlow x) := by
  refine .of_eq rfl rfl rfl rfl ?_ rfl rfl rfl rfl fun _ => rfl
  simp only [State.flowKeys, State.setFlow, List.map_map]
  apply List.map_congr_left
  intro y _
  simp only [Function.comp_apply]
  split
  · next e => simp [e.1, e.2]
  · rfl

theorem later_policerDrop (m : Moment) (p : PortIx) (b : BookingIx) (l : LegId) (bits : Option FrameBits)
    (s : State) : Later s (s.policerDrop m p b l bits) :=
  (later_watch ..).after ((later_raise ..).after (later_updBooking (by intro; rfl)))

theorem onForwardedEnd_bare (r : Booking) : r.onForwardedEnd.bare = r.bare := by
  unfold Booking.onForwardedEnd; split <;> rfl

theorem later_forwardFrame (m : Moment) (p : PortIx) {b : BookingIx} (l : LegId) {r : Booking} (x : MergeState)
    (gap : Nat) (f : Frame) (bits : Option FrameBits) {s : State} (hb : s.booking b = some r) :
    Later s (s.forwardFrame m p b l r x gap f bits) := by
  dsimp only [State.forwardFrame]
  refine (later_fanOut ..).after ?_
  have h : Later s (s.setBooking b (some (if f.endFlag = true then
      Booking.onForwardedEnd { r with merge := some x } else { r with merge := some x }))) := by
    refine later_setBooking hb ?_
    split
    · rw [onForwardedEnd_bare]; rfl
    · rfl
  split
  · exact h
  · exact (later_watch ..).after h

theorem later_mergeFrame (m : Moment) (p : PortIx) (b : BookingIx) (l : LegId) (f : Frame) (bits : Option FrameBits)
    (s : State) : Later s (s.mergeFrame m p b l f bits) := by
  dsimp only [State.mergeFrame]
  have h := later_legReceives m b l s
  split
  · exact h
  · next r hr =>
    split
    · exact h
    · exact (later_watch ..).after ((later_setBooking hr (by rfl)).after h)
    · exact (later_forwardFrame m p l _ _ f bits hr).after h

theorem later_mediaFrame (m : Moment) (p : PortIx) (f : Frame) (bits : Option FrameBits) (s : State) :
    Later s (s.mediaFrame m p f bits) := by
  dsimp only [State.mediaFrame]
  split
  · exact later_watch ..
  · split
    · exact (later_mergeFrame ..).after (later_setFlow _ s)
    · exact (later_policerDrop ..).after (later_setFlow _ s)

theorem later_identAtFlow (m : Moment) (p : PortIx) (f : Frame) (bits : Option FrameBits) (s : State) :
    Later s (s.identAtFlow m p f bits) := by
  unfold State.identAtFlow
  split
  · exact later_watch ..
  · exact later_identFrame ..

end Sys2Proof.Machine
end

