-- ==== Sys2Proof/Laws/Invariants.lean ====
section
/-! SUPPORT. The laws of the state (`State.Inv`) under the operations that are not the work of an event alone. -/

namespace Sys2Proof.Machine
open Sys2Proof.Config

/-! ## Reading through `still` -/

theorem Later.face {s t : State} (h : Later s t) (p : PortIx) : (t.port p).face = (s.port p).face := by
  have e := congrArg State.ports h.still
  have e' : t.ports.map Port.face = s.ports.map Port.face := e
  have := congrArg (fun v : Vector Port 16 => v[p.val]) e'
  simpa [State.port] using this

theorem Later.scan {s t : State} (h : Later s t) : t.scan = s.scan := by
  have e := congrArg State.scan h.still; exact e
theorem Later.waiting {s t : State} (h : Later s t) : t.waiting = s.waiting := by
  have e := congrArg State.waiting h.still; exact e
theorem Later.pending {s t : State} (h : Later s t) : t.pending = s.pending := by
  have e := congrArg State.pending h.still; exact e
theorem Later.clock {s t : State} (h : Later s t) : t.clock = s.clock := by
  have e := congrArg State.clock h.still; exact e
theorem Later.sec {s t : State} (h : Later s t) : t.sec = s.sec := by
  have e := congrArg State.sec h.still; exact e
theorem Later.sub {s t : State} (h : Later s t) : t.sub = s.sub := by
  have e := congrArg State.sub h.still; exact e
theorem Later.timeSet {s t : State} (h : Later s t) : t.timeSet = s.timeSet := by
  have e := congrArg State.timeSet h.still; exact e
theorem Later.idleClose {s t : State} (h : Later s t) : t.idleClose = s.idleClose := by
  have e := congrArg State.idleClose h.still; exact e
theorem Later.restart {s t : State} (h : Later s t) : t.restart = s.restart := by
  have e := congrArg State.restart h.still; exact e
theorem Later.deferred {s t : State} (h : Later s t) : t.deferred = s.deferred := by
  have e := congrArg State.deferred h.still; exact e
theorem Later.patterns {s t : State} (h : Later s t) : t.patterns = s.patterns := by
  have e := congrArg State.patterns h.still; exact e
theorem Later.silenceMs {s t : State} (h : Later s t) : t.silenceMs = s.silenceMs := by
  have e := congrArg State.silenceMs h.still; exact e
theorem Later.identTimeout {s t : State} (h : Later s t) : t.identTimeout = s.identTimeout := by
  have e := congrArg State.identTimeout h.still; exact e
theorem Later.probeConfig {s t : State} (h : Later s t) : t.probeConfig = s.probeConfig := by
  have e := congrArg State.probeConfig h.still; exact e
theorem Later.masks {s t : State} (h : Later s t) : t.masks = s.masks := by
  have e := congrArg State.masks h.still; exact e
theorem Later.tariffs {s t : State} (h : Later s t) : t.tariffs = s.tariffs := by
  have e := congrArg State.tariffs h.still; exact e
theorem Later.noticePort {s t : State} (h : Later s t) : t.noticePort = s.noticePort := by
  have e := congrArg State.noticePort h.still; exact e
theorem Later.startCause {s t : State} (h : Later s t) : t.startCause = s.startCause := by
  have e := congrArg State.startCause h.still; exact e
theorem Later.straps {s t : State} (h : Later s t) : t.straps = s.straps := by
  have e := congrArg State.straps h.still; exact e

theorem Later.cls {s t : State} (h : Later s t) (p : PortIx) : (t.port p).cls = (s.port p).cls := by
  have e := congrArg Port.cls (h.face p); exact e
theorem Later.role {s t : State} (h : Later s t) (p : PortIx) : (t.port p).role = (s.port p).role := by
  have e := congrArg Port.role (h.face p); exact e
theorem Later.link {s t : State} (h : Later s t) (p : PortIx) : (t.port p).link = (s.port p).link := by
  have e := congrArg Port.link (h.face p); exact e
theorem Later.badChecks {s t : State} (h : Later s t) (p : PortIx) : (t.port p).badChecks = (s.port p).badChecks := by
  have e := congrArg Port.badChecks (h.face p); exact e
theorem Later.goodRun {s t : State} (h : Later s t) (p : PortIx) : (t.port p).goodRun = (s.port p).goodRun := by
  have e := congrArg Port.goodRun (h.face p); exact e
theorem Later.upWhole {s t : State} (h : Later s t) (p : PortIx) : (t.port p).upWhole = (s.port p).upWhole := by
  have e := congrArg Port.upWhole (h.face p); exact e
theorem Later.upLast {s t : State} (h : Later s t) (p : PortIx) : (t.port p).upLast = (s.port p).upLast := by
  have e := congrArg Port.upLast (h.face p); exact e

/-- A record is FREE after the work of an event exactly when it was before. -/
theorem Later.isSome {s t : State} (h : Later s t) (b : BookingIx) : (t.booking b).isSome = (s.booking b).isSome := by
  have := congrArg Option.isSome (h.bare b)
  simpa using this

/-! ## The laws -/

/-- The work of an event keeps the laws. -/
theorem Later.inv {s t : State} (h : Later s t) (k : s.Inv) : t.Inv where
  control := h.controlInv k.control
  media p := h.mediaOk p (k.media p)
  admission := by have := k.admission; simp only [State.AdmissionInv, h.scan, h.waiting]; exact this
  probe := h.probeInv k.probe
  bill := h.billInv k.bill
  flow := by
    have := k.flow
    have e := h.flowKeys
    simp only [State.flowKeys] at e
    simp only [State.FlowInv, e]; exact this
  operator := by obtain ⟨p, hp⟩ := k.operator; exact ⟨p, by rw [h.cls p]; exact hp⟩

/-- The laws do not read the records. -/
theorem inv_bookings {s : State} (k : s.Inv) (v : Vector (Option Booking) 256) : State.Inv { s with bookings := v } :=
  ⟨k.control, k.media, k.admission, k.probe, k.bill, k.flow, k.operator⟩

theorem inv_setBooking {s : State} (k : s.Inv) (b : BookingIx) (x : Option Booking) : (s.setBooking b x).Inv :=
  inv_bookings k _

theorem inv_elapse {s : State} (k : s.Inv) (dt : Nat) : (s.elapse dt).Inv :=
  ⟨k.control, k.media, k.admission, k.probe, k.bill, k.flow, k.operator⟩

theorem inv_beginEvent {s : State} (k : s.Inv) (dt : Nat) : (s.beginEvent dt).Inv :=
  ⟨k.control, k.media, k.admission, k.probe, k.bill, k.flow, k.operator⟩

theorem inv_elapseTo {s : State} (k : s.Inv) (t : Nat) : (s.elapseTo t).Inv := inv_elapse k _

theorem inv_advance {s : State} (k : s.Inv) (m : Moment) : (s.advance m).Inv := by
  dsimp only [State.advance]
  have h := inv_beginEvent k m.dt
  split
  · exact h
  · next sc hs =>
    exact ⟨h.control, h.media, ⟨h.admission.1, by simp⟩, h.probe, h.bill, h.flow, h.operator⟩

theorem inv_stepSecond {s : State} (k : s.Inv) : s.stepSecond.Inv :=
  ⟨k.control, k.media, k.admission, k.probe, k.bill, k.flow, k.operator⟩

/-- A port replaced keeps the laws when its queues keep theirs and an OPERATOR remains. -/
theorem inv_setPort {s : State} (k : s.Inv) {p : PortIx} {x : Port} (hc : x.control.length ≤ controlQueueDepth)
    (hm : x.MediaOk) (ho : (s.setPort p x).OperatorInv) : (s.setPort p x).Inv where
  control q := by by_cases e : q = p
                  · subst e; simpa using hc
                  · simpa [e] using k.control q
  media q := by by_cases e : q = p
                · subst e; simpa using hm
                · simpa [e] using k.media q
  admission := k.admission
  probe := k.probe
  bill := k.bill
  flow := k.flow
  operator := ho

theorem operator_setPort {s : State} (k : s.OperatorInv) {p : PortIx} {x : Port} (h : x.cls = (s.port p).cls) :
    (s.setPort p x).OperatorInv := by
  obtain ⟨q, hq⟩ := k
  refine ⟨q, ?_⟩
  by_cases e : q = p
  · subst e; simpa [h] using hq
  · simpa [e] using hq

theorem boundary_mediaOk {x : Port} (h : x.MediaOk) : x.boundary.MediaOk := by
  obtain ⟨h1, h2, h3⟩ := h
  refine ⟨h1, h2, fun hx => ?_⟩
  apply h3
  by_cases hl : x.link = .lof ∧ x.badChecks = 0
  · exact .inl (by simp [hl.1])
  · simpa [Port.boundary, hl] using hx

theorem inv_portsBoundary {s : State} (k : s.Inv) : s.portsBoundary.Inv := by
  have hp : ∀ p : PortIx, s.portsBoundary.port p = (s.port p).boundary := by
    intro p; simp [State.portsBoundary, State.port]
  exact {
    control := fun p => by rw [hp]; exact k.control p
    media := fun p => by rw [hp]; exact boundary_mediaOk (k.media p)
    admission := k.admission, probe := k.probe, bill := k.bill, flow := k.flow
    operator := by obtain ⟨p, h⟩ := k.operator; exact ⟨p, by rw [hp]; exact h⟩ }

/-! ## Flow table (R59 to R62) -/

theorem inv_installLeg {s : State} (k : s.Inv) (b : BookingIx) (l : LegId) : (s.installLeg b l).Inv := by
  unfold State.installLeg
  split
  · exact k
  · split
    · exact k
    · split
      · exact ⟨k.control, k.media, k.admission, k.probe, k.bill, k.flow, k.operator⟩
      · next lg _ h =>
        refine ⟨k.control, k.media, k.admission, k.probe, k.bill, ?_, k.operator⟩
        have hn : s.flowOf lg.port lg.label = none := by simpa using h
        simp only [State.flowOf, List.find?_eq_none, decide_eq_true_eq, not_and] at hn
        simp only [State.FlowInv, List.map_append, List.map_cons, List.map_nil, FlowEntry.install]
        refine List.nodup_append.2 ⟨k.flow, by simp, ?_⟩
        intro x hx y hy
        simp only [List.mem_singleton] at hy
        obtain ⟨e, he, rfl⟩ := List.mem_map.1 hx
        subst hy
        intro heq
        simp only [Prod.mk.injEq] at heq
        exact hn e he heq.1 heq.2

theorem inv_foldl {α : Type} {f : State → α → State} (h : ∀ s x, s.Inv → (f s x).Inv) (l : List α) {s : State}
    (k : s.Inv) : (l.foldl f s).Inv := by
  induction l generalizing s with
  | nil => exact k
  | cons x t ih => exact ih (h s x k)

theorem inv_installLegs {s : State} (k : s.Inv) (b : BookingIx) : (s.installLegs b).Inv :=
  inv_installLeg (inv_installLeg k b .main) b .backup

theorem inv_removeFlows {s : State} (k : s.Inv) (b : BookingIx) : (s.removeFlows b).Inv := by
  unfold State.removeFlows State.installDeferred
  refine inv_foldl (fun s x k => inv_installLeg k x.1 x.2) _ ?_
  exact ⟨k.control, k.media, k.admission, k.probe, k.bill,
    k.flow.sublist (List.Sublist.map _ List.filter_sublist), k.operator⟩

/-! ## The scheduler and the boundary -/

theorem inv_closeRecord {s : State} (k : s.Inv) (b : BookingIx) (r : Booking) (c : CutReason) :
    (s.closeRecord b r c).Inv :=
  (later_settleBooking ..).inv (inv_setBooking (inv_removeFlows k b) _ _)

theorem inv_applyTransition {s : State} (k : s.Inv) (m : Moment) (b : BookingIx) (r : Booking) (x : Transition) :
    (s.applyTransition m b r x).Inv := by
  cases x with
  | stay => exact k
  | expire => exact (later_raise ..).inv (inv_setBooking k _ _)
  | arm => exact inv_installLegs (inv_setBooking k _ _) b
  | goLive => exact (later_judge ..).inv (inv_setBooking k _ _)
  | overrun => exact (later_raise ..).inv (inv_setBooking k _ _)
  | close c =>
    dsimp only [State.applyTransition]
    refine inv_closeRecord ?_ b r c
    split
    · exact (later_raise ..).inv k
    · exact k

theorem inv_schedule {s : State} (k : s.Inv) (m : Moment) : (s.schedule m).Inv := by
  refine inv_foldl (fun s b k => ?_) _ k
  unfold State.scheduleOne
  split
  · exact k
  · exact inv_applyTransition k ..

theorem inv_finishRestart {s : State} (k : s.Inv) : s.finishRestart.Inv :=
  ⟨k.control, k.media, ⟨by simp [State.finishRestart], fun _ => rfl⟩, k.probe, k.bill,
    by simp [State.FlowInv, State.finishRestart], k.operator⟩

theorem inv_boundary {s : State} (k : s.Inv) (m : Moment) : (s.boundary m).Inv := by
  dsimp only [State.boundary]
  have h1 := (later_classify s.sec _).inv (inv_portsBoundary (inv_stepSecond k))
  have h3 : ∀ t : State, t.Inv → (t.tryFinishRestart m).Inv := by
    intro t ht; unfold State.tryFinishRestart; split
    · exact inv_finishRestart ((later_flush ..).inv ht)
    · exact ht
  cases m.watchFirst
  · exact (later_watchBoundary ..).inv (h3 _ (inv_schedule h1 m))
  · exact h3 _ (inv_schedule ((later_watchBoundary ..).inv h1) m)

/-! ## Links (R49 to R53) -/

theorem emptyMedia_mediaOk (m : Moment) (p : PortIx) (s : State) : ((s.emptyMedia m p).port p).MediaOk := by
  dsimp only [State.emptyMedia]
  refine (later_foldl (fun s c => later_egressDrop m p c s) _ _).mediaOk p ?_
  simp [Port.MediaOk]

/-- A port that has left UP: its media queues are emptied before the event ends. -/
theorem inv_leaveUp {s t : State} (k : s.Inv) {p : PortIx} (link : Link) (h : Later (s.setLink p link) t) (m : Moment) :
    (t.leaveUp m p).Inv := by
  have hl : Later (s.setLink p link) (t.leaveUp m p) := (later_leaveUp ..).after h
  have hp : ∀ q, q ≠ p → ((s.setLink p link).port q) = s.port q := by intro q e; simp [State.setLink, e]
  have hc : ((s.setLink p link).port p).control = (s.port p).control := by simp [State.setLink]
  have hcls : ∀ q, ((s.setLink p link).port q).cls = (s.port q).cls := by
    intro q; by_cases e : q = p
    · subst e; simp [State.setLink]
    · rw [hp q e]
  exact {
    control := hl.controlInv fun q => by
      by_cases e : q = p
      · subst e; rw [hc]; exact k.control q
      · rw [hp q e]; exact k.control q
    media := fun q => by
      by_cases e : q = p
      · subst e; exact emptyMedia_mediaOk ..
      · exact hl.mediaOk q (by rw [hp q e]; exact k.media q)
    admission := by have := k.admission; simp only [State.AdmissionInv, hl.scan, hl.waiting]; exact this
    probe := hl.probeInv k.probe
    bill := hl.billInv k.bill
    flow := by
      have e := hl.flowKeys
      simp only [State.flowKeys] at e
      simp only [State.FlowInv, e]; exact k.flow
    operator := by obtain ⟨q, hq⟩ := k.operator; exact ⟨q, by rw [hl.cls q, hcls q]; exact hq⟩ }

theorem inv_enterLof {s : State} (k : s.Inv) (m : Moment) (p : PortIx) : (s.enterLof m p).Inv :=
  (later_recapturePort ..).inv (inv_leaveUp k .lof (later_raise ..) m)

theorem inv_loseLight {s : State} (k : s.Inv) (m : Moment) (p : PortIx) : (s.loseLight m p).Inv := by
  dsimp only [State.loseLight]
  have h0 : Later (s.setLink p .down) ((s.setLink p .down).raise .los (.ofPort p) none) := later_raise ..
  have h1 : Later (s.setLink p .down) (if m.autoFirst then
      ((s.setLink p .down).raise .los (.ofPort p) none).autoProbe p
      else (s.setLink p .down).raise .los (.ofPort p) none) := by
    split
    · exact (later_autoProbe ..).after h0
    · exact h0
  generalize (if m.autoFirst then ((s.setLink p .down).raise .los (.ofPort p) none).autoProbe p
      else (s.setLink p .down).raise .los (.ofPort p) none) = t at h1
  have h2 : (if decide ((s.port p).link = .up) = true then t.leaveUp m p else t).Inv := by
    split
    · exact inv_leaveUp k .down h1 m
    · next hup =>
      refine h1.inv (inv_setPort k (k.control p) ?_ (operator_setPort k.operator rfl))
      have := k.media p
      exact ⟨this.1, this.2.1, fun _ => this.2.2 (.inl (by simpa using hup))⟩
  generalize (if decide ((s.port p).link = .up) = true then t.leaveUp m p else t) = u at h2
  have h3 := (later_recapturePort m p u).inv h2
  split
  · exact h3
  · exact (later_autoProbe ..).inv h3

/-! ## Aborting (R109) -/

theorem settleBooking_probes (b : BookingIx) (s : State) :
    (s.settleBooking b).flight = s.flight ∧ (s.settleBooking b).probeWaiting = s.probeWaiting := by
  have hc : ∀ t : State, (t.closeBooking b).flight = t.flight ∧ (t.closeBooking b).probeWaiting = t.probeWaiting := by
    intro t; unfold State.closeBooking State.updBooking; split <;> exact ⟨rfl, rfl⟩
  unfold State.settleBooking
  split
  · exact ⟨rfl, rfl⟩
  · split
    · unfold State.billNow
      split
      · exact ⟨rfl, rfl⟩
      · dsimp only
        split
        · exact hc _
        · exact ⟨rfl, rfl⟩
    · exact ⟨rfl, rfl⟩

theorem settleAll_probes (m : Moment) (s : State) :
    (s.settleAll m).flight = s.flight ∧ (s.settleAll m).probeWaiting = s.probeWaiting := by
  unfold State.settleAll
  generalize bookingOrder m = l
  induction l generalizing s with
  | nil => exact ⟨rfl, rfl⟩
  | cons x l ih =>
    have h1 := ih (s.settleBooking x)
    have h2 := settleBooking_probes x s
    exact ⟨h1.1.trans h2.1, h1.2.trans h2.2⟩

theorem settleCauses_probes (n : ProbeNo) (c : Cause) (s : State) :
    (s.settleCauses n c).flight = s.flight ∧ (s.settleCauses n c).probeWaiting = s.probeWaiting := ⟨rfl, rfl⟩

theorem concludeProbe_probes (m : Moment) (n : ProbeNo) (p : PortIx) (e : ProbeEnd) (s : State) :
    (s.concludeProbe m n p e).flight = s.flight ∧ (s.concludeProbe m n p e).probeWaiting = s.probeWaiting := by
  unfold State.concludeProbe
  constructor
  · rw [State.raise_flight, (settleAll_probes _ _).1, (settleCauses_probes _ _ _).1]
  · rw [State.raise_probeWaiting, (settleAll_probes _ _).2, (settleCauses_probes _ _ _).2]

theorem later_abortAll (m : Moment) (s : State) : Later s (s.abortAll m) := by
  have h0 : Later s { s with probeWaiting := [] } :=
    (Later.refl s).withProbes (f := s.flight) (k := s.probeCounter) rfl fun k =>
      ⟨by simp, fun _ => rfl, by
        have := k.2.2
        simp only [State.probedPorts] at *
        simpa using (List.nodup_append.1 this).1⟩
  have hs : ∀ (t : State) (w : WaitingProbe), Later t (t.concludeProbe m w.number w.port (.bare .aborted)) := by
    intro t w
    exact later_concludeProbe m w.number w.port (.bare .aborted) t
  have h1 : ∀ t : State, Later t (s.probeWaiting.foldl
      (fun t w => t.concludeProbe m w.number w.port (.bare .aborted)) t) := by
    intro t
    exact later_foldl hs s.probeWaiting t
  unfold State.abortAll
  refine (h1 _).after ?_
  have hu : ({ s with probeWaiting := [] } : State).probeWaiting = [] := rfl
  generalize ({ s with probeWaiting := [] } : State) = u at h0 hu ⊢
  split
  · next f _ =>
    refine (later_leaveAlone f fun _ => ?_).after ((later_concludeProbe m f.number f.port (.bare .aborted) _).after h0)
    exact (concludeProbe_probes m f.number f.port (.bare .aborted) _).2.trans hu
  · exact h0

end Sys2Proof.Machine
end

