-- ==== Sys2Proof/Laws/Commands.lean ====
section
/-! SUPPORT. Each command's meaning keeps the laws of the state. -/

namespace Sys2Proof.Machine
open Sys2Proof.Config

/-- What a meaning answers keeps the laws. -/
def Keeps (o : Host.Outcome State Fault Refusal) : Prop := ∀ t, o = .next t → t.Inv

theorem keeps_next {s : State} (k : s.Inv) : Keeps (.next s) := by
  intro t h; cases h; exact k

/-! ## Events of the world -/

theorem inv_execSecondBoundary {s : State} (k : s.Inv) (m : Moment) : Keeps (execSecondBoundary m s) :=
  keeps_next ((later_flush ..).inv (inv_boundary (inv_advance k m) m))

theorem inv_execLightLost {s : State} (k : s.Inv) (m : Moment) (p : PortIx) : Keeps (execLightLost m p s) := by
  dsimp only [execLightLost]
  split
  · exact keeps_next ((later_flush ..).inv (inv_loseLight (inv_advance k m) m p))
  · exact keeps_next (inv_advance k m)

theorem inv_execLightReturns {s : State} (k : s.Inv) (m : Moment) (p : PortIx) : Keeps (execLightReturns m p s) := by
  dsimp only [execLightReturns]
  have k := inv_advance k m
  generalize s.advance m = s at k
  split
  · exact keeps_next k
  · next h =>
    refine keeps_next (((later_flush ..).after (later_endProbeOf ..)).inv (inv_setPort k (k.control p) ?_ (operator_setPort k.operator rfl)))
    have hm := k.media p
    exact ⟨hm.1, hm.2.1, fun _ => hm.2.2 (.inl (by
      have : (s.port p).link = .down := by simpa [Port.lit] using h
      simp [this]))⟩

theorem dequeue_control (x : Port) (c : SlotChoice) : (x.dequeue c).control.length ≤ x.control.length := by
  cases c <;> simp [Port.dequeue]

theorem dequeue_mediaOk {x : Port} (h : x.MediaOk) (c : SlotChoice) : (x.dequeue c).MediaOk := by
  obtain ⟨h1, h2, h3⟩ := h
  cases c <;> simp only [Port.dequeue, Port.MediaOk, List.length_tail]
  · exact ⟨h1, h2, h3⟩
  · exact ⟨by omega, h2, fun e => ⟨by simp [(h3 e).1], (h3 e).2⟩⟩
  · exact ⟨h1, by omega, fun e => ⟨(h3 e).1, by simp [(h3 e).2]⟩⟩
  · exact ⟨h1, h2, h3⟩
  · exact ⟨h1, h2, h3⟩

theorem dequeue_cls (x : Port) (c : SlotChoice) : (x.dequeue c).cls = x.cls := by cases c <;> rfl

theorem inv_execSlotStart {s : State} (k : s.Inv) (m : Moment) (p : PortIx) : Keeps (execSlotStart m p s) := by
  dsimp only [execSlotStart]
  have k := inv_advance k m
  generalize s.advance m = s at k
  split
  · exact keeps_next k
  · have h : ∀ t : State, t.Inv → (t.setPort p ((t.port p).beginSlot t.clock)).Inv := by
      intro t k
      refine inv_setPort k ((dequeue_control ..).trans (k.control p)) ?_ (operator_setPort k.operator (dequeue_cls ..))
      exact dequeue_mediaOk (k.media p) _
    split
    · exact keeps_next (h _ (inv_elapseTo k _))
    · exact keeps_next (h _ k)

/-- The probe in flight replaced by one of the same port. -/
theorem inv_setFlight {s : State} (k : s.Inv) {f g : Flight} (h : s.flight = some f) (e : g.port = f.port) :
    State.Inv { s with flight := some g } := by
  refine ⟨k.control, k.media, k.admission, ⟨k.probe.1, fun x => by simp at x, ?_⟩, k.bill, k.flow, k.operator⟩
  have := k.probe.2.2
  simpa [State.probedPorts, h, e] using this

theorem inv_execTransmitterPasses {s : State} (k : s.Inv) (m : Moment) : Keeps (execTransmitterPasses m s) := by
  dsimp only [execTransmitterPasses]
  have k := inv_advance k m
  generalize s.advance m = s at k
  split
  · next f hf =>
    split
    · refine keeps_next (inv_setFlight (f := f) (g := { f with began := _ }) ?_ ?_ rfl)
      · exact (later_idleLine f.port _).inv (inv_elapseTo k _)
      · exact hf
    · exact keeps_next k
  · exact keeps_next k

theorem inv_execSilenceTimerExpiry {s : State} (k : s.Inv) (m : Moment) (b : BookingIx) (l : LegId) :
    Keeps (execSilenceTimerExpiry m b l s) := by
  dsimp only [execSilenceTimerExpiry]
  have k := inv_advance k m
  split
  · exact keeps_next (((later_flush ..).after (later_legSilent ..)).inv (inv_elapseTo k _))
  · exact keeps_next k

theorem inv_execIdentTimeoutExpiry {s : State} (k : s.Inv) (m : Moment) (b : BookingIx) (l : LegId) :
    Keeps (execIdentTimeoutExpiry m b l s) := by
  dsimp only [execIdentTimeoutExpiry]
  have k := inv_advance k m
  split
  · exact keeps_next (((later_flush ..).after (later_identExpire ..)).inv (inv_elapseTo k _))
  · exact keeps_next k

theorem inv_execPhaseTimerExpiry {s : State} (k : s.Inv) (m : Moment) : Keeps (execPhaseTimerExpiry m s) := by
  dsimp only [execPhaseTimerExpiry]
  have k := inv_advance k m
  split
  · split
    · exact keeps_next (((later_flush ..).after (later_endFlight ..)).inv (inv_elapseTo k _))
    · exact keeps_next k
  · exact keeps_next k

theorem inv_deliver {s : State} (k : s.Inv) (m : Moment) {f : Flight} (h : s.flight = some f) (x : Measured) :
    (s.deliver m f x).Inv := by
  unfold State.deliver
  split
  · split
    · exact (later_endFlight ..).inv k
    · exact inv_setFlight k h rfl
  · split
    · split
      · exact inv_setFlight k h rfl
      · exact k
    · exact k
  · split
    · exact (later_endFlight ..).inv k
    · exact (later_endFlight ..).inv k
  · exact k

theorem inv_execTraceDelivered {s : State} (k : s.Inv) (m : Moment) (x : Trace) : Keeps (execTraceDelivered m x s) := by
  dsimp only [execTraceDelivered]
  have k := inv_advance k m
  generalize s.advance m = s at k
  split
  · next f hf =>
    split
    · split
      · exact keeps_next ((later_flush ..).inv (inv_deliver (inv_elapseTo k _) m hf x.measured))
      · exact keeps_next k
    · exact keeps_next k
  · exact keeps_next k

/-! ## Admission -/

/-- The laws but that of the admission queue, which a completion leaves broken between its steps. -/
structure State.InvBut (s : State) : Prop where
  control : s.ControlInv
  media : s.MediaInv
  probe : s.ProbeInv
  bill : s.BillInv
  flow : s.FlowInv
  operator : s.OperatorInv

theorem State.Inv.but {s : State} (k : s.Inv) : s.InvBut :=
  ⟨k.control, k.media, k.probe, k.bill, k.flow, k.operator⟩

theorem Later.but {s t : State} (h : Later s t) (k : s.InvBut) : t.InvBut where
  control := h.controlInv k.control
  media p := h.mediaOk p (k.media p)
  probe := h.probeInv k.probe
  bill := h.billInv k.bill
  flow := by
    have := k.flow
    have e := h.flowKeys
    simp only [State.flowKeys] at e
    simp only [State.FlowInv, e]; exact this
  operator := by obtain ⟨p, hp⟩ := k.operator; exact ⟨p, by rw [h.cls p]; exact hp⟩

/-- A raise after a record was replaced: what the completion of an entry does. -/
theorem completeEntry_but {s : State} (k : s.InvBut) (e : AdmissionEntry) (v : Option Verdict) :
    (s.completeEntry e v).InvBut ∧ (s.completeEntry e v).scan = s.scan ∧
      (s.completeEntry e v).waiting = s.waiting := by
  have hr : ∀ (t : State) b x c y, t.InvBut → (t.raiseAdmission b x c y).InvBut ∧
      (t.raiseAdmission b x c y).scan = t.scan ∧ (t.raiseAdmission b x c y).waiting = t.waiting := by
    intro t b x c y k
    have h := later_raise .admission { port := y.map Verdict.port, booking := some b, leg := none }
      (some (.admission x c ((y.map Verdict.qualified).getD (0, 0)).1 ((y.map Verdict.qualified).getD (0, 0)).2)) t
    exact ⟨h.but k, h.scan, h.waiting⟩
  have hs : ∀ b (r : Option Booking), (s.setBooking b r).InvBut := fun b r =>
    ⟨k.control, k.media, k.probe, k.bill, k.flow, k.operator⟩
  unfold State.completeEntry
  split
  · exact hr s _ _ _ _ k
  · split
    · unfold State.completeBook
      split
      · exact ⟨k, rfl, rfl⟩
      · split
        · exact hr _ _ _ _ _ (hs _ _)
        · split <;> exact hr _ _ _ _ _ (hs _ _)
    · unfold State.completeExtend
      split
      · exact hr s _ _ _ _ k
      · dsimp only
        split
        · split <;> exact hr _ _ _ _ _ (hs _ _)
        · exact hr _ _ _ _ _ (hs _ _)

theorem startWaiting_inv (l : List AdmissionEntry) {s : State} (k : s.InvBut) (h : l.length ≤ admissionPlaces)
    (hs : s.scan = none) : (s.startWaiting l).Inv := by
  induction l generalizing s with
  | nil =>
    exact ⟨k.control, k.media, ⟨by simp [State.startWaiting], fun _ => by simp [State.startWaiting]⟩, k.probe, k.bill,
      k.flow, k.operator⟩
  | cons e t ih =>
    unfold State.startWaiting
    simp only [List.length_cons] at h
    have k1 : State.InvBut { s with waiting := t } := ⟨k.control, k.media, k.probe, k.bill, k.flow, k.operator⟩
    split
    · have hl : Later { s with waiting := t } (State.completeVoid e.booking { s with waiting := t }) := later_raise ..
      exact ih (hl.but k1) (by omega) (hl.scan.trans hs)
    · unfold State.beginScan
      split
      · exact ⟨k.control, k.media, ⟨by simpa using (by omega : t.length ≤ admissionPlaces), by simp⟩, k.probe, k.bill,
          k.flow, k.operator⟩
      · exact ⟨k.control, k.media, ⟨by simpa using (by omega : t.length ≤ admissionPlaces), by simp⟩, k.probe, k.bill,
          k.flow, k.operator⟩

theorem inv_completeScan {s : State} (k : s.Inv) (sc : Scan) : (s.completeScan sc).Inv := by
  dsimp only [State.completeScan]
  have k1 : State.InvBut { s with scan := none } := ⟨k.control, k.media, k.probe, k.bill, k.flow, k.operator⟩
  have h := completeEntry_but k1 (sc.visitTo s.bookings 256).entry
    ((sc.visitTo s.bookings 256).verdict fun p => (s.port p).bookable)
  exact startWaiting_inv _ h.1 (by rw [h.2.2]; exact k.admission.1) h.2.1

theorem inv_execAdmissionCompletion {s : State} (k : s.Inv) (m : Moment) : Keeps (execAdmissionCompletion m s) := by
  dsimp only [execAdmissionCompletion]
  split
  · exact keeps_next ((later_flush ..).inv (inv_completeScan (inv_beginEvent k _) _))
  · exact keeps_next (inv_beginEvent k _)

theorem inv_handEntry {s : State} (k : s.Inv) (h : s.admissionFull = false) (e : AdmissionEntry) :
    (s.handEntry e).Inv := by
  simp only [State.admissionFull, decide_eq_false_iff_not] at h
  unfold State.handEntry
  split
  · unfold State.beginScan
    split <;> exact ⟨k.control, k.media, ⟨k.admission.1, by simp⟩, k.probe, k.bill, k.flow, k.operator⟩
  · next hs =>
    refine ⟨k.control, k.media, ⟨by simp; omega, fun hn => absurd (show s.scan = none from hn) (by simpa using hs)⟩,
      k.probe, k.bill, k.flow, k.operator⟩

theorem inv_freeBooking {s : State} (k : s.Inv) (b : BookingIx) : (s.freeBooking b).Inv := by
  refine ⟨k.control, k.media, ⟨?_, ?_⟩, k.probe, k.bill, k.flow, k.operator⟩
  · simpa [State.freeBooking] using k.admission.1
  · intro h
    have : s.scan = none := by simpa [State.freeBooking] using h
    simpa [State.freeBooking] using k.admission.2 this

end Sys2Proof.Machine
end

