-- ==== Sys2Proof/Laws/Layout.lean ====
section
/-! SUPPORT. The answers the device writes are the bytes of the fields the manual's tables list. -/

namespace Sys2Proof.Machine

/-! ## Fields -/

@[simp] theorem bytesOf_nil : bytesOf [] = [] := rfl
@[simp] theorem bytesOf_cons (x : Field) (l : List Field) : bytesOf (x :: l) = bigEndian x.1 x.2 ++ bytesOf l := rfl
@[simp] theorem bytesOf_append (a b : List Field) : bytesOf (a ++ b) = bytesOf a ++ bytesOf b := by
  simp [bytesOf]
theorem bytesOf_flatMap {α : Type} (f : α → List Field) (l : List α) :
    bytesOf (l.flatMap f) = l.flatMap fun x => bytesOf (f x) := by
  simp [bytesOf, List.flatMap_assoc]

@[simp] theorem bigEndian_one (v : Nat) : bigEndian 1 v = enc8 v := by simp [bigEndian, enc8]
@[simp] theorem bigEndian_two (v : Nat) : bigEndian 2 v = enc16 v := by simp [bigEndian, enc16, List.range_succ]
@[simp] theorem bigEndian_four (v : Nat) : bigEndian 4 v = enc32 v := by simp [bigEndian, enc32, List.range_succ]
@[simp] theorem bigEndian_zero (n : Nat) : bigEndian n 0 = zeros n := by
  simp [bigEndian, zeros, List.map_const']
@[simp] theorem flagField_bytes (b : Bool) : bigEndian (flagField b).1 (flagField b).2 = encBool b := by
  cases b <;> rfl
@[simp] theorem enumField_bytes {α : Type} [DecidableEq α] (x : α) (l : List α) :
    bigEndian (enumField x l).1 (enumField x l).2 = enc8 (l.idxOf x) := by simp [enumField]
@[simp] theorem enc8_one : enc8 1 = [1] := rfl
@[simp] theorem enc8_zero : enc8 0 = [0] := rfl

theorem bytesOf_optFields {α : Type} {f : α → List Field} {g : α → List Byte} (h : ∀ x, bytesOf (f x) = g x) (w : Nat)
    (o : Option α) : bytesOf (optFields w (o.map f)) = encOpt w g o := by
  cases o <;> simp [optFields, encOpt, h, zeros]

theorem bytesOf_varFields {α : Type} {f : α → List Field} {g : α → List Byte} (h : ∀ x, bytesOf (f x) = g x)
    (o : Option α) : bytesOf (varFields (o.map f)) = encOptVar g o := by
  cases o <;> simp [varFields, encOptVar, h, zeros]

theorem bytesOf_listFields {α : Type} {f : α → List Field} {g : α → List Byte} (h : ∀ x, bytesOf (f x) = g x)
    (l : List α) : bytesOf (listFields (l.map f)) = encList g l := by
  simp [listFields, encList, ← List.flatMap_def, bytesOf_flatMap, h]

/-! ## The answers -/

theorem portReport_layout (s : State) (p : PortIx) : s.portReport p = bytesOf (s.portFields p) := by
  have h1 : ∀ x : Role, [Role.off, .venue, .taker, .mixed].idxOf x = x.code := by intro x; cases x <;> rfl
  have h2 : ∀ x : ControlClass, [ControlClass.none, .observer, .operator].idxOf x = x.code := by
    intro x; cases x <;> rfl
  have h3 : ∀ x : Link, [Link.down, .acquiring, .up, .lof].idxOf x = x.code := by intro x; cases x <;> rfl
  have h4 : ∀ x : Port, encBool (decide (x.link = .down)) = enc8 (lightCode x) := by
    intro x; cases h : x.link <;> simp [lightCode, Port.lit, h, encBool]
  simp [State.portReport, State.portFields, h1, h2, h3, h4, State.fitted, State.underProbe]

theorem terms_layout (r : Booking) : r.terms = bytesOf r.termFields := by
  have h1 : ∀ x : ProtectionMode, [ProtectionMode.merge, .mainOnly, .backupOnly].idxOf x = x.code := by
    intro x; cases x <;> rfl
  have h2 : ∀ x : IdentPolicy, [IdentPolicy.none, .check, .require].idxOf x = x.code := by intro x; cases x <;> rfl
  have h3 := fun w => bytesOf_optFields (f := fun i : PatternIx => [((1, i.val) : Field)])
    (g := fun i => enc8 i.val) (fun i => by simp) w
  rw [Booking.termFields, bytesOf_append, bytesOf_append, bytesOf_listFields (g := Leg.terms),
    bytesOf_listFields (g := Dest.terms)]
  · simp [Booking.terms, encEnum, encOpt, h1]
  · intro d; simp [Dest.terms]
  · intro l; simp [Leg.terms, h2, h3]

theorem break_layout (b : Option Break) : bytesOf (breakFields b) = encOpt 3 Break.report b :=
  bytesOf_optFields (fun k => by simp [Break.report]) 3 b

theorem cause_layout (c : Cause) : bytesOf c.fields = c.report := by
  unfold Cause.fields Cause.report
  rw [bytesOf_append, break_layout]
  cases c.value <;> simp [CauseValue.code, CauseValue.number, zeros]

theorem enum_layout {α : Type} [DecidableEq α] (code : α → Nat) (list : List α) (h : ∀ x, list.idxOf x = code x)
    (o : Option α) : bytesOf (optFields 1 (o.map fun x => [enumField x list])) = encEnum code o :=
  bytesOf_optFields (fun x => by simp [h]) 1 o

theorem second_layout (o : Option Nat) : bytesOf (optFields 4 (o.map fun n => [(4, n)])) = encSecond o :=
  bytesOf_optFields (fun n => by simp) 4 o

theorem legCause_layout (c : LegCause) : bytesOf c.fields = c.report := by
  unfold LegCause.fields LegCause.report
  rw [bytesOf_append, bytesOf_append, bytesOf_optFields cause_layout, bytesOf_optFields cause_layout,
    enum_layout Situation.code]
  intro x; cases x <;> rfl

theorem outageRecord_layout (two : Bool) (o : OutageRecord) : bytesOf (o.fields two) = o.report two := by
  have h1 : ∀ x : Attribution, [Attribution.network, .venue, .unknown, .pending].idxOf x = x.code := by
    intro x; cases x <;> rfl
  cases two <;> simp [OutageRecord.fields, OutageRecord.report, h1, break_layout, legCause_layout, second_layout]

theorem bands_layout (x : Bands) : bytesOf x.fields = x.report := by simp [Bands.fields, Bands.report]

theorem residency_layout (x : Residency) : bytesOf x.fields = x.report := by
  simp [Residency.fields, Residency.report, bands_layout]

theorem merge_layout (two : Bool) (x : MergeState) : bytesOf (x.fields two) = x.report two := by
  have h1 := bytesOf_optFields (f := fun n : Nat => [((2, n) : Field)]) (g := enc16) (fun n => by simp) 2
  cases two <;> simp [MergeState.fields, MergeState.report, h1, LegCounts.report]

theorem outageState_layout (two : Bool) (d : List Dest) (o : OutageState) :
    bytesOf (o.fields two d) = o.report two d := by
  simp [OutageState.fields, OutageState.report, bytesOf_listFields (outageRecord_layout two), bytesOf_flatMap,
    residency_layout]

theorem legStatus_layout (l : Leg) : bytesOf l.statusFields = l.status := by
  have h1 : ∀ x : LegState, [LegState.idle, .waiting, .receiving, .silent].idxOf x = x.code := by
    intro x; cases x <;> rfl
  have h2 := enum_layout IdentState.code [.notChecked, .awaiting, .matched, .mismatched, .unconfirmed]
    (by intro x; cases x <;> rfl)
  simp [Leg.statusFields, Leg.status, h1, h2]

theorem verdict_layout (v : Verdict) : bytesOf v.fields = v.report := by
  cases v <;> simp [Verdict.fields, Verdict.report, zeros]

theorem extendOutcome_layout (v : ExtendOutcome) : bytesOf v.fields = v.report := by
  cases v <;> simp [ExtendOutcome.fields, ExtendOutcome.report, zeros]

theorem bookingReport_layout (r : Booking) : bookingReport (some r) = bytesOf r.fields := by
  have h1 : ∀ x : BookingState, 1 + [BookingState.pending, .confirmed, .armed, .live, .overrun, .closing, .closed,
      .refused, .cancelled, .expired].idxOf x = x.code := by intro x; cases x <;> rfl
  have h2 := enum_layout CutReason.code cutReasons (by intro x; cases x <;> rfl)
  have h3 := fun w => bytesOf_optFields (f := fun a : DestAccount => [((4, a.secondDrops) : Field), (4, a.totalDrops)])
    (g := DestAccount.drops) (fun a => by simp [DestAccount.drops]) w
  simp [bookingReport, Booking.fields, h1, h2, h3, terms_layout, second_layout, bytesOf_flatMap, legStatus_layout,
    bytesOf_optFields verdict_layout, bytesOf_optFields extendOutcome_layout,
    bytesOf_optFields (merge_layout r.backup.isSome), bytesOf_varFields (outageState_layout r.backup.isSome r.dests),
    mergeWidth]

theorem pattern_layout (k : Pattern) : bytesOf k.fields = k.reference ++ encMask k.mask := by
  have h1 : ∀ l : List Byte, bytesOf (l.map fun x => (1, x.toNat)) = l := by
    intro l
    induction l with
    | nil => rfl
    | cons x xs ih => simp [ih, enc8]
  have h2 : ∀ l : List Bool, enc8 (l.foldl (fun n b => 2 * n + if b then 1 else 0) 0) = [encMarks l] := by
    intro l
    have : (fun (n : Nat) (b : Bool) => 2 * n + if b then 1 else 0) = fun n b => 2 * n + b.toNat := by
      funext n b; cases b <;> rfl
    rw [this]; rfl
  simp [Pattern.fields, h1, List.range_succ, encMask, h2]

theorem patternReport_layout (s : State) (i : PatternIx) : s.patternReport i = bytesOf (s.patternFields i) := by
  simp [State.patternReport, State.patternFields, bytesOf_optFields pattern_layout]

theorem tariff_layout (t : Tariff) : bytesOf t.fields = t.report := by
  have h1 : ∀ x : Rounding, [Rounding.nearestEven, .floor, .ceiling].idxOf x = x.code := by intro x; cases x <;> rfl
  simp [Tariff.fields, Tariff.report, h1]

theorem tariffReport_layout (s : State) (i : TariffIx) :
    s.tariffReport i (s.tariffInUse i) = bytesOf (s.tariffFields i) := by
  have h1 : s.tariffInUse i = decide (∃ b : BookingIx, ∃ r ∈ s.booking b, r.tariff = i) := by
    rw [Bool.eq_iff_iff, State.tariffInUse, State.anyBooking, List.any_eq_true, decide_eq_true_iff]
    constructor
    · rintro ⟨x, hx, h⟩
      obtain ⟨k, hk, rfl⟩ := Vector.mem_iff_getElem.1 (Vector.mem_toList_iff.1 hx)
      obtain ⟨r, hr, e⟩ := (Option.any_eq_true _ _).1 h
      exact ⟨⟨k, hk⟩, r, hr, of_decide_eq_true e⟩
    · rintro ⟨b, r, hr, e⟩
      refine ⟨s.booking b, Vector.mem_toList_iff.2 (Vector.getElem_mem b.isLt), ?_⟩
      rw [Option.mem_def.1 hr]; simpa using e
  simp [State.tariffReport, State.tariffFields, bytesOf_optFields tariff_layout, h1]

theorem waitingPlace_layout (s : State) (n : ProbeNo) : s.probePosition n = waitingPlace n s.probeWaiting := by
  unfold State.probePosition waitingPlace
  induction s.probeWaiting with
  | nil => rfl
  | cons w ws ih =>
    by_cases e : w.number = n
    · simp [List.findIdx?_cons, e]
    · have ih' : (ws.findIdx? fun w => decide (w.number = n)).map (· + 1) =
          if n ∈ ws.map (·.number) then some ((ws.map (·.number)).idxOf n + 1) else none := ih.symm
      have e' : n ≠ w.number := fun x => e x.symm
      have hm : (n ∈ (w :: ws).map (·.number)) ↔ n ∈ ws.map (·.number) := by simp [e']
      have hp : ¬ decide (w.number = n) = true := by simpa using e
      rw [List.findIdx?_cons, if_neg hp, ih', if_congr hm rfl rfl, List.map_cons, List.idxOf_cons_ne _ e]
      by_cases h : n ∈ ws.map (·.number)
      · rw [if_pos h, if_pos h]; rfl
      · rw [if_neg h, if_neg h]; rfl

theorem probeAnswer_layout (s : State) (n : ProbeNo) (joined : Bool) :
    s.probeAnswer n joined = bytesOf (s.probeFields n joined) := by
  have h1 := bytesOf_optFields (f := fun n : Nat => [((1, n) : Field)]) (g := enc8) (fun n => by simp) 1
  have h2 : ∀ b : Bool, enc8 b.toNat = encBool b := by intro b; cases b <;> rfl
  simp [State.probeAnswer, State.probeFields, h1, h2, waitingPlace_layout]

theorem probeResult_layout (x : ProbeResult) : bytesOf x.fields = x.report := by
  have h1 := bytesOf_optFields (f := fun n : Nat => [((2, n) : Field)]) (g := enc16) (fun n => by simp) 2
  have h2 : ∀ x : ProbeOutcome, [ProbeOutcome.brk, .noBreak, .liveFibre, .aborted, .timeout].idxOf x = x.code := by
    intro x; cases x <;> rfl
  have h3 := bytesOf_listFields (f := fun k : KeptPeak => [((2, k.distance) : Field), (2, k.amplitude)])
    (g := KeptPeak.report) (fun k => by simp [KeptPeak.report])
  simp [ProbeResult.fields, ProbeResult.report, h1, h2, h3]

theorem phase_layout (x : Phase) : bigEndian x.field.1 x.field.2 = enc8 x.code := by
  cases x <;> simp [Phase.field, Phase.code, zeros]

theorem probePortReport_layout (s : State) (p : PortIx) : s.probePortReport p = bytesOf (s.probePortFields p) := by
  have h1 : ∀ x : Port, encBool (decide (x.link = .down)) = enc8 (lightCode x) := by
    intro x; cases h : x.link <;> simp [lightCode, Port.lit, h, encBool]
  have h2 : ∀ o : Option (List Field), bytesOf (optFields 6 o) = encOpt 6 (fun l => l) (o.map bytesOf) := by
    intro o; cases o <;> simp [optFields, encOpt, zeros]
  have h3 := bytesOf_optFields (f := fun n : Nat => [((1, n) : Field)]) (g := enc8) (fun n => by simp) 1
  have h4 : ∀ x : Phase, bytesOf (optFields 1 (some [x.field])) = encEnum Phase.code (some x) := by
    intro x; simp [optFields, encEnum, encOpt, phase_layout]
  have h5 : bytesOf (optFields 1 none) = encEnum Phase.code none := by simp [optFields, encEnum, encOpt, zeros]
  have h6 : bytesOf (optFields 1 none) = encOpt 1 enc8 none := by simp [optFields, encOpt, zeros]
  have h7 : ∀ o : Option WaitingProbe, (o.map fun w => enc8 w.number.val ++ enc8 1 ++ encEnum Phase.code none ++
      encOpt 1 enc8 (waitingPlace w.number s.probeWaiting)) = (o.map fun w =>
      [((1, w.number.val) : Field), (1, 1)] ++ optFields 1 none ++
        optFields 1 ((s.probePosition w.number).map fun k => [(1, k)])).map bytesOf := by
    intro o; cases o <;> simp [h5, h3, waitingPlace_layout, -enc8_one]
  have h8 : s.portProbe p = (((s.flight.filter fun f => decide (f.port = p)).map fun f =>
      [((1, f.number.val) : Field), (1, 0)] ++ optFields 1 (some [f.phase.field]) ++ optFields 1 none).or
      ((s.probeWaiting.find? fun w => decide (w.port = p)).map fun w =>
        [((1, w.number.val) : Field), (1, 1)] ++ optFields 1 none ++
          optFields 1 ((s.probePosition w.number).map fun k => [(1, k)]))).map bytesOf := by
    unfold State.portProbe State.probeOf State.underProbe
    cases hf : s.flight with
    | none => simpa [Option.map_map, Function.comp_def] using h7 _
    | some f =>
      by_cases e : f.port = p
      · simp [e, h4, h6, zeros, Option.filter]
      · simpa [e, Option.map_map, Function.comp_def, Option.filter] using h7 _
  simp only [State.probePortReport, State.probePortFields, bytesOf_append, bytesOf_varFields probeResult_layout, h2, h8]
  simp [h1, State.fitted]

theorem probeAllReport_layout (s : State) : s.probeAllReport = bytesOf s.probeAllFields := by
  have h1 := bytesOf_listFields (f := fun g : Segment =>
      [((2, g.first) : Field), (2, g.last), (1, g.exponent), (1, g.shadow), (2, g.threshold)])
    (g := Segment.report) (fun g => by simp [Segment.report])
  have h2 := bytesOf_listFields (f := fun w : WaitingProbe => [((1, w.number.val) : Field), (1, w.port.val)])
    (g := fun w => enc8 w.number.val ++ enc8 w.port.val) (fun w => by simp)
  have h3 := bytesOf_optFields (f := fun f : Flight => [((1, f.number.val) : Field), (1, f.port.val), f.phase.field])
    (g := fun f => enc8 f.number.val ++ enc8 f.port.val ++ enc8 f.phase.code) (fun f => by simp [phase_layout])
  simp [State.probeAllReport, State.probeAllFields, ProbeConfig.report, h1, h2, h3]

theorem scope_layout (x : Scope) : bytesOf x.fields = x.report := by
  have h1 : ∀ l : LegId, [LegId.main, .backup].idxOf l = legCode l := by intro x; cases x <;> rfl
  cases x <;> simp [Scope.fields, Scope.report, zeros, h1]

theorem counterReport_layout (s : State) (i : CounterIx) : bytesOf (s.counterFields i) = s.counterReport i := by
  have h1 : ∀ x : WatchKind, [WatchKind.rxFrames, .rxBadCheck, .rxUnbooked, .forwarded, .policerDrops, .redundant,
      .mergeGaps, .egressDrops, .legSilentEntries, .outageSeconds, .liveBookings].idxOf x = x.code := by
    intro x; cases x <;> rfl
  have h2 : ∀ x : WatchAction, [WatchAction.none, .excludeLeg, .probePort].idxOf x = x.code := by
    intro x; cases x <;> rfl
  have h3 : ∀ a b : Bool, decide (¬ (a = true ∧ b = true)) = !(a && b) := by decide
  simp only [State.counterFields, State.counterReport, State.halted, h3]
  simp [Counter.settings, FrameBits.report, scope_layout, h1, h2]

theorem watchReport_layout (s : State) (which : List CounterIx) :
    s.watchReport which = bytesOf (s.watchFields which) := by
  have h1 := bytesOf_listFields (counterReport_layout s) which
  simpa [State.watchReport, State.watchFields] using h1.symm

theorem capture_layout (c : Capture) : bytesOf c.fields = c.report := by
  have h1 := enum_layout legCode [.main, .backup] (by intro x; cases x <;> rfl)
  have h2 := bytesOf_optFields (f := fun p : PortIx => [((1, p.val) : Field)]) (g := fun p => enc8 p.val)
    (fun p => by simp) 1
  have h3 := bytesOf_optFields (f := fun p : BookingIx => [((1, p.val) : Field)]) (g := fun p => enc8 p.val)
    (fun p => by simp) 1
  simp [Capture.fields, Capture.report, h1, h2, h3]

theorem faultReport_layout (s : State) : s.faultReport = bytesOf s.faultFields := by
  have h1 : ∀ l : List Bool, bytesOf (l.map flagField) = l.flatMap encBool := by
    intro l
    induction l with
    | nil => rfl
    | cons x xs ih => simp [ih]
  simp [State.faultReport, State.faultFields, h1, bytesOf_optFields capture_layout]

theorem bill_layout (x : Bill) : bytesOf x.fields = x.report := by
  have h1 : ∀ x : BillKind, [BillKind.completed, .cut, .lateCancel].idxOf x = x.code := by intro x; cases x <;> rfl
  have h2 : ∀ x : CutReason, cutReasons.idxOf x = x.code := by intro x; cases x <;> rfl
  have h3 : ∀ x : Attribution, [Attribution.network, .venue, .unknown, .pending].idxOf x = x.code := by
    intro x; cases x <;> rfl
  have h4 := bytesOf_listFields (f := fun o : BillOutage =>
      [((4, o.start) : Field), (4, o.finish.getD 0), (4, o.seconds),
       enumField o.attribution [.network, .venue, .unknown, .pending], flagField o.merged] ++ breakFields o.brk)
    (g := BillOutage.report) (fun o => by simp [BillOutage.report, h3, break_layout])
  have h5 := bytesOf_listFields (f := fun l : BillLine =>
      [((1, l.port.val) : Field), (4, l.deliveredLive), (4, l.deliveredOver)] ++ l.bandLive.fields ++ l.bandOver.fields ++
        [(4, l.charge), flagField l.creditClamped, flagField l.saturated])
    (g := BillLine.report) (fun l => by simp [BillLine.report, bands_layout])
  simp only [Bill.fields, bytesOf_append, h4, h5, second_layout]
  simp [Bill.report, h1, h2]

theorem billReport_layout (s : State) :
    s.billReport = bytesOf ([(1, s.bills.length), (1, s.billWaiting.length)] ++ varFields (s.bills.head?.map Bill.fields)) := by
  simp [State.billReport, bytesOf_varFields bill_layout]

end Sys2Proof.Machine
end

