-- ==== Sys2Proof/Laws/PerInstr.lean ====
section
/-! SUPPORT. A law of the commands as syntax, one lemma per constructor: a request's code stands in the table of section
11.3
and lies where the codes of requests lie (R168). -/

namespace Sys2Proof.Laws.RequestCode

/-- A command that carries a request code carries one of the table of section 11.3, and it lies below 128, where the
codes of requests lie (R168). -/
def Statement (i : Instr) : Prop := ∀ code, i.requestCode = some code → code ∈ knownRequestCodes ∧ code < 128

theorem powerOn (straps : Straps) : Statement (.powerOn straps) := by
  intro code h; cases h
theorem secondBoundary (m : Moment) : Statement (.secondBoundary m) := by
  intro code h; cases h
theorem lightLost (m : Moment) (p : PortIx) : Statement (.lightLost m p) := by
  intro code h; cases h
theorem lightReturns (m : Moment) (p : PortIx) : Statement (.lightReturns m p) := by
  intro code h; cases h
theorem frameReceived (m : Moment) (p : PortIx) (bytes : List Byte) : Statement (.frameReceived m p bytes) := by
  intro code h; cases h
theorem slotStart (m : Moment) (p : PortIx) : Statement (.slotStart m p) := by
  intro code h; cases h
theorem transmitterPasses (m : Moment) : Statement (.transmitterPasses m) := by
  intro code h; cases h
theorem silenceTimerExpiry (m : Moment) (b : BookingIx) (leg : LegId) : Statement (.silenceTimerExpiry m b leg) := by
  intro code h; cases h
theorem identTimeoutExpiry (m : Moment) (b : BookingIx) (leg : LegId) : Statement (.identTimeoutExpiry m b leg) := by
  intro code h; cases h
theorem phaseTimerExpiry (m : Moment) : Statement (.phaseTimerExpiry m) := by
  intro code h; cases h
theorem traceDelivered (m : Moment) (trace : Trace) : Statement (.traceDelivered m trace) := by
  intro code h; cases h
theorem admissionCompletion (m : Moment) : Statement (.admissionCompletion m) := by
  intro code h; cases h
theorem unknownRequestCode (r : Req) (code : Nat) : Statement (.unknownRequestCode r code) := by
  intro code h; cases h
theorem identify (r : Req) (body : Body Unit) : Statement (.identify r body) := by
  intro code h; cases h; decide
theorem restart (r : Req) (body : Body Unit) : Statement (.restart r body) := by
  intro code h; cases h; decide
theorem noticeSet (r : Req) (body : Body Nat) : Statement (.noticeSet r body) := by
  intro code h; cases h; decide
theorem timeSet (r : Req) (body : Body TimeSetArgs) : Statement (.timeSet r body) := by
  intro code h; cases h; decide
theorem timeRead (r : Req) (body : Body Unit) : Statement (.timeRead r body) := by
  intro code h; cases h; decide
theorem portSet (r : Req) (body : Body PortSetArgs) : Statement (.portSet r body) := by
  intro code h; cases h; decide
theorem portRead (r : Req) (body : Body Nat) : Statement (.portRead r body) := by
  intro code h; cases h; decide
theorem book (r : Req) (body : Body BookArgs) : Statement (.book r body) := by
  intro code h; cases h; decide
theorem cancel (r : Req) (body : Body Nat) : Statement (.cancel r body) := by
  intro code h; cases h; decide
theorem close (r : Req) (body : Body Nat) : Statement (.close r body) := by
  intro code h; cases h; decide
theorem extend (r : Req) (body : Body ExtendArgs) : Statement (.extend r body) := by
  intro code h; cases h; decide
theorem mode (r : Req) (body : Body ModeArgs) : Statement (.mode r body) := by
  intro code h; cases h; decide
theorem bookingRead (r : Req) (body : Body Nat) : Statement (.bookingRead r body) := by
  intro code h; cases h; decide
theorem patternSet (r : Req) (body : Body PatternSetArgs) : Statement (.patternSet r body) := by
  intro code h; cases h; decide
theorem patternRead (r : Req) (body : Body Nat) : Statement (.patternRead r body) := by
  intro code h; cases h; decide
theorem tariffSet (r : Req) (body : Body TariffSetArgs) : Statement (.tariffSet r body) := by
  intro code h; cases h; decide
theorem tariffRead (r : Req) (body : Body Nat) : Statement (.tariffRead r body) := by
  intro code h; cases h; decide
theorem probe (r : Req) (body : Body Nat) : Statement (.probe r body) := by
  intro code h; cases h; decide
theorem probeRead (r : Req) (body : Body (Option Nat)) : Statement (.probeRead r body) := by
  intro code h; cases h; decide
theorem probeConfig (r : Req) (body : Body ProbeConfigArgs) : Statement (.probeConfig r body) := by
  intro code h; cases h; decide
theorem watchSet (r : Req) (body : Body WatchSetArgs) : Statement (.watchSet r body) := by
  intro code h; cases h; decide
theorem watchRead (r : Req) (body : Body (Option Nat)) : Statement (.watchRead r body) := by
  intro code h; cases h; decide
theorem watchUnfreeze (r : Req) (body : Body Unit) : Statement (.watchUnfreeze r body) := by
  intro code h; cases h; decide
theorem faultRead (r : Req) (body : Body Unit) : Statement (.faultRead r body) := by
  intro code h; cases h; decide
theorem faultClear (r : Req) (body : Body (List Nat)) : Statement (.faultClear r body) := by
  intro code h; cases h; decide
theorem faultMask (r : Req) (body : Body (Vector Bool 14)) : Statement (.faultMask r body) := by
  intro code h; cases h; decide
theorem billRead (r : Req) (body : Body Unit) : Statement (.billRead r body) := by
  intro code h; cases h; decide
theorem billRelease (r : Req) (body : Body Nat) : Statement (.billRelease r body) := by
  intro code h; cases h; decide

end Sys2Proof.Laws.RequestCode
end

