-- ==== Sys2Proof/Laws/Requests.lean ====
section
/-! SUPPORT. Each request, taken, keeps the laws of the state; so do a received frame and power-on. -/

namespace Sys2Proof.Machine
open Sys2Proof.Config

/-! ## One request -/

/-- The first check that does not fail leaves every check passed. -/
theorem firstFailing_none {l : List (Bool × Result)} : firstFailing l = none ↔ ∀ x ∈ l, x.1 = false := by
  simp [firstFailing]

theorem checked_inv {c : Option Result} {s : State} {a : Answer} (k : s.Inv) (h : c = none → a.state.Inv) :
    (checked c s a).state.Inv := by
  cases c with
  | none => exact h rfl
  | some r => exact k

theorem inv_takeRequest {α : Type} {r : Req} {code : Nat} {body : Body α} {act : α → State → Answer} {s : State}
    (k : s.Inv) (h : ∀ a, (act a s).state.Inv) : (s.takeRequest r code body act).Inv := by
  unfold State.takeRequest
  split
  · exact k
  · split
    · exact (later_respond ..).inv k
    · next a =>
      split
      · exact (later_respond ..).inv k
      · exact (later_respond ..).inv (h a)

/-! ## Device, time and ports -/

theorem inv_reqUnknownRequestCode {s : State} (k : s.Inv) (r : Req) (code : Nat) :
    (reqUnknownRequestCode r code s).Inv := by
  unfold reqUnknownRequestCode
  split
  · exact k
  · exact inv_takeRequest k fun _ => k

theorem inv_reqIdentify {s : State} (k : s.Inv) (r : Req) (body : Body Unit) : (reqIdentify r body s).Inv :=
  inv_takeRequest k fun _ => ⟨k.control, k.media, k.admission, k.probe, k.bill, k.flow, k.operator⟩

theorem inv_reqRestart {s : State} (k : s.Inv) (r : Req) (body : Body Unit) : (reqRestart r body s).Inv :=
  inv_takeRequest k fun _ => checked_inv k fun _ => (later_abortAll ..).inv
    ⟨k.control, k.media, k.admission, k.probe, k.bill, k.flow, k.operator⟩

theorem inv_reqNoticeSet {s : State} (k : s.Inv) (r : Req) (body : Body Nat) : (reqNoticeSet r body s).Inv :=
  inv_takeRequest k fun _ => checked_inv k fun _ =>
    ⟨k.control, k.media, k.admission, k.probe, k.bill, k.flow, k.operator⟩

theorem inv_reqTimeSet {s : State} (k : s.Inv) (r : Req) (body : Body TimeSetArgs) : (reqTimeSet r body s).Inv :=
  inv_takeRequest k fun _ => checked_inv k fun _ =>
    ⟨k.control, k.media, k.admission, k.probe, k.bill, k.flow, k.operator⟩

theorem inv_reqTimeRead {s : State} (k : s.Inv) (r : Req) (body : Body Unit) : (reqTimeRead r body s).Inv :=
  inv_takeRequest k fun _ => k

/-- The laws but that of the media queues of port `p`, which PORT SET breaks before it empties them. -/
theorem inv_writePort {s : State} (k : s.Inv) (m : Moment) (p : PortIx) (a : PortSetArgs)
    (ho : (s.setPort p (PortSetArgs.apply a (s.port p))).OperatorInv) : (s.writePort m p a).Inv := by
  have hc := k.control p
  have hm := k.media p
  dsimp only [State.writePort]
  split
  · have hu : Later (s.setPort p (PortSetArgs.apply a (s.port p)))
        ((s.setPort p (PortSetArgs.apply a (s.port p))).emptyMedia m p) := later_emptyMedia ..
    refine (later_endProbeOf m p .aborted _).inv ?_
    have hq : ∀ q, q ≠ p → (s.setPort p (PortSetArgs.apply a (s.port p))).port q = s.port q := by
      intro q e; simp [e]
    exact {
      control := hu.controlInv fun q => by
        by_cases e : q = p
        · subst e; simpa [PortSetArgs.apply] using hc
        · rw [hq q e]; exact k.control q
      media := fun q => by
        by_cases e : q = p
        · subst e; exact emptyMedia_mediaOk ..
        · exact hu.mediaOk q (by rw [hq q e]; exact k.media q)
      admission := by have := k.admission; simp only [State.AdmissionInv, hu.scan, hu.waiting]; exact this
      probe := hu.probeInv k.probe
      bill := hu.billInv k.bill
      flow := by
        have e := hu.flowKeys
        simp only [State.flowKeys] at e
        simp only [State.FlowInv, e]; exact k.flow
      operator := by obtain ⟨q, h⟩ := ho; exact ⟨q, by rw [hu.cls q]; exact h⟩ }
  · next h =>
    refine inv_setPort k hc ⟨hm.1, hm.2.1, fun x => hm.2.2 ?_⟩ ho
    rcases x with x | x
    · exact .inl x
    · refine .inr (Classical.not_not.1 fun y => h ⟨?_, y⟩)
      simpa using x

/-- What PORT SET's checks leave: an OPERATOR port remains (R43). -/
theorem checkPortSet_operator {s : State} {a : PortSetArgs} (h : checkPortSet a s = none) :
    (s.setPort (portIx a.port) (PortSetArgs.apply a (s.port (portIx a.port)))).OperatorInv := by
  rw [checkPortSet, firstFailing_none] at h
  have h4 := h (s.losesOperator a, .state) (by simp)
  simp only [State.losesOperator, Bool.and_eq_false_iff, decide_eq_false_iff_not, not_not] at h4
  rcases h4 with h4 | h4
  · exact ⟨portIx a.port, by simp [PortSetArgs.apply, h4, ControlClass.code, ControlClass.ofCode]⟩
  · simp only [List.all_eq_false, Bool.or_eq_true, decide_eq_true_eq, not_or, not_not] at h4
    obtain ⟨q, _, hq, ho⟩ := h4
    exact ⟨q, by simpa [hq] using ho⟩

theorem inv_reqPortSet {s : State} (k : s.Inv) (r : Req) (body : Body PortSetArgs) : (reqPortSet r body s).Inv :=
  inv_takeRequest k fun a => checked_inv k fun h =>
    inv_writePort k r.m (portIx a.port) a (checkPortSet_operator h)

theorem inv_reqPortRead {s : State} (k : s.Inv) (r : Req) (body : Body Nat) : (reqPortRead r body s).Inv :=
  inv_takeRequest k fun _ => checked_inv k fun _ => k

/-! ## Bookings -/

theorem inv_reqBook {s : State} (k : s.Inv) (r : Req) (body : Body BookArgs) : (reqBook r body s).Inv :=
  inv_takeRequest k fun a => checked_inv k fun h => by
    rw [checkBook, firstFailing_none] at h
    exact inv_handEntry (inv_setBooking k _ _) (h (s.admissionFull, .busy) (by simp)) _

theorem inv_cancelBooking {s : State} (k : s.Inv) (b : BookingIx) (r : Booking) : (s.cancelBooking b r).state.Inv := by
  unfold State.cancelBooking
  split
  · exact inv_setBooking k _ _
  · split
    · exact (later_settleBooking ..).inv (inv_setBooking k _ _)
    · exact inv_freeBooking k _
  all_goals first | exact inv_setBooking k _ _ | exact k

theorem inv_reqCancel {s : State} (k : s.Inv) (r : Req) (body : Body Nat) : (reqCancel r body s).Inv :=
  inv_takeRequest k fun a => checked_inv k fun _ => by
    split
    · exact inv_cancelBooking k _ _
    · exact k

theorem inv_updBooking {s : State} (k : s.Inv) (b : BookingIx) (f : Booking → Booking) : (s.updBooking b f).Inv := by
  unfold State.updBooking
  split
  · exact k
  · exact inv_setBooking k _ _

theorem inv_reqClose {s : State} (k : s.Inv) (r : Req) (body : Body Nat) : (reqClose r body s).Inv :=
  inv_takeRequest k fun _ => checked_inv k fun _ => inv_updBooking k _ _

theorem inv_reqExtend {s : State} (k : s.Inv) (r : Req) (body : Body ExtendArgs) : (reqExtend r body s).Inv :=
  inv_takeRequest k fun a => checked_inv k fun h => by
    rw [checkExtend, firstFailing_none] at h
    split
    · exact inv_handEntry (inv_setBooking k _ _) (h (s.admissionFull, .busy) (by simp)) _
    · exact k

theorem inv_reqMode {s : State} (k : s.Inv) (r : Req) (body : Body ModeArgs) : (reqMode r body s).Inv :=
  inv_takeRequest k fun a => checked_inv k fun _ => by
    split
    · exact (later_judge ..).inv (inv_setBooking k _ _)
    · exact k

theorem inv_reqBookingRead {s : State} (k : s.Inv) (r : Req) (body : Body Nat) : (reqBookingRead r body s).Inv :=
  inv_takeRequest k fun a => checked_inv k fun _ => by
    show (if _ then _ else _ : State).Inv
    split
    · exact inv_freeBooking k _
    · exact k

/-! ## Tables -/

theorem inv_reqPatternSet {s : State} (k : s.Inv) (r : Req) (body : Body PatternSetArgs) :
    (reqPatternSet r body s).Inv :=
  inv_takeRequest k fun _ => checked_inv k fun _ =>
    ⟨k.control, k.media, k.admission, k.probe, k.bill, k.flow, k.operator⟩

theorem inv_reqPatternRead {s : State} (k : s.Inv) (r : Req) (body : Body Nat) : (reqPatternRead r body s).Inv :=
  inv_takeRequest k fun _ => checked_inv k fun _ => k

theorem inv_reqTariffSet {s : State} (k : s.Inv) (r : Req) (body : Body TariffSetArgs) : (reqTariffSet r body s).Inv :=
  inv_takeRequest k fun _ => checked_inv k fun _ =>
    ⟨k.control, k.media, k.admission, k.probe, k.bill, k.flow, k.operator⟩

theorem inv_reqTariffRead {s : State} (k : s.Inv) (r : Req) (body : Body Nat) : (reqTariffRead r body s).Inv :=
  inv_takeRequest k fun _ => checked_inv k fun _ => k

theorem inv_reqProbe {s : State} (k : s.Inv) (r : Req) (body : Body Nat) : (reqProbe r body s).Inv :=
  inv_takeRequest k fun a => checked_inv k fun _ => (later_probeRequest (portIx a) s).inv k

theorem inv_reqProbeRead {s : State} (k : s.Inv) (r : Req) (body : Body (Option Nat)) : (reqProbeRead r body s).Inv :=
  inv_takeRequest k fun _ => checked_inv k fun _ => k

theorem inv_reqProbeConfig {s : State} (k : s.Inv) (r : Req) (body : Body ProbeConfigArgs) :
    (reqProbeConfig r body s).Inv :=
  inv_takeRequest k fun _ => checked_inv k fun _ =>
    ⟨k.control, k.media, k.admission, k.probe, k.bill, k.flow, k.operator⟩

theorem inv_reqWatchSet {s : State} (k : s.Inv) (r : Req) (body : Body WatchSetArgs) : (reqWatchSet r body s).Inv :=
  inv_takeRequest k fun _ => checked_inv k fun _ => (later_setCounter ..).inv k

theorem inv_reqWatchRead {s : State} (k : s.Inv) (r : Req) (body : Body (Option Nat)) : (reqWatchRead r body s).Inv :=
  inv_takeRequest k fun _ => checked_inv k fun _ => k

theorem inv_reqWatchUnfreeze {s : State} (k : s.Inv) (r : Req) (body : Body Unit) : (reqWatchUnfreeze r body s).Inv :=
  inv_takeRequest k fun _ => checked_inv k fun _ =>
    ⟨k.control, k.media, k.admission, k.probe, k.bill, k.flow, k.operator⟩

theorem inv_reqFaultRead {s : State} (k : s.Inv) (r : Req) (body : Body Unit) : (reqFaultRead r body s).Inv :=
  inv_takeRequest k fun _ => ⟨k.control, k.media, k.admission, k.probe, k.bill, k.flow, k.operator⟩

theorem inv_reqFaultClear {s : State} (k : s.Inv) (r : Req) (body : Body (List Nat)) : (reqFaultClear r body s).Inv :=
  inv_takeRequest k fun _ => checked_inv k fun _ =>
    ⟨k.control, k.media, k.admission, k.probe, k.bill, k.flow, k.operator⟩

theorem inv_reqFaultMask {s : State} (k : s.Inv) (r : Req) (body : Body (Vector Bool 14)) :
    (reqFaultMask r body s).Inv :=
  inv_takeRequest k fun _ => checked_inv k fun _ =>
    ⟨k.control, k.media, k.admission, k.probe, k.bill, k.flow, k.operator⟩

theorem inv_reqBillRead {s : State} (k : s.Inv) (r : Req) (body : Body Unit) : (reqBillRead r body s).Inv :=
  inv_takeRequest k fun _ => k

/-- The head bill removed and a waiting bill moved up keep the billing queue's law. -/
theorem inv_releaseBill {s : State} (k : s.Inv) (b : BookingIx) (h : s.bills ≠ []) : (s.releaseBill b).Inv := by
  obtain ⟨h1, h2, h3⟩ := k.bill
  obtain ⟨x, t, e⟩ := List.exists_cons_of_ne_nil h
  rw [e] at h1 h2 h3
  simp only [List.length_cons, List.cons_append, List.forall_mem_cons] at h1 h2 h3
  have hf : ∀ bl w : List Bill, State.BillInv { s with bills := bl, billWaiting := w } →
      (State.freeBooking b { s with bills := bl, billWaiting := w }).Inv := fun bl w hb =>
    inv_freeBooking (s := { s with bills := bl, billWaiting := w })
      ⟨k.control, k.media, k.admission, k.probe, hb, k.flow, k.operator⟩ b
  unfold State.releaseBill State.promoteBill
  have hw : (State.freeBooking b { s with bills := s.bills.tail }).billWaiting = s.billWaiting := rfl
  rw [hw]
  split
  · next hw =>
    have := hf s.bills.tail s.billWaiting ⟨by simp [e]; omega, by simp [hw], by simpa [e, hw] using h3.2⟩
    exact this
  · next y rest hw =>
    rw [hw] at h2 h3
    simp only [ne_eq, reduceCtorEq, not_false_eq_true, forall_true_left] at h2
    have := hf (t ++ [y]) rest ⟨by simp; omega, fun _ => by simp; omega, by simpa using h3.2⟩
    refine (later_closeBooking y.booking _).inv ?_
    have e2 : ({ (State.freeBooking b { s with bills := s.bills.tail }) with
        bills := (State.freeBooking b { s with bills := s.bills.tail }).bills ++ [y], billWaiting := rest } : State) =
        State.freeBooking b { s with bills := t ++ [y], billWaiting := rest } := by
      have : (State.freeBooking b { s with bills := s.bills.tail }).bills = t := by
        show s.bills.tail = t
        rw [e]; rfl
      rw [this]; rfl
    rw [e2]; exact this

theorem inv_reqBillRelease {s : State} (k : s.Inv) (r : Req) (body : Body Nat) : (reqBillRelease r body s).Inv :=
  inv_takeRequest k fun a => checked_inv k fun h => by
    rw [checkBillRelease, firstFailing_none] at h
    have := h (!(s.bills.head?.any fun x => decide (x.booking.val = a)), .state) (by simp)
    refine inv_releaseBill k _ fun e => ?_
    simp [e] at this

/-! ## Frames -/

theorem inv_takeCommand {s : State} (k : s.Inv) (c : Instr) : (s.takeCommand c).Inv := by
  cases c with
  | unknownRequestCode r code => exact inv_reqUnknownRequestCode k r code
  | identify r b => exact inv_reqIdentify k r b
  | restart r b => exact inv_reqRestart k r b
  | noticeSet r b => exact inv_reqNoticeSet k r b
  | timeSet r b => exact inv_reqTimeSet k r b
  | timeRead r b => exact inv_reqTimeRead k r b
  | portSet r b => exact inv_reqPortSet k r b
  | portRead r b => exact inv_reqPortRead k r b
  | book r b => exact inv_reqBook k r b
  | cancel r b => exact inv_reqCancel k r b
  | close r b => exact inv_reqClose k r b
  | extend r b => exact inv_reqExtend k r b
  | mode r b => exact inv_reqMode k r b
  | bookingRead r b => exact inv_reqBookingRead k r b
  | patternSet r b => exact inv_reqPatternSet k r b
  | patternRead r b => exact inv_reqPatternRead k r b
  | tariffSet r b => exact inv_reqTariffSet k r b
  | tariffRead r b => exact inv_reqTariffRead k r b
  | probe r b => exact inv_reqProbe k r b
  | probeRead r b => exact inv_reqProbeRead k r b
  | probeConfig r b => exact inv_reqProbeConfig k r b
  | watchSet r b => exact inv_reqWatchSet k r b
  | watchRead r b => exact inv_reqWatchRead k r b
  | watchUnfreeze r b => exact inv_reqWatchUnfreeze k r b
  | faultRead r b => exact inv_reqFaultRead k r b
  | faultClear r b => exact inv_reqFaultClear k r b
  | faultMask r b => exact inv_reqFaultMask k r b
  | billRead r b => exact inv_reqBillRead k r b
  | billRelease r b => exact inv_reqBillRelease k r b
  | powerOn _ => exact k
  | secondBoundary _ => exact k
  | lightLost _ _ => exact k
  | lightReturns _ _ => exact k
  | frameReceived _ _ _ => exact k
  | slotStart _ _ => exact k
  | transmitterPasses _ => exact k
  | silenceTimerExpiry _ _ _ => exact k
  | identTimeoutExpiry _ _ _ => exact k
  | phaseTimerExpiry _ => exact k
  | traceDelivered _ _ => exact k
  | admissionCompletion _ => exact k

theorem inv_receive {s : State} (k : s.Inv) (m : Moment) (p : PortIx) (bytes : List Byte) :
    (s.receive m p bytes).Inv := by
  have hm := k.media p
  unfold State.receive
  split
  · split
    · dsimp only [State.malformed]
      have h1 : (s.setPort p (s.port p).badCheck).Inv :=
        inv_setPort k (k.control p) ⟨hm.1, hm.2.1, hm.2.2⟩ (operator_setPort k.operator rfl)
      refine (later_watch ..).inv ?_
      split
      · exact inv_enterLof h1 m p
      · exact h1
    · next f _ =>
      have h1 : (s.setPort p (s.port p).goodFrame).Inv := by
        refine inv_setPort k ?_ ?_ (operator_setPort k.operator ?_)
        · have := k.control p
          unfold Port.goodFrame; split <;> exact this
        · unfold Port.goodFrame
          split
          · next ha =>
            have := hm.2.2 (.inl (by simp [ha]))
            exact ⟨hm.1, hm.2.1, fun _ => this⟩
          · exact hm
        · unfold Port.goodFrame; split <;> rfl
      dsimp only [State.goodFrame]
      have h2 := (later_watch m (frameEvent .rxFrames p none (headerBits bytes) 1) _).inv h1
      generalize placeOf f.kind (s.port p).link (s.port p).role = place
      generalize State.watch m _ _ = t at h2 ⊢
      unfold State.deliverFrame
      split
      · exact h2
      · unfold State.controlFrameIn
        split
        · exact h2
        · split
          · exact h2
          · exact inv_takeCommand ((later_takeEarly ..).inv h2) _
      · split
        · exact (later_identAtFlow ..).inv h2
        · exact (later_mediaFrame ..).inv h2
  · exact k

/-! ## Power-on -/

theorem powerOn_inv (straps : Straps) (l : List Instr) : (State.powerOn straps l).Inv := by
  have hp : ∀ p : PortIx, (State.powerOn straps l).port p = Port.initial ∨
      (State.powerOn straps l).port p = { Port.initial with cls := .operator } := by
    intro p
    by_cases e : straps.opport = p
    · right; subst e; simp [State.powerOn, State.port]
    · left
      have : straps.opport.val ≠ p.val := fun h => e (Fin.ext h)
      simp [State.powerOn, State.port, this]
  refine ⟨fun p => ?_, fun p => ?_, ?_, ?_, ?_, ?_, ⟨straps.opport, by simp [State.powerOn, State.port]⟩⟩
  · rcases hp p with h | h <;> simp [h, Port.initial]
  · rcases hp p with h | h <;> simp [h, Port.initial, Port.MediaOk]
  · simp [State.AdmissionInv, State.powerOn]
  · simp [State.ProbeInv, State.probedPorts, State.powerOn]
  · simp [State.BillInv, State.powerOn]
  · simp [State.FlowInv, State.powerOn]

end Sys2Proof.Machine
end

