-- ==== Sys2Proof/Tests/Slice0.lean ====
section
/-! SUPPORT. The model's own tests. Expected values come from the manual's worked examples and tables, or from a hand
calculation by its rules; each theorem names its source. The `witness_` theorems show, for each statement with
hypotheses, concrete states and operands that meet them, and that the conclusion's values are as the rule gives. -/

namespace Sys2Proof.Tests
set_option Elab.async false
open Sys2Proof Sys2Proof.Machine

/-! ## Fixtures -/

/-- The state an outcome answers. -/
def after (o : Host.Outcome State Fault Refusal) : Option State :=
  match o with
  | .next t => some t
  | .fault _ => none
  | .refused _ => none

/-- A test of the state an outcome answers; false when it answers none. -/
def holds (o : Host.Outcome State Fault Refusal) (test : State → Bool) : Bool := (after o).any test

/-- The payloads waiting in the control queue of a port. -/
def answers (s : State) (p : PortIx) : List (List Byte) := (s.port p).control.map (·.payload)

def now : Moment := .plain

/-- A request on the station's port 0, tag 7. -/
def op : Req := { port := 0, tag := 7, m := now }
/-- A request on the observer's port 5, tag 7. -/
def ob : Req := { port := 5, tag := 7, m := now }
/-- A request on port 9, of class NONE. -/
def no : Req := { port := 9, tag := 7, m := now }

/-- The refusal or acceptance a request on port 0 got: its one response's result, tag and body. -/
def got (s : State) (c : Instr) : Option (List Byte) := (after (exec c s)).bind fun t => (answers t 0).head?

/-- After power-on with NODE 17, OPPORT 0 and every probe fitted. -/
def fresh : State := .powerOn { node := 17, opport := 0, prbfit := 0xFFFF } []

/-- A port in UP with a role. -/
def upPort (role : Role) : Port := { Port.initial with role := role, link := .up, upWhole := true }

/-- Tariff 6 of section 10.6. -/
def tariff6 : Tariff :=
  { price := 1250, multiplier := 24, disc1 := 10, disc2 := 25, disc3 := 50, t1 := 4, t2 := 20, t3 := 100,
    creditFactor := 2, creditUnknown := false, rounding := .nearestEven, lateWindow := 1440, latePercent := 35 }

/-- The pattern whose 32 reference bytes are 5 and whose mask marks the first byte alone. -/
def pattern5 : Pattern := { reference := List.replicate 32 5, mask := true :: List.replicate 31 false }

/-- Ports 1 and 2 VENUE, 3 and 4 TAKER, all UP; 5 an OBSERVER; time set to 1,000; tariff 0 and pattern 0 written. -/
def ready : State :=
  { fresh with
    sec := 1000, timeSet := true
    ports := ((((fresh.ports.set 1 (upPort .venue)).set 2 (upPort .venue)).set 3 (upPort .taker)).set 4
      (upPort .taker)).set 5 { Port.initial with cls := .observer }
    tariffs := fresh.tariffs.set 0 (some tariff6), patterns := fresh.patterns.set 0 (some pattern5) }

/-- A leg that has not armed. -/
def leg (p : PortIx) (label : Nat) : Leg :=
  { port := p, label := label, pattern := none, policy := .none, state := .idle, silenceAt := none, exIdent := false,
    exWatch := false, exManual := false, ident := none, identAt := none }

/-- A booking on legs (1, 10) and (2, 11) and destinations (3, 20) and (4, 21), 2,000 to 5,600, allowance 600. -/
def terms : Booking :=
  { state := .confirmed, customer := 9, tariff := 0, rate := 20, start := 2000, finish := 5600, armLead := 60,
    allowance := 600, mode := .merge, main := leg 1 10, backup := some (leg 2 11),
    dests := [{ port := 3, label := 20, account := none }, { port := 4, label := 21, account := none }],
    closeReq := none, cancelReq := false, extendPending := false, restartClose := false, liveFrom := none,
    liveTo := none, overrunFrom := none, closeSecond := none, cut := none, detail := none, lastExtend := none,
    merge := none, outage := none }

/-- The record in a state. -/
def inState (x : BookingState) : Booking := { terms with state := x }

/-- The booking live since its start, both legs RECEIVING, last_fwd 65,529. -/
def liveBooking : Booking :=
  { terms with
    state := .live, liveFrom := some 2000
    main := { leg 1 10 with state := .receiving, ident := some .notChecked, silenceAt := some 5000000 }
    backup := some { leg 2 11 with state := .receiving, ident := some .notChecked, silenceAt := some 5000000 }
    dests := terms.dests.map fun d => { d with account := some .initial }
    merge := some { MergeState.atArming with lastFwd := some 65529 }, outage := some .initial }

/-- `ready` at second `sec` with record 0 holding `x`. -/
def withBooking (x : Booking) (sec : Nat) : State := { ready with sec := sec, bookings := ready.bookings.set 0 (some x) }

def entry (p : PortIx) (label : Nat) (l : LegId) : FlowEntry :=
  { port := p, label := label, booking := 0, leg := l, rate := 20, tokens := 2000000, lastRefill := 0 }

/-- Record 0 live, with its flow entries. -/
def live : State :=
  { withBooking liveBooking 3000 with flows := [entry 1 10 .main, entry 2 11 .backup] }

/-- The state with every port's control queue full. -/
def full (s : State) : State :=
  { s with ports := s.ports.map fun x => { x with control := List.replicate 16 { payload := [], enqueued := 0 } } }

/-! ## WellFormed: an ill-formed term for each check -/

theorem test_wf_refuses_moment : (Instr.slotStart { now with visits := 257 } 0).wf = false := by decide
theorem test_wf_refuses_amplitude : (Instr.traceDelivered now { probe := 0, measured := .silence 4096 }).wf = false := by decide
theorem test_wf_refuses_samples :
    (Instr.traceDelivered now { probe := 0, measured := .samples [[0, 4096]] }).wf = false := by decide
theorem test_wf_refuses_known_code : (Instr.unknownRequestCode op 24).wf = false := by decide
theorem test_wf_refuses_response_code : (Instr.unknownRequestCode op 128).wf = false := by decide
theorem test_wf_refuses_bytes :
    ((Instr.noticeSet op (some 256)).wf || (Instr.portRead op (some 256)).wf || (Instr.cancel op (some 256)).wf ||
      (Instr.close op (some 256)).wf || (Instr.bookingRead op (some 256)).wf || (Instr.patternRead op (some 256)).wf ||
      (Instr.tariffRead op (some 256)).wf || (Instr.probe op (some 256)).wf ||
      (Instr.billRelease op (some 256)).wf) = false := by decide
theorem test_wf_refuses_named_255 :
    ((Instr.probeRead op (some (some 255))).wf || (Instr.watchRead op (some (some 255))).wf) = false := by decide
theorem test_wf_refuses_time : (Instr.timeSet op (some { sec := 4294967296, ms := 0, idleClose := 30 })).wf = false := by
  decide
theorem test_wf_refuses_port :
    (Instr.portSet op (some { port := 0, role := 0, capacity := 65536, reserve := 0, demarcation := 0, cls := 2,
                              autoProbe := false })).wf = false := by decide
theorem test_wf_refuses_extend : (Instr.extend op (some { index := 0, seconds := 4294967296 })).wf = false := by decide
theorem test_wf_refuses_mode : (Instr.mode op (some { index := 256, mode := 0 })).wf = false := by decide
theorem test_wf_refuses_pattern :
    (Instr.patternSet op (some { target := some { index := 0, reference := [1], mask := [] }, silenceMs := 200,
                                 identTimeout := 10 })).wf = false := by decide
theorem test_wf_refuses_classes : (Instr.faultClear op (some [1, 256])).wf = false := by decide

/-- The BOOK of record 0's terms. -/
def bookArgs : BookArgs :=
  { customer := 9, tariff := 0, rate := 20, start := 2000, finish := 5600, armLead := 60, allowance := 600,
    mode := none, legs := [{ port := 1, label := 10, pattern := none, policy := 0 },
                           { port := 2, label := 11, pattern := some 0, policy := 1 }],
    dests := [{ port := 3, label := 20 }, { port := 4, label := 21 }] }

def tariffArgs : TariffSetArgs :=
  { index := 6, price := 1250, multiplier := 24, disc1 := 10, disc2 := 25, disc3 := 50, t1 := 4, t2 := 20, t3 := 100,
    creditFactor := 2, creditUnknown := false, rounding := 0, lateWindow := 1440, latePercent := 35 }

def probeArgs : ProbeConfigArgs :=
  { segments := [{ first := 0, last := 99, exponent := 7, shadow := 1, threshold := 4095 },
                 { first := 100, last := 115, exponent := 2, shadow := 64, threshold := 200 }],
    silence := 4095, preMs := 16, breakThreshold := 1000, q := 601 }

def watchArgs : WatchSetArgs :=
  { counter := 7, event := 4, scopeKind := 3, scopePort := 0, scopeBooking := 255, scopeLeg := 1, matchLabel := 10,
    matchKind := 1, matchEnd := 0, maskLabel := 4095, maskKind := 255, maskEnd := 1, threshold := 34, edge := true,
    invert := false, notice := true, member := true, action := 1, startValue := 5 }

theorem test_wf_refuses_book : (Instr.book op (some { bookArgs with rate := 65536 })).wf = false := by decide
theorem test_wf_refuses_tariff : (Instr.tariffSet op (some { tariffArgs with disc1 := 256 })).wf = false := by decide
theorem test_wf_refuses_segment :
    (Instr.probeConfig op (some { probeArgs with q := 65536 })).wf = false := by decide
theorem test_wf_refuses_watch : (Instr.watchSet op (some { watchArgs with startValue := 4294967296 })).wf = false := by
  decide
theorem test_wf_accepts :
    ((Instr.book op (some bookArgs)).wf && (Instr.tariffSet op (some tariffArgs)).wf &&
      (Instr.probeConfig op (some probeArgs)).wf && (Instr.watchSet op (some watchArgs)).wf) = true := by decide

/-! ## The wire -/

/-- R47: the check of the nine bytes 49 to 57 is 3,421,780,262. -/
theorem test_frame_check : (crc32 [49, 50, 51, 52, 53, 54, 55, 56, 57]).toNat = 3421780262 := by decide +kernel

/-- Sections 11.2 and 11.3: request payloads written out byte by byte, one for each family of rows. -/
theorem test_payload_identify : Wire.request 0 now [1, 0, 0, 7] = some (.identify op (some ())) := by decide +kernel
theorem test_payload_time_set :
    Wire.request 0 now [8, 0, 0, 7, 0, 1, 0, 2, 3, 231, 0, 0, 0, 30] =
      some (.timeSet op (some { sec := 65538, ms := 999, idleClose := 30 })) := by decide +kernel
theorem test_payload_port_set :
    Wire.request 0 now [16, 0, 0, 7, 5, 2, 3, 192, 0, 20, 20, 80, 1, 1] =
      some (.portSet op (some { port := 5, role := 2, capacity := 960, reserve := 20, demarcation := 5200, cls := 1,
                                autoProbe := true })) := by decide +kernel
theorem test_payload_book :
    Wire.request 0 now
      [24, 0, 0, 7, 0, 9, 0, 0, 20, 0, 0, 7, 208, 0, 0, 21, 224, 0, 0, 0, 60, 0, 0, 2, 88, 0, 0,
       2, 1, 0, 10, 0, 0, 0, 2, 0, 11, 1, 0, 1, 2, 3, 0, 20, 4, 0, 21] = some (.book op (some bookArgs)) := by
  decide +kernel
theorem test_payload_extend :
    Wire.request 0 now [27, 0, 0, 7, 4, 0, 0, 3, 132] = some (.extend op (some { index := 4, seconds := 900 })) := by
  decide +kernel
theorem test_payload_pattern_none :
    Wire.request 0 now [32, 0, 0, 7, 255, 0, 200, 0, 0, 0, 10] =
      some (.patternSet op (some { target := none, silenceMs := 200, identTimeout := 10 })) := by decide +kernel
theorem test_payload_tariff_set :
    Wire.request 0 now [40, 0, 0, 7, 6, 4, 226, 24, 10, 25, 50, 0, 4, 0, 20, 0, 100, 2, 0, 0, 5, 160, 35] =
      some (.tariffSet op (some tariffArgs)) := by decide +kernel
theorem test_payload_probe_all : Wire.request 0 now [49, 0, 0, 7, 255] = some (.probeRead op (some none)) := by
  decide +kernel
theorem test_payload_watch_set :
    Wire.request 0 now
      [56, 0, 0, 7, 7, 4, 3, 0, 255, 1, 0, 10, 1, 0, 15, 255, 255, 1, 0, 0, 0, 34, 1, 0, 1, 1, 1, 0, 0, 0, 5] =
      some (.watchSet op (some watchArgs)) := by decide +kernel
theorem test_payload_fault_clear : Wire.request 0 now [65, 0, 0, 7, 2, 1, 14] = some (.faultClear op (some [1, 14])) := by
  decide +kernel
theorem test_payload_bill_release : Wire.request 0 now [73, 0, 0, 7, 23] = some (.billRelease op (some 23)) := by
  decide +kernel
/-- R171: byte 1 not 0 refuses the form, but the code and tag are read. -/
theorem test_payload_bad_form : Wire.request 0 now [24, 4, 0, 7] = some (.book op none) := by decide +kernel
/-- R168: a payload of fewer than 4 bytes and a code of 128 or more are no request. -/
theorem test_payload_no_request :
    (Wire.request 0 now [1, 0, 0] = none) ∧ Wire.request 0 now [152, 0, 0, 7] = none := by decide +kernel
/-- R175: notices of 18, 19 and 25 bytes. -/
theorem test_notice_lengths :
    (noticePayload .los (.ofPort 3) 1 2 true none).length = 18 ∧
      (noticePayload .watchOverflow .none 1 2 true (some (.watch 1))).length = 19 ∧
      (noticePayload .admission .none 1 2 true (some (.admission true 24 1 57480))).length = 25 := by decide +kernel
/-- No row of the table gives bits (log entry 2). -/
theorem test_no_words : decodeTableWord 8 1 = none ∧ State.reset.withFetchWord 8 1 = State.reset := ⟨rfl, rfl⟩

/-! ## The control channel -/

/-- `ready` during a restart. -/
def restarting : State := { ready with restart := true }
/-- `ready` with port 0 in UP. -/
def lit : State := { ready with ports := ready.ports.set 0 { upPort .off with cls := .operator } }
/-- A bill of booking `b`. -/
def bill (b : BookingIx) : Bill := billOf b { terms with state := .closing, cut := some .closed, closeSecond := some 5601 } tariff6
/-- `s` with the bills of `n` bookings, 1 to `n`, in the queue. -/
def billed (n : Nat) (s : State) : State := { s with bills := (List.range n).map fun i => bill (Fin.ofNat 256 (i + 1)) }
/-- An admission entry that waits. -/
def waits (b : BookingIx) (void : Bool) : AdmissionEntry := { kind := .extend 900 false, booking := b, void := void }
/-- `s` with a scan of record 9 in flight and `n` entries behind it. -/
def busy (n : Nat) (s : State) : State :=
  { s.beginScan { kind := .book, booking := 9, void := false } with waiting := List.replicate n (waits 8 false) }

theorem test_step_runs_front :
    step { fresh with pending := [.slotStart now 0, .slotStart now 1] } =
      exec (.slotStart now 0) { fresh with pending := [.slotStart now 1] } := rfl
theorem witness_StepRunsFrontCommand : fresh.pending = [] ∧ step fresh = .next fresh := ⟨rfl, rfl⟩

/-- Section 11.9, 2.100 and 2.101: node 17, POWER_ON, then NONE. -/
theorem witness_IdentifyReportsTheIdentity :
    (fresh.port op.port).cls ≠ .none ∧
    got fresh (.identify op (some ())) = some [129, 0, 0, 7, 118, 7, 6, 104, 1, 17, 1] ∧
    got { fresh with startCause := .none } (.identify op (some ())) = some [129, 0, 0, 7, 118, 7, 6, 104, 1, 17, 0] ∧
    got { fresh with startCause := .restart } (.identify op (some ())) =
      some [129, 0, 0, 7, 118, 7, 6, 104, 1, 17, 2] := by decide +kernel

/-- R168, section 11.9, 2.300 and 2.601: NONE is discarded, an OBSERVER's PORT SET is refused CLASS. -/
theorem witness_FormAndClassGateRequests :
    (Instr.identify no (some ())).sender = some no ∧ (ready.port no.port).cls = .none ∧
    holds (exec (.identify no (some ())) ready) (fun t => decide (answers t 9 = [] ∧ t.startCause = .powerOn)) = true ∧
    (Instr.noticeSet ob (some 3)).formed = true ∧ (ready.port ob.port).cls = .observer ∧
    holds (exec (.noticeSet ob (some 3)) ready) (fun t => decide (answers t 5 = [[131, 17, 0, 7]])) = true := by
  decide +kernel

/-- R171, section 11.9, 2.800: FORMAT under the received code, from 1 to 127. -/
theorem witness_FormAndClassGateRequests_format :
    (Instr.book op none).formed = false ∧ (ready.port op.port).cls ≠ .none ∧
    got ready (.book op none) = some [152, 16, 0, 7] ∧ got ready (.unknownRequestCode op 127) = some [255, 16, 0, 7] ∧
    got ready (.unknownRequestCode op 0) = some [128, 16, 0, 7] := by decide +kernel

/-- R23, R172: RANGE and TIME_UNSET come before STATE. -/
theorem witness_RestartRefusesChanges :
    (restarting.port op.port).cls = .operator ∧ restarting.restart = true ∧
    got restarting (.restart op (some ())) = some [130, 20, 0, 7] ∧
    got restarting (.noticeSet op (some 16)) = some [131, 18, 0, 7] ∧
    got { restarting with timeSet := false } (.book op (some bookArgs)) = some [152, 19, 0, 7] ∧
    got restarting (.book op (some bookArgs)) = some [152, 20, 0, 7] := by decide +kernel

/-- R173, R56: answered on its own port; a full control queue loses the response with CONTROL_DROP. -/
theorem witness_EveryRequestIsAnswered :
    (Instr.timeRead ob (some ())).sender = some ob ∧ (ready.port ob.port).cls ≠ .none ∧
    holds (exec (.timeRead ob (some ())) ready) (fun t => decide ((answers t 5).length = 1 ∧ answers t 0 = [])) = true ∧
    holds (exec (.timeRead ob (some ())) (full ready))
      (fun t => decide ((answers t 5).length = 16 ∧ t.flags[FaultClass.controlDrop.ix] = true)) = true := by
  decide +kernel

/-- R168: an IDENTIFY frame on a lit port; a frame too short to be a request; one on a port of class NONE. -/
theorem witness_ControlFrameRunsItsRequest :
    (lit.port 0).lit = true ∧ (readFrame (controlFrame [1, 0, 0, 7])).any (fun f => decide (f.kind = .control)) = true ∧
    (lit.port 0).cls ≠ .none ∧ (lit.port 1).cls = .none ∧
    holds (exec (.frameReceived now 0 (controlFrame [1, 0, 0, 7])) lit)
      (fun t => decide (answers t 0 = [[129, 0, 0, 7, 118, 7, 6, 104, 1, 17, 1]] ∧ t.startCause = .none)) = true ∧
    holds (exec (.frameReceived now 0 (controlFrame [1, 0, 0])) lit) (fun t => decide (answers t 0 = [])) = true ∧
    holds (exec (.frameReceived now 1 (controlFrame [1, 0, 0, 7])) lit)
      (fun t => decide (answers t 1 = [] ∧ t.startCause = .powerOn)) = true := by decide +kernel

/-- Counter 0, one below its top, counting RX_FRAMES with a notice. -/
def atTop : Counter := { Counter.initial with event := .rxFrames, notice := true, value := 4294967295 }

/-- R145: a FAULT READ whose own frame raises WATCH_OVERFLOW twice, with both raises before it, one, or none. Each notice
names its counter in its last byte. -/
theorem witness_ControlFrameRunsItsRequest_raises :
    let s := { lit with counters := (lit.counters.set 0 atTop).set 1 atTop, masks := Vector.replicate 14 false }
    let read := fun l => exec (.frameReceived { now with beforeRequest := l } 0 (controlFrame [64, 0, 0, 7])) s
    let lasts : State → List Byte := fun t => ((answers t 0).map fun a => a.getLastD 0).take 2
    (s.watch now (frameEvent .rxFrames 0 none (headerBits (controlFrame [64, 0, 0, 7])) 1)).raised.map (·.cls) =
      [.watchOverflow, .watchOverflow] ∧
    holds (read [12, 12]) (fun t => decide (t.capture = none ∧ t.raised = [] ∧ lasts t = [0, 1])) = true ∧
    holds (read [12]) (fun t => decide (t.capture.map (·.cls) = some .watchOverflow ∧ t.raised = [] ∧
      lasts t = [0, 1])) = true ∧
    holds (read [12]) (fun t => decide ((answers t 0).map (·.headD 0) = [255, 255, 192])) = true ∧
    holds (read []) (fun t => decide (t.capture.map (·.cls) = some .watchOverflow ∧ t.raised = [])) = true := by
  decide +kernel

theorem witness_RequestsReadBack :
    (Instr.watchSet op (some watchArgs)).sender = some op ∧ (Instr.watchSet op (some watchArgs)).requestCode = some 56 ∧
    (Instr.watchSet op (some watchArgs)).formed = true ∧ (Instr.watchSet op (some watchArgs)).wf = true ∧
    Wire.request 0 now (requestPayload 56 7 (requestBody (.watchSet op (some watchArgs)))) =
      some (.watchSet op (some watchArgs)) := by decide +kernel

/-! ## Device, time and port requests -/

theorem witness_PowerOnState :
    fresh.pending = [] ∧
    holds (exec (.powerOn { node := 63, opport := 15, prbfit := 0x8000 }) live)
      (fun t => decide ((t.port 15).cls = .operator ∧ t.noticePort = 15 ∧ t.fitted 15 = true ∧ t.fitted 14 = false ∧
        t.booking 0 = none ∧ t.sec = 0)) = true := by decide +kernel

/-- R179: straps, an OPERATOR port and a DOWN port stay through any other command. -/
theorem witness_StrapsReadAtPowerOn :
    (∀ st, Instr.timeRead op (some ()) ≠ .powerOn st) ∧ (fresh.port 9).link = .down ∧ (fresh.port 0).cls = .operator ∧
    holds (exec (.timeRead op (some ())) fresh)
      (fun t => decide (t.straps = fresh.straps ∧ (t.port 9).link = .down ∧ (t.port 0).cls = .operator)) = true :=
  ⟨fun _ => Instr.noConfusion, by decide +kernel⟩

/-- R23: a second RESTART; one booking too many for the queue, and one that just fits. -/
theorem witness_RestartIsAccepted :
    got restarting (.restart op (some ())) = some [130, 20, 0, 7] ∧
    got (billed 64 live) (.restart op (some ())) = some [130, 22, 0, 7] ∧
    got (billed 63 live) (.restart op (some ())) = some [130, 0, 0, 7] ∧
    (live.port op.port).cls = .operator ∧ live.restart = false ∧
    holds (exec (.restart op (some ())) (billed 63 live))
      (fun t => decide (t.restart = true) && (t.booking 0).any fun x => x.restartClose) = true := by decide +kernel

/-- R24, R40: with no record but CLOSED and CONFIRMED ones a restart completes: kept are the CLOSED, and a discarded
EXTEND answers STATE. -/
theorem witness_RestartCompletes :
    restarting.restart = true ∧ (∀ (b : BookingIx) (x : Booking), restarting.booking b = some x →
      x.state ∉ [.armed, .live, .overrun, .closing]) ∧
    { inState .closed with extendPending := true }.afterRestart =
      some { inState .closed with lastExtend := some .state } ∧
    (inState .confirmed).afterRestart = none ∧ (restarting.tryFinishRestart now).startCause = .restart := by
  refine ⟨rfl, fun b x h => ?_, by decide, by decide, by decide +kernel⟩
  have e : restarting.booking b = none := by
    simp [State.booking, restarting, ready, fresh, State.powerOn]
  simp [e] at h

/-- R176: port 15 is accepted, 16 is not; an observer may not; the notice follows. -/
theorem witness_NoticeSetNamesTheNoticePort :
    (ready.port op.port).cls = .operator ∧ (ready.port ob.port).cls = .observer ∧
    got ready (.noticeSet op (some 16)) = some [131, 18, 0, 7] ∧
    got restarting (.noticeSet op (some 15)) = some [131, 20, 0, 7] ∧
    got ready (.noticeSet op (some 15)) = some [131, 0, 0, 7] ∧
    holds (exec (.noticeSet op (some 15)) ready) (fun t => decide (t.noticePort = 15)) = true ∧
    ready.masks[FaultClass.los.ix] = false ∧
    answers (ready.takeRaise { cls := .los, items := .ofPort 3, detail := none }) 0 =
      [[255, 1, 0, 0, 1, 3, 0, 0, 0, 0, 0, 0, 3, 232, 0, 0, 1, 0]] := by decide +kernel

/-- R8: 999 and 1,000 ms; a LIVE booking; an idle-close of 4, 5, 300 and 301. -/
theorem witness_TimeSetLoadsTheTime :
    let set := fun ms idle => Instr.timeSet op (some { sec := 7, ms := ms, idleClose := idle })
    got ready (set 1000 30) = some [136, 18, 0, 7] ∧ got restarting (set 999 30) = some [136, 20, 0, 7] ∧
    got live (set 999 30) = some [136, 21, 0, 7] ∧ got ready (set 999 5) = some [136, 0, 0, 7] ∧
    got ready (set 999 300) = some [136, 0, 0, 7] ∧ got ready (set 999 4) = some [136, 2, 0, 7] ∧
    holds (exec (set 999 301) fresh)
      (fun t => decide (t.sec = 7 ∧ t.milli = 999 ∧ t.timeSet = true ∧ t.idleClose = 300)) = true := by decide +kernel

/-- Section 11.9, 2.900: unset, second 2, millisecond 900, idle-close 30. -/
theorem witness_TimeReadReportsTheTime :
    (fresh.port op.port).cls ≠ .none ∧
    got { fresh with sec := 2, sub := 9000000000 } (.timeRead op (some ())) =
      some [137, 0, 0, 7, 0, 0, 0, 0, 2, 3, 132, 0, 0, 0, 30] := by decide +kernel

/-- R43, section 11.9: ranges, a restart, a port in use, the last OPERATOR, and accepted. -/
theorem witness_PortSetWritesTheSettings :
    let set := fun port role cap cls => Instr.portSet op
      (some { port := port, role := role, capacity := cap, reserve := 20, demarcation := 5, cls := cls, autoProbe := true })
    got ready (set 16 2 960 1) = some [144, 18, 0, 7] ∧ got ready (set 5 2 961 1) = some [144, 18, 0, 7] ∧
    got restarting (set 5 2 960 1) = some [144, 20, 0, 7] ∧ got live (set 1 1 959 0) = some [144, 21, 0, 7] ∧
    got live (set 1 1 960 0) = some [144, 0, 0, 7] ∧ got fresh (set 0 0 960 1) = some [144, 20, 0, 7] ∧
    holds (exec (set 5 2 960 1) ready)
      (fun t => decide ((t.port 5).settings = (.taker, 960, 20, 5, .observer, true))) = true := by decide +kernel

/-- R44: a port set OFF gives up its media. -/
theorem test_port_off_empties :
    holds (exec (.portSet op (some { port := 3, role := 0, capacity := 960, reserve := 20, demarcation := 0, cls := 0,
                                     autoProbe := false }))
        { ready with ports := ready.ports.set 3 { upPort .taker with class2 :=
            [{ booking := 0, position := 1, label := 20, flags := 0, seq := 1, payload := [] }] } })
      (fun t => decide ((t.port 3).class2 = [] ∧ (t.port 3).role = .off)) = true := by decide +kernel

/-- The reads at the ends of their ranges. -/
theorem witness_ReadsChangeNothing :
    (ready.port op.port).cls ≠ .none ∧
    got ready (.portRead op (some 16)) = some [145, 18, 0, 7] ∧ got ready (.patternRead op (some 32)) = some [161, 18, 0, 7] ∧
    got ready (.tariffRead op (some 16)) = some [169, 18, 0, 7] ∧
    got ready (.probeRead op (some (some 16))) = some [177, 18, 0, 7] ∧
    got ready (.watchRead op (some (some 8))) = some [185, 18, 0, 7] ∧
    (got ready (.portRead op (some 15))).map (·.take 4) = some [145, 0, 0, 7] ∧
    (got ready (.patternRead op (some 31))).map (·.take 4) = some [161, 0, 0, 7] ∧
    (got ready (.tariffRead op (some 15))).map (·.take 4) = some [169, 0, 0, 7] ∧
    (got ready (.probeRead op (some none))).map (·.take 4) = some [177, 0, 0, 7] ∧
    (got ready (.watchRead op (some (some 7)))).map (·.take 4) = some [185, 0, 0, 7] := by decide +kernel

/-! ## Booking requests -/

/-- R10: rate 481, time unset, a restart, no FREE record, four waiting, and accepted at record 0. -/
theorem witness_BookAllocatesTheLowestRecord :
    got ready (.book op (some { bookArgs with rate := 481 })) = some [152, 18, 0, 7] ∧
    got { ready with timeSet := false } (.book op (some bookArgs)) = some [152, 19, 0, 7] ∧
    got restarting (.book op (some bookArgs)) = some [152, 20, 0, 7] ∧
    got { ready with bookings := Vector.replicate 256 (some terms) } (.book op (some bookArgs)) = some [152, 22, 0, 7] ∧
    got (busy 4 ready) (.book op (some bookArgs)) = some [152, 23, 0, 7] ∧
    got (busy 3 ready) (.book op (some bookArgs)) = some [152, 1, 0, 7, 0] ∧
    got { live with sec := 5600 } (.book op (some bookArgs)) = some [152, 18, 0, 7] ∧
    got { live with sec := 5599 } (.book op (some { bookArgs with rate := 480 })) = some [152, 1, 0, 7, 1] := by
  decide +kernel

/-- The terms of `bookArgs` satisfy the conditions of step 1. -/
theorem witness_BookInRange : BookInRange bookArgs ready where
  customer := by decide
  tariff := ⟨0, rfl, by decide +kernel⟩
  rate := by decide
  duration := by decide
  armLead := by decide
  allowance := by decide
  window := by decide
  ahead := fun _ => by decide +kernel
  legCount := .inr rfl
  destCount := by decide
  leg := by
    intro l hl
    simp only [bookArgs, List.mem_cons, List.not_mem_nil, or_false] at hl
    rcases hl with rfl | rfl
    · exact ⟨by decide, by decide, by decide, ⟨1, rfl, .inl (by decide +kernel)⟩, by simp, by decide, by simp⟩
    · exact ⟨by decide, by decide, by decide, ⟨2, rfl, .inl (by decide +kernel)⟩,
        fun n hn => ⟨0, by simpa using hn, by decide +kernel⟩, by decide, by simp⟩
  dest := by
    intro d hd
    simp only [bookArgs, List.mem_cons, List.not_mem_nil, or_false] at hd
    rcases hd with rfl | rfl
    · exact ⟨by decide, by decide, by decide, ⟨3, rfl, .inl (by decide +kernel)⟩⟩
    · exact ⟨by decide, by decide, by decide, ⟨4, rfl, .inl (by decide +kernel)⟩⟩
  ports := by decide
  mode := by simp [bookArgs]

/-- R19: 86,400 s before the start the fee of a 1,440-minute window does not apply; one second later it does. -/
theorem witness_CancelActsByTheState :
    let far := { terms with start := 100000, finish := 103600 }
    got ready (.cancel op (some 256)) = some [153, 18, 0, 7] ∧ got ready (.cancel op (some 0)) = some [153, 20, 0, 7] ∧
    got (withBooking (inState .overrun) 6000) (.cancel op (some 0)) = some [153, 20, 0, 7] ∧
    got (withBooking (inState .pending) 1000) (.cancel op (some 0)) = some [153, 0, 0, 7, 0, 0] ∧
    got (withBooking far 13600) (.cancel op (some 0)) = some [153, 0, 0, 7, 1, 0] ∧
    got (withBooking far 13601) (.cancel op (some 0)) = some [153, 0, 0, 7, 1, 1] ∧
    holds (exec (.cancel op (some 0)) (withBooking far 13600)) (fun t => decide (t.booking 0 = none)) = true ∧
    holds (exec (.cancel op (some 0)) (billed 63 (withBooking far 13601)))
      (fun t => decide (t.stateOf 0 = some .closed ∧ t.bills.length = 64)) = true ∧
    holds (exec (.cancel op (some 0)) (billed 64 (withBooking far 13601)))
      (fun t => decide (t.stateOf 0 = some .closing ∧ t.billWaiting.length = 1 ∧
        t.flags[FaultClass.billWait.ix] = true)) = true ∧
    holds (exec (.cancel op (some 0)) (withBooking (inState .armed) 1990))
      (fun t => decide ((t.booking 0).bind (·.closeReq) = some .cancelledArmed)) = true ∧
    holds (exec (.cancel op (some 0)) live)
      (fun t => decide ((t.booking 0).bind (·.closeReq) = some .closedEarly)) = true := by decide +kernel

/-- R20. -/
theorem witness_CloseAsksForTheBoundary :
    got ready (.close op (some 256)) = some [154, 18, 0, 7] ∧ got ready (.close op (some 255)) = some [154, 20, 0, 7] ∧
    got { live with restart := true } (.close op (some 0)) = some [154, 20, 0, 7] ∧
    got live (.close op (some 0)) = some [154, 0, 0, 7] ∧
    holds (exec (.close op (some 0)) (withBooking { liveBooking with state := .overrun } 6000))
      (fun t => decide ((t.booking 0).bind (·.closeReq) = some .closed)) = true ∧
    holds (exec (.close op (some 0)) (withBooking { liveBooking with closeReq := some .sourceEnded, state := .overrun } 6000))
      (fun t => decide ((t.booking 0).bind (·.closeReq) = some .sourceEnded)) = true := by decide +kernel

/-- R21: seconds 0 and 7,200, totals 7,200 and 7,201. -/
theorem witness_ExtendHandsOverTheTotal :
    let extend := fun n => Instr.extend op (some { index := 0, seconds := n })
    let s := withBooking terms 1000
    got s (extend 0) = some [155, 18, 0, 7] ∧ got s (extend 7201) = some [155, 18, 0, 7] ∧
    got { s with restart := true } (extend 1) = some [155, 20, 0, 7] ∧
    got (withBooking { terms with extendPending := true } 1000) (extend 1) = some [155, 20, 0, 7] ∧
    got (busy 4 s) (extend 1) = some [155, 23, 0, 7] ∧ got (busy 3 s) (extend 6600) = some [155, 1, 0, 7] ∧
    got s (extend 6601) = some [155, 2, 0, 7] ∧
    holds (exec (extend 6601) s) (fun t => decide ((t.scan.map (·.candidate.hi)) = some 12800)) = true := by
  decide +kernel

/-- R83: an unknown mode, BACKUP_ONLY with one leg, a CLOSED record, a CONFIRMED and a LIVE one. -/
theorem witness_ModeWritesTheMode :
    let mode := fun c => Instr.mode op (some { index := 0, mode := c })
    got live (mode 3) = some [156, 18, 0, 7] ∧
    got (withBooking { terms with backup := none } 1000) (mode 2) = some [156, 18, 0, 7] ∧
    got (withBooking (inState .closed) 7000) (mode 2) = some [156, 20, 0, 7] ∧
    got { live with restart := true } (mode 2) = some [156, 20, 0, 7] ∧
    holds (exec (mode 1) (withBooking terms 1000))
      (fun t => decide ((t.booking 0).map (·.mode) = some .mainOnly ∧
        (t.booking 0).map (·.main.exManual) = some false)) = true ∧
    holds (exec (mode 2) live)
      (fun t => decide ((t.booking 0).map (·.main.exManual) = some true ∧
        ((t.booking 0).bind (·.outage)).map (·.flag) = some false)) = true ∧
    holds (exec (mode 2) (withBooking { liveBooking with backup := some { leg 2 11 with state := .silent } } 3000))
      (fun t => decide (((t.booking 0).bind (·.outage)).map (·.flag) = some true ∧
        t.flags[FaultClass.feedLost.ix] = true)) = true := by decide +kernel

/-- R22: FREE, a live record kept, an EXPIRED one freed. -/
theorem witness_BookingReadReportsAndFrees :
    got ready (.bookingRead op (some 256)) = some [157, 18, 0, 7] ∧
    got ready (.bookingRead op (some 255)) = some [157, 0, 0, 7, 0] ∧
    holds (exec (.bookingRead op (some 0)) live) (fun t => decide (t.stateOf 0 = some .live)) = true ∧
    holds (exec (.bookingRead op (some 0)) (withBooking (inState .expired) 6000))
      (fun t => decide (t.booking 0 = none)) = true := by decide +kernel

/-! ## Table requests -/

/-- R84: an ident timeout of 61, a pattern in use, silence times 50 and 49. -/
theorem witness_PatternSetWritesThePattern :
    let set := fun target silence timeout =>
      Instr.patternSet op (some { target := target, silenceMs := silence, identTimeout := timeout })
    let p : PatternWrite := { index := 0, reference := List.replicate 32 1, mask := List.replicate 32 true }
    got ready (set none 200 61) = some [160, 18, 0, 7] ∧ got ready (set none 200 1) = some [160, 18, 0, 7] ∧
    got restarting (set none 200 60) = some [160, 20, 0, 7] ∧
    got (withBooking { terms with main := { leg 1 10 with pattern := some 0 } } 1000) (set (some p) 200 10) =
      some [160, 21, 0, 7] ∧
    got ready (set (some p) 50 2) = some [160, 0, 0, 7] ∧ got ready (set none 1001 2) = some [160, 2, 0, 7] ∧
    holds (exec (set (some p) 49 60) ready)
      (fun t => decide (t.patterns[0].map (·.mask.length) = some 32 ∧ t.silenceMs = 50 ∧ t.identTimeout = 60)) = true := by
  decide +kernel

/-- R152: a multiplier of 65, a tariff in use, and accepted. -/
theorem witness_TariffSetWritesTheTariff :
    got ready (.tariffSet op (some { tariffArgs with multiplier := 65 })) = some [168, 18, 0, 7] ∧
    got ready (.tariffSet op (some { tariffArgs with t2 := 4 })) = some [168, 18, 0, 7] ∧
    got restarting (.tariffSet op (some tariffArgs)) = some [168, 20, 0, 7] ∧
    got live (.tariffSet op (some { tariffArgs with index := 0 })) = some [168, 21, 0, 7] ∧
    holds (exec (.tariffSet op (some tariffArgs)) live) (fun t => decide (t.tariffs[6] = some tariff6)) = true := by
  decide +kernel

/-- A probe of port `p` in flight. -/
def probing (p : PortIx) (phase : Phase) (began : Option Nat) (s : State) : State :=
  { s with
    flight := some { number := 37, port := p, phase := phase, began := began, peaks := [],
                     config := { segments := [{ first := 100, last := 115, exponent := 0, shadow := 3, threshold := 200 }],
                                 silence := 64, preMs := 2, breakThreshold := 400, q := 523 } } }

/-- Port 1 dark. -/
def dark : State := { ready with ports := ready.ports.set 1 { upPort .venue with link := .down } }

/-- R98: ports 16 and OFF, a restart, not fitted, lit, the queue full, joined, created, queued. -/
theorem witness_ProbeJoinsOrCreates :
    let queue := (List.range 8).map fun i => ({ number := Fin.ofNat 256 (i + 40), port := Fin.ofNat 16 (i + 6) } : WaitingProbe)
    got ready (.probe op (some 16)) = some [176, 18, 0, 7] ∧ got ready (.probe op (some 9)) = some [176, 18, 0, 7] ∧
    got { dark with restart := true } (.probe op (some 1)) = some [176, 20, 0, 7] ∧
    got { dark with straps := { dark.straps with prbfit := 0 } } (.probe op (some 1)) = some [176, 27, 0, 7] ∧
    got ready (.probe op (some 1)) = some [176, 26, 0, 7] ∧
    got { probing 15 .preSilence (some 0) dark with probeWaiting := queue } (.probe op (some 1)) = some [176, 23, 0, 7] ∧
    got (probing 1 .preSilence (some 0) dark) (.probe op (some 1)) = some [176, 1, 0, 7, 37, 1, 0, 0, 0] ∧
    got { dark with probeCounter := 255 } (.probe op (some 1)) = some [176, 1, 0, 7, 255, 0, 0, 0, 0] ∧
    got { probing 15 .preSilence (some 0) dark with probeCounter := 37 } (.probe op (some 1)) =
      some [176, 1, 0, 7, 38, 0, 1, 1, 1] ∧
    holds (exec (.probe op (some 1)) { dark with probeCounter := 255 })
      (fun t => decide (t.probeCounter = 0 ∧ t.flight.map (·.port) = some 1)) = true := by decide +kernel

/-- R112: an exponent of 7 and a Q of 601 are clamped; overlapping segments are refused. -/
theorem witness_ProbeConfigWritesTheConfiguration :
    got ready (.probeConfig op (some { probeArgs with preMs := 17 })) = some [178, 18, 0, 7] ∧
    got ready (.probeConfig op (some { probeArgs with segments := probeArgs.segments.reverse })) = some [178, 18, 0, 7] ∧
    got restarting (.probeConfig op (some probeArgs)) = some [178, 20, 0, 7] ∧
    got ready (.probeConfig op (some probeArgs)) = some [178, 2, 0, 7] ∧
    holds (exec (.probeConfig op (some probeArgs)) ready)
      (fun t => decide (t.probeConfig.q = 600 ∧ t.probeConfig.segments.map (·.exponent) = [6, 2])) = true := by
  decide +kernel

/-- R140: counter 8, an EXCLUDE_LEG without a leg scope, a restart, and accepted. -/
theorem witness_WatchSetWritesTheCounter :
    got ready (.watchSet op (some { watchArgs with counter := 8 })) = some [184, 18, 0, 7] ∧
    got ready (.watchSet op (some { watchArgs with scopeKind := 2 })) = some [184, 18, 0, 7] ∧
    got restarting (.watchSet op (some watchArgs)) = some [184, 20, 0, 7] ∧
    holds (exec (.watchSet op (some watchArgs)) ready)
      (fun t => decide ((t.counter 7).scope = .leg 255 .backup ∧ (t.counter 7).value = 5 ∧
        (t.counter 7).starting = true)) = true := by decide +kernel

theorem witness_WatchSetInRange : WatchSetInRange watchArgs (.leg 255 .backup) :=
  { counter := by decide, event := by decide, action := by decide,
    scope := .inr (.inr (.inr ⟨rfl, 255, rfl, .inr ⟨rfl, rfl⟩⟩)), exclude := fun _ => rfl,
    probe := fun h => absurd h (by decide) }

/-- R142, R138. -/
theorem witness_UnfreezeClearsTheFlags :
    let member := { Counter.initial with member := true, overflow := true, starting := false }
    let other := { Counter.initial with overflow := true, starting := false }
    let frozen := { ready with frozen := true, counters := (ready.counters.set 2 member).set 3 other }
    got { frozen with restart := true } (.watchUnfreeze op (some ())) = some [186, 20, 0, 7] ∧
    holds (exec (.watchUnfreeze op (some ())) frozen)
      (fun t => decide (t.frozen = false ∧ (t.counter 2).overflow = false ∧ (t.counter 2).starting = true ∧
        (t.counter 3).overflow = false ∧ (t.counter 3).starting = false)) = true := by decide +kernel

/-- R148 to R150. -/
theorem witness_FaultRequestsReadClearAndMask :
    let s := (ready.recordRaise .los (.ofPort 3)).recordRaise .controlDrop (.ofPort 0)
    got ready (.faultClear op (some [0])) = some [193, 18, 0, 7] ∧
    got ready (.faultClear op (some [15])) = some [193, 18, 0, 7] ∧
    got restarting (.faultClear op (some [1])) = some [193, 20, 0, 7] ∧
    got restarting (.faultMask op (some defaultMasks)) = some [194, 20, 0, 7] ∧
    holds (exec (.faultClear ob (some [1])) s) (fun t => decide (answers t 5 = [[193, 17, 0, 7]])) = true ∧
    holds (exec (.faultMask ob (some defaultMasks)) s) (fun t => decide (answers t 5 = [[194, 17, 0, 7]])) = true ∧
    holds (exec (.faultClear op (some [1])) s)
      (fun t => decide (t.flags[FaultClass.los.ix] = false ∧ t.flags[FaultClass.controlDrop.ix] = true ∧
        t.capture ≠ none)) = true ∧
    holds (exec (.faultRead op (some ())) s)
      (fun t => decide (t.capture = none ∧ t.flags[FaultClass.los.ix] = true)) = true ∧
    holds (exec (.faultMask op (some (Vector.replicate 14 true))) ready)
      (fun t => decide (t.masks = Vector.replicate 14 true)) = true := by decide +kernel

/-- R164: an empty queue and a queue of one. -/
theorem test_bill_read :
    got ready (.billRead op (some ())) = some [200, 3, 0, 7, 0, 0, 0] ∧ ready.bills = [] ∧
    (got (billed 1 ready) (.billRead op (some ()))).map (·.take 8) = some [200, 0, 0, 7, 1, 0, 1, 1] := by decide +kernel

/-- R165: the head alone is released; a waiting bill moves up and closes its booking. -/
theorem witness_BillRequestsReadAndRelease :
    let records := (ready.bookings.set 1 (some (inState .closed))).set 0 (some (inState .closing))
    let s := { billed 64 ready with bookings := records, billWaiting := [bill 0] }
    holds (exec (.billRelease ob (some 1)) s) (fun t => decide (answers t 5 = [[201, 17, 0, 7]])) = true ∧
    got s (.billRelease op (some 256)) = some [201, 18, 0, 7] ∧ got s (.billRelease op (some 2)) = some [201, 20, 0, 7] ∧
    holds (exec (.billRelease op (some 1)) s)
      (fun t => decide (t.booking 1 = none ∧ t.stateOf 0 = some .closed ∧ t.bills.length = 64 ∧ t.billWaiting = [])) = true ∧
    holds (exec (.billRelease op (some 1)) { s with billWaiting := [] })
      (fun t => decide (t.bills.length = 63 ∧ t.stateOf 0 = some .closing)) = true := by decide +kernel

/-- A raw counter of the live booking's main leg, at the top of its range, that excludes the leg. -/
def excluding : Counter :=
  { Counter.initial with event := .policerDrops, scope := .leg 0 .main, action := .excludeLeg, notice := true,
                         member := true, value := 4294967295 }
/-- A policer drop of that leg. -/
def dropEvent : WatchEvent :=
  { kind := .policerDrops, port := some 1, booking := some 0, leg := some .main, bits := none, weight := 1 }

/-- R134 to R139: the count that passes the top wraps to 0, freezes the group and excludes the leg; a frozen member
counts nothing; edge and invert. -/
theorem witness_CountersCountAndOverflow :
    let s := { live with counters := live.counters.set 0 excluding }
    let t := s.countEvent now dropEvent 0
    excluding.reaches dropEvent = true ∧ (s.frozen && excluding.member) = false ∧
    (t.counter 0).value = 0 ∧ (t.counter 0).overflow = true ∧ t.frozen = true ∧
    t.raised.map (·.cls) = [.watchOverflow] ∧ (t.booking 0).map (·.main.exWatch) = some true ∧
    ((t.countEvent now dropEvent 0).counter 0).value = 0 ∧
    excluding.reaches { dropEvent with leg := some .backup } = false ∧
    ({ Counter.initial with threshold := 34 }.evaluate 34).1 = 0 ∧
    ({ Counter.initial with threshold := 34, starting := false }.evaluate 33).1 = 0 ∧
    ({ Counter.initial with threshold := 34, starting := false }.evaluate 34).1 = 1 ∧
    ({ Counter.initial with threshold := 34, starting := false, invert := true }.evaluate 33).1 = 1 ∧
    ({ Counter.initial with threshold := 34, starting := false, edge := true, previousMet := true }.evaluate 34).1 = 0 := by
  decide +kernel

/-! ## The second boundary -/

theorem noActions_ready : ∀ i : CounterIx, (ready.counter i).action = .none := by decide +kernel
theorem counters_withBooking (x : Booking) (n : Nat) : (withBooking x n).counters = ready.counters := rfl
theorem noActions_withBooking (x : Booking) (n : Nat) : (withBooking x n).NoActions := fun i => noActions_ready i
theorem counters_live : live.counters = ready.counters := rfl
theorem noActions_live : live.NoActions := fun i => noActions_ready i
theorem booking_withBooking (x : Booking) (n : Nat) : (withBooking x n).booking 0 = some x := by
  simp [State.booking, withBooking]

/-- R7, R52, R53: a port in LOF without a bad check of the second returns to UP, one with a bad check stays. -/
theorem test_port_boundary :
    let lof := { upPort .venue with link := .lof, upWhole := false }
    lof.boundary = { lof with link := .up, upWhole := true } ∧
    { lof with badChecks := 1 }.boundary = lof ∧ (upPort .venue).boundary = { upPort .venue with upLast := true } ∧
    ({ ready with sec := 4294967295, sub := 9999999999 }.stepSecond.sec = 0) := by decide +kernel

/-- R12 at its edges: one second before the window of 2,000 − 60, its first second, its last before the end, and the
end; R13 one second before the start and at it. -/
theorem witness_BoundaryArmsAndGoesLive :
    (withBooking terms 1939).NoActions ∧ (withBooking terms 1939).booking 0 = some terms ∧
    (withBooking terms 1939).restart = false ∧ (withBooking terms 1939).nextSecond = 1940 ∧
    terms.transition 1939 30 false = .stay ∧ terms.transition 1940 30 false = .arm ∧
    terms.transition 5599 30 false = .arm ∧ terms.transition 5600 30 false = .expire ∧
    terms.transition 5600 30 true = .stay ∧ (inState .armed).transition 1999 30 false = .stay ∧
    (inState .armed).transition 2000 30 false = .goLive :=
  ⟨noActions_withBooking _ _, booking_withBooking _ _, rfl, rfl, by decide, by decide, by decide, by decide, by decide,
    by decide, by decide⟩

/-- R12, R60: the record armed, its legs WAITING and their policers full. -/
theorem test_boundary_arms :
    holds (exec (.secondBoundary now) (withBooking terms 1939))
      (fun t => decide (t.stateOf 0 = some .armed ∧ (t.flows.map (·.tokens)) = [2000000, 2000000] ∧
        (t.booking 0).map (·.main.state) = some .waiting)) = true := by decide +kernel

/-- R14 to R16 at their edges: end 5,600, allowance 600, an idle-close of 30. -/
theorem witness_BoundaryRunsOrCloses :
    let ran : Booking := { liveBooking with state := .overrun, overrunFrom := some 5600 }
    (withBooking liveBooking 5598).NoActions ∧ (withBooking liveBooking 5598).booking 0 = some liveBooking ∧
    { liveBooking with restartClose := true }.transition 5599 30 false = .close .restart ∧
    { inState .armed with closeReq := some .cancelledArmed }.transition 2000 30 false = .close .cancelledArmed ∧
    liveBooking.transition 5599 30 false = .stay ∧ liveBooking.transition 5600 30 false = .overrun ∧
    { liveBooking with closeReq := some .closedEarly }.transition 5599 30 false = .close .closedEarly ∧
    { liveBooking with closeReq := some .closedEarly }.transition 5600 30 false = .close .endReached ∧
    { liveBooking with allowance := 0 }.transition 5600 30 false = .close .endReached ∧
    ran.transition 6199 30 false = .stay ∧ ran.transition 6200 30 false = .close .allowanceEnd ∧
    { ran with closeReq := some .sourceEnded }.transition 6199 30 false = .close .sourceEnded ∧
    { ran with outage := some { OutageState.initial with run := 30 } }.transition 5700 30 false = .close .sourceIdle ∧
    { ran with outage := some { OutageState.initial with run := 29 } }.transition 5700 30 false = .stay :=
  ⟨noActions_withBooking _ _, booking_withBooking _ _, by decide, by decide, by decide, by decide, by decide, by decide,
    by decide, by decide, by decide, by decide, by decide, by decide⟩

/-- R17, R126, R154: at the close the flow entries are gone, the last second is classified and the bill is queued. -/
theorem test_boundary_closes :
    holds (exec (.secondBoundary now)
        { withBooking { liveBooking with allowance := 0 } 5599 with flows := [entry 1 10 .main, entry 2 11 .backup] })
      (fun t => decide (t.flows = [] ∧ t.bills.map (·.kind) = [.completed] ∧ t.stateOf 0 = some .closed ∧
        t.bills.map (fun k => k.lines.map (·.deliveredLive)) = [[1, 1]])) = true := by decide +kernel

/-- R127: loss 3 is band 0 under T1 = 4, loss 4 is band 1; a destination port not UP loses the second alone. -/
theorem witness_SecondsAreClassified :
    let upAll := Vector.replicate 16 true
    let x := { liveBooking with merge := some { MergeState.atArming with loss := 4 } }
    let bands := fun (y : Booking) => y.dests.map fun d => d.account.map fun a =>
      (a.residency.deliveredLive, a.residency.undeliveredLive, a.residency.bandLive.b0, a.residency.bandLive.b1)
    x.takes 2000 = true ∧ x.takes 1999 = false ∧
    bands (x.takeSecond 3000 upAll tariff6) = [some (1, 0, 0, 1), some (1, 0, 0, 1)] ∧
    bands ({ x with merge := some { MergeState.atArming with loss := 3 } }.takeSecond 3000 (upAll.set 4 false) tariff6) =
      [some (1, 0, 1, 0), some (0, 1, 0, 0)] := by decide +kernel

/-! ## Light, frames and slots -/

/-- Port 1 of the live booking with auto-probe on. -/
def watched : State := { live with ports := live.ports.set 1 { upPort .venue with autoProbe := true } }

/-- R49, R53, R79, R99: port 1 may lose light and port 0 has none to lose; leg 1 of the live booking becomes SILENT, its
other leg stays; auto-probe asks for a probe of the dark port. -/
theorem witness_LightLossTakesThePortDown :
    (watched.port 1).link = .up ∧ (watched.port 0).link = .down ∧ (watched.port 1).autoProbe = true ∧
    watched.fitted 1 = true ∧ watched.restart = false ∧ watched.booking 0 = some liveBooking ∧
    ((watched.legSilent now 0 .main).booking 0).map (fun x => (x.main.state, x.backup.map (·.state))) =
      some (.silent, some .receiving) ∧
    (watched.autoProbe 1).probeOf 1 = some 0 ∧ (watched.setLink 1 .down).port 1 =
      { upPort .venue with autoProbe := true, link := .down, upWhole := false } := by decide +kernel

/-- A probe of port 9 in flight and one of port 1 waiting. -/
def queued : State := { probing 9 .preSilence (some 0) dark with probeWaiting := [{ number := 40, port := 1 }] }

/-- R109: at a RESTART the probe in flight ends first: its PROBE_DONE is latched, and the waiting probe's stands behind it,
whatever order of classes the moment names and with the response between them. -/
theorem witness_RestartIsAccepted_probes :
    let t := queued.abortAll { now with raises := [13, 13] }
    let sent := fun n => t.respond { op with m := { now with raises := [13, 13], afterAnswer := n } } 2 .ok []
    t.raised.map (fun x => (x.cls, x.items.port)) = [(.probeDone, some 9), (.probeDone, some 1)] ∧ t.capture = none ∧
    (sent 0).capture.map (fun k => (k.cls, k.items.port)) = some (.probeDone, some 9) ∧
    (sent 1).capture.map (fun k => (k.cls, k.items.port)) = some (.probeDone, some 9) := by decide +kernel

/-- R49, R108: a dark port with its probe in flight, waiting, or none; port 2 is lit. -/
theorem witness_LightReturnsToAcquiring :
    (dark.port 1).link = .down ∧ (dark.port 2).link ≠ .down ∧ dark.probeOf 1 = none ∧
    (probing 1 .postSilence (some 0) dark).flight.map (·.port) = some 1 ∧
    queued.probedPorts.Nodup ∧ queued.probeWaiting.length ≤ 8 ∧ queued.probeOf 1 = some 40 ∧
    holds (exec (.lightReturns now 1) dark)
      (fun t => decide ((t.port 1).link = .acquiring ∧ (t.port 1).goodRun = 0)) = true ∧
    holds (exec (.lightReturns now 2) dark) (fun t => decide ((t.port 2).link = .up)) = true := by decide +kernel

/-- R50, R51: the third good check brings UP, a bad check breaks the run, the eighth of a second leaves UP as it is. -/
theorem witness_FramesDriveTheLink :
    let acq := fun run => { ready with ports := ready.ports.set 1 { upPort .venue with link := .acquiring, goodRun := run } }
    let bad := fun n => { ready with ports := ready.ports.set 1 { upPort .venue with badChecks := n } }
    holds (exec (.frameReceived now 1 fillFrame) (acq 1)) (fun t => decide ((t.port 1).link = .acquiring)) = true ∧
    holds (exec (.frameReceived now 1 fillFrame) (acq 2)) (fun t => decide ((t.port 1).link = .up)) = true ∧
    holds (exec (.frameReceived now 1 [0]) (acq 2))
      (fun t => decide ((t.port 1).link = .acquiring ∧ (t.port 1).goodRun = 0 ∧ (t.port 1).badChecks = 1)) = true ∧
    holds (exec (.frameReceived now 1 [0]) (bad 7)) (fun t => decide ((t.port 1).link = .up)) = true ∧
    ((bad 8).port 1).link = .up ∧ Config.badCheckLimit < ((bad 8).port 1).badCheck.badChecks ∧
    holds (exec (.frameReceived now 0 fillFrame) ready) (fun t => decide ((t.port 0).goodRun = 0)) = true := by
  decide +kernel

/-- A MEDIA frame of label 10. -/
def media (seq : Nat) (flags : Byte) : List Byte := frameBytes 10 1 flags seq [1, 2]

/-- R70, R71, section 5.8: 65,530 is forwarded to both destinations in class 1; 65,529 is kept; a full queue drops; an
END flag in OVERRUN asks to close. -/
theorem witness_MediaIsForwarded :
    let copy : MediaCopy := { booking := 0, position := 2, label := 21, flags := 0, seq := 65530, payload := [1, 2] }
    let crowded := { live with ports := live.ports.set 4 { upPort .taker with class1 := List.replicate 256 copy } }
    live.NoActions ∧ (live.port 1).link = .up ∧ (readFrame (media 65530 0)).isSome = true ∧
    (live.flowOf 1 10).any (fun e => decide (16 ≤ (e.refill 0).tokens)) = true ∧
    (liveBooking.dests.map (·.port)).Nodup ∧
    holds (exec (.frameReceived now 1 (media 65530 0)) live)
      (fun t => decide ((t.port 4).class1 = [copy] ∧ ((t.port 3).class1.map (·.position)) = [1] ∧
        (t.port 3).class2 = [] ∧ (t.flowOf 1 10).map (·.tokens) = some 1999984 ∧
        ((t.booking 0).bind (·.merge)).bind (·.lastFwd) = some 65530)) = true ∧
    holds (exec (.frameReceived now 1 (media 65529 0)) live)
      (fun t => decide ((t.port 3).class1 = [] ∧
        ((t.booking 0).bind (·.merge)).map (·.main.redundant) = some 1)) = true ∧
    holds (exec (.frameReceived now 1 (media 65530 0)) crowded)
      (fun t => decide ((t.port 4).class1.length = 256 ∧ (t.port 3).class1.length = 1 ∧
        ((t.booking 0).map fun x => x.dests.map fun d => d.account.map (·.secondDrops)) = some [some 0, some 1])) = true ∧
    holds (exec (.frameReceived now 1 (media 65530 1))
        { live with bookings := live.bookings.set 0 (some { liveBooking with state := .overrun }) })
      (fun t => decide ((t.booking 0).bind (·.closeReq) = some .sourceEnded)) = true :=
  ⟨noActions_live, by decide +kernel⟩

/-- R63, R66: an unbooked label; 15 tokens for 16 bits. -/
theorem witness_MediaIsStopped :
    let poor := { live with flows := [{ entry 1 10 .main with tokens := 15 }] }
    live.NoActions ∧ live.flowOf 1 12 = none ∧
    holds (exec (.frameReceived now 1 (frameBytes 12 1 0 1 [1])) live) (fun t => decide ((t.port 3).class1 = [])) = true ∧
    holds (exec (.frameReceived now 1 (media 65530 0)) poor)
      (fun t => decide ((t.port 3).class1 = [] ∧ t.flags[FaultClass.excess.ix] = true ∧
        ((t.booking 0).bind (·.merge)).map (·.main.policerDrops) = some 1)) = true :=
  ⟨noActions_live, by decide +kernel⟩

/-- Section 4.3's burst: frame 2 after 10 µs of refill, frame 210 dropped at 10,320. -/
theorem test_policer_burst :
    ((({ entry 1 10 .main with tokens := 1988480 }.refill 100000).police 11520).2.tokens = 1978960) ∧
    (({ entry 1 10 .main with tokens := 8320 }.refill 100000).police 11520) =
      (false, { entry 1 10 .main with tokens := 10320, lastRefill := 10 }) := by decide +kernel

/-- Section 5.8: the verdicts across the wrap. -/
theorem test_merge_wrap :
    let k := { MergeState.atArming with lastFwd := some 65534, loss := 2 }
    (k.test .main 2) = (.forward 3, { k with lastFwd := some 2, loss := 5 }) ∧
    ((k.test .main 2).2.test .backup 0).1 = .redundant ∧ (k.test .main 65534).1 = .redundant := by decide +kernel

/-- R90 at its edges: gaps of 1,024 and 1,025; distances of 32,767 and 32,768; the resync flag. -/
theorem witness_MergeTestForwardsOnce :
    let k := { MergeState.atArming with lastFwd := some 0 }
    k.resync = false ∧ (k.test .main 1025).1 = .forward 1024 ∧
    (k.test .main 1026) = (.forward 0, { k with lastFwd := some 1026, resyncCount := 1 }) ∧
    (k.test .main 32767).1 = .forward 0 ∧ (k.test .main 32768).1 = .redundant ∧
    ({ k with resync := true }.test .main 32768).1 = .forward 0 := by decide +kernel

/-- The main leg under CHECK with pattern 0. -/
def checking : Leg := { liveBooking.main with pattern := some 0, policy := .check, ident := some .awaiting }

/-- R86: a match, a mismatch, a payload of 31 bytes. -/
theorem witness_IdentFramesAreChecked :
    let s := { live with bookings := live.bookings.set 0 (some { liveBooking with main := checking }) }
    let ident := fun payload => exec (.frameReceived now 1 (frameBytes 10 2 0 0 payload)) s
    let is := fun (st : IdentState) (ex : Bool) (t : State) => decide
      ((t.booking 0).map (fun x => (x.main.ident, x.main.exIdent)) = some (some st, ex) ∧ t.flows = s.flows)
    pattern5.reference.length = 32 ∧ pattern5.mask.length = 32 ∧
    holds (ident (5 :: List.replicate 31 0)) (is .matched false) = true ∧
    holds (ident (4 :: List.replicate 31 5)) (is .mismatched true) = true ∧
    holds (ident (List.replicate 31 5)) (is .mismatched true) = true ∧
    holds (exec (.frameReceived now 1 (frameBytes 10 2 0 0 [])) live)
      (fun t => decide ((t.booking 0).map (·.main.ident) = some (some .notChecked))) = true := by decide +kernel

/-- The live booking with one leg. -/
def sole : State := withBooking { liveBooking with backup := none } 3000
/-- The main leg under REQUIRE, its ident timeout at 7,000,000. -/
def requiring : Leg := { liveBooking.main with policy := .require, ident := some .awaiting, identAt := some 7000000 }

/-- R80, R87, R92. -/
theorem witness_LegTimersExpire :
    live.NoActions ∧
    holds (exec (.silenceTimerExpiry now 0 .main) live)
      (fun t => decide (t.clock = 5000000 ∧ (t.booking 0).map (·.main.state) = some .silent ∧
        ((t.booking 0).bind (·.outage)).map (·.flag) = some false)) = true ∧
    holds (exec (.silenceTimerExpiry now 0 .main) sole)
      (fun t => decide (((t.booking 0).bind (·.outage)).map (·.flag) = some true ∧
        t.flags[FaultClass.feedLost.ix] = true)) = true ∧
    holds (exec (.identTimeoutExpiry now 0 .main) (withBooking { liveBooking with main := requiring } 3000))
      (fun t => decide (t.clock = 7000000 ∧ (t.booking 0).map (·.main.ident) = some (some .unconfirmed) ∧
        (t.booking 0).map (·.main.exIdent) = some true)) = true ∧
    holds (exec (.identTimeoutExpiry now 0 .main) live) (fun t => decide (t.clock = 0)) = true :=
  ⟨noActions_live, by decide +kernel⟩

/-- Port 3 with queues, at an instant. -/
def slot (clock : Nat) (esc : Bool) (c1 c2 : List MediaCopy) (ctl : List ControlFrame) : State :=
  let x := { upPort .taker with class1 := c1, class2 := c2, control := ctl, escalated := esc }
  { ready with clock := clock, ports := ready.ports.set 3 x }
/-- What port 3 sends in its next slot. -/
def sent (x : State) : Option (List Byte) := (after (exec (.slotStart now 3) x)).bind fun t => (t.port 3).sending
def mediaCopy : MediaCopy := { booking := 0, position := 1, label := 20, flags := 0, seq := 1, payload := [1] }
def response : ControlFrame := { payload := [129, 0, 0, 1], enqueued := 0 }

/-- R57, section 3.6: escalation after more than 2 ms, not in the next slot; else class 1, class 2, control, fill. -/
theorem witness_ArbiterChoosesInOrder :
    sent (slot 20000000 false [mediaCopy] [mediaCopy] [response]) = some mediaCopy.frame ∧
    sent (slot 20000001 false [mediaCopy] [mediaCopy] [response]) = some (controlFrame response.payload) ∧
    sent (slot 20000001 true [mediaCopy] [mediaCopy] [response]) = some mediaCopy.frame ∧
    sent (slot 0 false [] [mediaCopy] [response]) = some mediaCopy.frame ∧
    sent (slot 0 false [] [] [response]) = some (controlFrame response.payload) ∧
    sent (slot 0 false [] [] []) = some fillFrame ∧
    holds (exec (.slotStart now 3) (slot 0 false [] [] [])) (fun t => decide ((t.port 3).freeAt = 160)) = true ∧
    holds (exec (.slotStart now 1) (probing 1 .preSilence none dark)) (fun t => decide ((t.port 1).sending = none)) = true := by
  decide +kernel

/-! ## Admission, probes and bills -/

/-- Section 2.9, a single candidate: A and B of port 3, C at 240 CU fits and at 250 CU conflicts at 15:58:00. -/
theorem test_single_candidate :
    let claim := fun rate lo hi p label => ({ rate := rate, lo := lo, hi := hi, legs := [], dests := [(p, label)] } : Claim)
    let a := claim 400 53880 62400 3 212
    let b := claim 300 52080 58800 3 214
    let c := fun rate => claim rate 57480 65100 3 213
    capacityVerdict (c 240) [a, b] (fun _ => 940) = none ∧
    capacityVerdict (c 250) [a, b] (fun _ => 940) = some (.conflict 3 57480) := by decide +kernel

theorem witness_EvaluationPointsSuffice :
    let c : Claim := { rate := 10, lo := 5, hi := 20, legs := [], dests := [(3, 1)] }
    let d : Claim := { rate := 10, lo := 19, hi := 30, legs := [], dests := [(3, 2)] }
    c.lo < c.hi ∧ failingSecond c [d] .egress 3 19 = some 19 ∧ failingSecond c [{ d with lo := 20 }] .egress 3 19 = none := by
  decide +kernel

/-- `x` at record 0 with its scan in flight, a void entry and another behind it. -/
def scanning (kind : AdmissionKind) (void : Bool) (x : Booking) : State :=
  { (withBooking x 1000).beginScan { kind := kind, booking := 0, void := void } with
    waiting := [waits 8 true, waits 0 false] }

/-- R27, R36: a BOOK confirmed, the void entry completed, and the next scan begun. -/
theorem test_admission_completes :
    holds (exec (.admissionCompletion now) (scanning .book false (inState .pending)))
      (fun t => decide (t.stateOf 0 = some .confirmed ∧ t.flags[FaultClass.admission.ix] = true ∧
          t.scan.map (·.entry) = some (waits 0 false) ∧ t.waiting = [])) = true := by decide +kernel

/-- R11, R21, R33 to R36: what a completed entry makes of its record, by the verdict. -/
theorem witness_AdmissionCompletes :
    let made := fun (kind : AdmissionKind) (void : Bool) (v : Option Verdict) (x : Booking) =>
      ((scanning kind void x).completeEntry { kind := kind, booking := 0, void := void } v).booking 0
    (scanning .book false (inState .pending)).scan.isSome = true ∧ ready.scan = none ∧
    (made .book false none { inState .pending with cancelReq := true }).map (·.state) = some .cancelled ∧
    (made .book false (some (.conflict 1 1940)) (inState .pending)).bind (·.detail) = some (.conflict 1 1940) ∧
    (made .book false (some (.conflict 1 1940)) { inState .pending with cancelReq := true }).map
      (fun x => (x.state, x.detail)) = some (.cancelled, none) ∧
    (made (.extend 900 false) false none terms).map (·.allowance) = some 900 ∧
    (made (.extend 900 true) false none terms).bind (·.lastExtend) = some .clamped ∧
    (made (.extend 900 false) false (some (.clash 1 10)) terms).bind (·.lastExtend) = some (.clash 1 10) ∧
    (made (.extend 900 false) false none (inState .closing)).bind (·.lastExtend) = some .state ∧
    (made (.extend 900 false) true none terms).bind (·.lastExtend) = none ∧
    holds (exec (.admissionCompletion now) ready) (fun t => decide (t.flags[FaultClass.admission.ix] = false)) = true := by
  decide +kernel

/-- The averages of section 6.2's worked segment. -/
def segmentShot : List Nat :=
  List.replicate 100 4095 ++ [150, 260, 410, 380, 395, 300, 120, 90, 240, 240, 230, 210, 205, 600, 580, 590]

/-- Section 6.2: peaks at 102 and 108. -/
theorem test_worked_search :
    segmentPeaks { first := 100, last := 115, exponent := 0, shadow := 3, threshold := 200 } [segmentShot] =
      [{ index := 102, amplitude := 410 }, { index := 108, amplitude := 240 }] := by decide +kernel
/-- Section 6.3: index 9,405 at Q = 523, and the end of the range. -/
theorem test_distance : peakDistance 523 9405 = 4804 ∧ peakDistance 600 65535 = 38399 := by decide

/-- R102 to R105: the phases that go on. -/
theorem witness_ProbePassesItsPhases :
    (probing 1 .preSilence none dark).flight.bind (·.began) = none ∧ dark.flight = none ∧
    holds (exec (.transmitterPasses now) (probing 1 .preSilence none dark))
      (fun t => decide (t.flight.bind (·.began) = some 0)) = true ∧
    holds (exec (.traceDelivered now { probe := 37, measured := .silence 64 }) (probing 1 .preSilence (some 0) dark))
      (fun t => decide (t.clock = 20000000 ∧ t.flight.map (·.phase) = some (.segment 1))) = true ∧
    holds (exec (.traceDelivered now { probe := 37, measured := .samples [segmentShot] }) (probing 1 (.segment 1) (some 0) dark))
      (fun t => decide (t.clock = 5800 ∧ t.flight.map (fun f => (f.phase, f.peaks.length)) = some (.postSilence, 2))) = true ∧
    holds (exec (.phaseTimerExpiry now) dark) (fun t => decide (t.clock = 0)) = true := by decide +kernel

/-- R103, R110: a timer's expiry ends the probe, one second after the phase began. -/
theorem test_probe_times_out :
    holds (exec (.phaseTimerExpiry now) (probing 1 .preSilence (some 0) dark))
      (fun t => decide (t.clock = 10000000000 ∧ t.lastResults[1].map (·.outcome) = some .timeout ∧ t.flight = none)) = true := by
  decide +kernel

/-- R107, section 6.6: of the peaks at 108, 1,604 and 4,804 m the break is the first at the break threshold. -/
theorem test_probe_result :
    let c := { ProbeConfig.initial with breakThreshold := 1000 }
    (ProbeEnd.ofPeaks c [⟨211, 999⟩, ⟨9405, 1000⟩, ⟨9500, 4000⟩]).distance = some 4804 ∧
    (ProbeEnd.ofPeaks c [⟨211, 999⟩]).outcome = .noBreak ∧ (ProbeEnd.ofPeaks c []).peaks = [] := by decide +kernel

theorem witness_PeaksAreDeclaredByRuns :
    searchPeaks 200 1 none (([150, 201, 200].zipIdx 5).map fun x => (x.2, x.1)) = [{ index := 6, amplitude := 201 }] := by
  decide

/-- An outage record whose main leg waits on probe 37. -/
def onProbe : OutageRecord :=
  { OutageRecord.opened 3000 with main :=
      { held := some { value := .pending 37, brk := none }, situation := some .dark, carried := none } }

/-- R122: BREAK at the demarcation distance is NETWORK's, one metre more VENUE's; another probe settles nothing. -/
theorem witness_ProbesSettleCauses :
    let ends := fun n d => let o := onProbe.settle n (settledCause .brk 1 (some d) 5200)
      (o.attribution, o.brk)
    onProbe.attribution = .pending ∧ ends 37 5200 = (.network, some { port := 1, distance := 5200 }) ∧
    ends 37 5201 = (.venue, some { port := 1, distance := 5201 }) ∧ ends 38 5200 = (.pending, none) ∧
    (onProbe.settle 37 (settledCause .timeout 1 none 5200)).attribution = .unknown := by decide

/-- An outage record of `n` seconds of one cause. -/
def outOf (n : Nat) (v : CauseValue) : OutageRecord :=
  let c : LegCause := { held := some { value := v, brk := none }, situation := none, carried := none }
  { OutageRecord.opened 0 with seconds := n, main := c }
/-- A destination with the bands of section 10.6, `n` of them band 0. -/
def destOf (p : PortIx) (n : Nat) : Dest :=
  let counts : Residency :=
    { deliveredLive := n + 58, undeliveredLive := 0, bandLive := ⟨n, 40, 15, 3⟩, deliveredOver := 600,
      undeliveredOver := 0, bandOver := ⟨600, 0, 0, 0⟩ }
  { port := p, label := 1, account := some { DestAccount.initial with residency := counts } }
/-- Booking 23 of section 10.6. -/
def booking23 : Booking :=
  let records := [outOf 12 .network, outOf 30 .venue]
  { liveBooking with dests := [destOf 3 6200, destOf 6 6080], cut := some .sourceEnded,
                     outage := some { OutageState.initial with records := records } }

/-- Section 10.6: the two lines and the total of booking 23. -/
theorem test_worked_bill :
    let k := billOf 23 booking23 tariff6
    k.lines.map (·.charge) = [2968646, 2918646] ∧ k.total = 5887292 ∧ k.saturated = false ∧ k.kind = .completed ∧
      (k.outNetwork, k.outVenue, k.outUnknown) = (12, 30, 0) := by decide +kernel

/-- Section 10.7: the late cancel that falls on a tie, and the line at the ceiling. -/
theorem witness_ChargesAreRoundedAndBounded :
    let x := { terms with rate := 3, start := 64800, finish := 68401 }
    let t := { tariff6 with price := 1001, latePercent := 50 }
    x.start ≤ x.finish ∧ lateCancelCharge x t = (91592, false) ∧
    lateCancelCharge x { t with rounding := .floor } = (91591, false) ∧
    lateCancelCharge x { t with rounding := .ceiling } = (91592, false) ∧
    ceilCharge 4294967294 = (4294967294, false) ∧ ceilCharge 4294967295 = (4294967295, true) ∧
    ceilCharge 45297792000 = (4294967295, true) := by decide +kernel

/-! ## The laws of the whole device -/

/-- `fresh` with a command waiting. -/
def queuedFresh : State := { fresh with pending := [.timeRead op (some ())] }

theorem witness_StepsKeepTheLaws : queuedFresh.Inv ∧ ∃ t, step queuedFresh = .next t :=
  ⟨powerOn_inv _ _, _, rfl⟩

theorem fresh_free (b : BookingIx) : fresh.booking b = none := by
  simp [State.booking, fresh, State.powerOn]

theorem fresh_billsMatch : queuedFresh.BillsMatch where
  queued := List.nodup_nil
  closed := by
    intro b
    constructor
    · rintro ⟨x, hx, _⟩; exact absurd hx (by simp [queuedFresh, fresh, State.powerOn])
    · rintro ⟨r, hr, _⟩
      have h : queuedFresh.booking b = none := fresh_free b
      simp [h] at hr
  waits := List.nodup_nil
  closing := by intro x hx; exact absurd hx (by simp [queuedFresh, fresh, State.powerOn])

theorem witness_CapacityBoundIsKept : queuedFresh.CapacityInv ∧ ∃ t, step queuedFresh = .next t := by
  refine ⟨?_, _, rfl⟩
  have hc : queuedFresh.countedClaims = [] := by
    have h : ∀ i : BookingIx, queuedFresh.countedClaim i = none := fun i => by
      have e : queuedFresh.booking i = none := fresh_free i
      simp [State.countedClaim, e]
    simp [State.countedClaims, h]
  have he : queuedFresh.entries = [] := rfl
  have hs : queuedFresh.scan = none := rfl
  exact
    { bound := fun dir p n => by simp [State.load, hc]
      bills := fresh_billsMatch
      book := by intro e h; simp [he] at h
      once := by simp [he]
      extend := by intro e h; simp [he] at h
      candidate := by intro sc h; simp [hs] at h
      seen := by intro sc h; simp [hs] at h }

theorem witness_QueueHoldsTheClosedBookings :
    queuedFresh.CapacityInv ∧ queuedFresh.BillsMatch ∧ ∃ t, step queuedFresh = .next t :=
  ⟨witness_CapacityBoundIsKept.1, fresh_billsMatch, _, rfl⟩

/-- A LIVE record, its terms and the settings through a command that is no power-on and no frame. -/
theorem witness_LifecycleIsTheTable :
    live.bills = [] ∧ live.billWaiting = [] ∧ live.stateOf 0 = some .live ∧
    holds (exec (.close op (some 0)) live) (fun t => mayBecome (live.stateOf 0) (t.stateOf 0)) = true ∧
    mayBecome (some .live) (some .armed) = false := by decide +kernel

/-- R2: the live record's terms. -/
theorem witness_LifecycleIsTheTable_terms :
    live.booking 0 = some liveBooking ∧
    holds (exec (.close op (some 0)) live)
      (fun t => (t.booking 0).any fun (y : Booking) => 
        decide (y.fixedTerms.1 = liveBooking.fixedTerms.1 ∧ y.fixedTerms.2.2 = liveBooking.fixedTerms.2.2)) = true := by decide +kernel

theorem witness_SettingsHaveOneWriter :
    (∀ st, Instr.close op (some 0) ≠ .powerOn st) ∧ (∀ m p bytes, Instr.close op (some 0) ≠ .frameReceived m p bytes) ∧
    (∀ r a, Instr.close op (some 0) ≠ .timeSet r a) ∧ ∃ t, exec (.close op (some 0)) live = .next t :=
  ⟨fun _ => Instr.noConfusion, fun _ _ _ => Instr.noConfusion, fun _ _ => Instr.noConfusion, _, rfl⟩

theorem witness_RequestsReadBack_responses :
    responsePayload 127 .unavailable 0x0102 [9] = [255, 27, 1, 2, 9] := by decide +kernel

/-! ## Raises of one event, captures, kept frames, balances and labels -/

/-- R144, R145: the only fibre of a live feed cut: LOS, LEG_SILENT and FEED_LOST raised in that order, of which any may be
the one latched; all three set their flags. -/
theorem witness_LightLossTakesThePortDown_raises :
    let cut := ((sole.setLink 1 .down).raise .los (.ofPort 1) none).legSilent now 0 .main
    let is := fun (c : FaultClass) (t : State) =>
      t.capture.map (·.cls) = some c ∧ t.flags[FaultClass.los.ix] = true ∧ t.flags[FaultClass.legSilent.ix] = true ∧
        t.flags[FaultClass.feedLost.ix] = true ∧ t.raised = []
    (sole.port 1).link = .up ∧ sole.capture = none ∧ cut.raised.map (·.cls) = [.los, .legSilent, .feedLost] ∧
    is .los (cut.flush now) ∧ is .legSilent (cut.flush { now with raises := [3] }) ∧
    is .feedLost (cut.flush { now with raises := [6, 14] }) := by
  decide +kernel

/-- R145: two raises of two classes wait; the moment takes the second first. -/
theorem witness_FaultRequestsReadClearAndMask_raises :
    let s := (ready.raise .lof (.ofPort 3) none).raise .missed (.ofBooking 9) none
    s.raised.length = 2 ∧ s.capture = none ∧
    ((s.flush now).capture.map (·.cls)) = some .lof ∧
    ((s.flush { now with raises := [9] }).capture.map (·.cls)) = some .missed ∧
    answers (s.flush { now with raises := [9] }) 0 = (answers (s.flush now) 0).reverse := by decide +kernel

/-- R21, R83: a FREE record and index 256. -/
theorem witness_ExtendHandsOverTheTotal_free :
    let extend := fun i n => got ready (.extend op (some { index := i, seconds := n }))
    ready.booking 0 = none ∧ extend 256 1 = some [155, 18, 0, 7] ∧ extend 0 7200 = some [155, 20, 0, 7] ∧
    extend 0 7201 = some [155, 18, 0, 7] := by decide +kernel
theorem witness_ModeWritesTheMode_free :
    let mode := fun i c => got ready (.mode op (some { index := i, mode := c }))
    mode 256 0 = some [156, 18, 0, 7] ∧ mode 0 2 = some [156, 20, 0, 7] ∧ mode 0 3 = some [156, 18, 0, 7] := by
  decide +kernel

/-- A counter of lived bookings on port 3, at its top; one of booking 0's outage seconds by the second; a member. -/
def living : Counter := { Counter.initial with event := .liveBookings, scope := .port 3, value := 4294967295 }
def failing : Counter :=
  { Counter.initial with event := .outageSeconds, scope := .booking 0, threshold := 1, starting := false }
def halting : Counter := { Counter.initial with event := .liveBookings, member := true }
/-- The live booking in an outage second, with those counters. -/
def counted : State :=
  { withBooking { liveBooking with outage := some { OutageState.initial with touched := true } } 3000 with
    counters := (ready.counters.set 0 living).set 1 failing }

/-- R134 to R136, R138: at a boundary a raw counter takes the lived booking and wraps, a per-second one meets its threshold
by the outage second, and a frozen member keeps still. -/
theorem witness_CountersCountAndOverflow_boundary :
    let lived := [((0 : BookingIx), liveBooking)]
    let t := (counted.boundaryCount now [0] lived 0).boundaryCount now [0] lived 1
    let frozen := { counted with frozen := true, counters := ready.counters.set 2 halting }
    counted.restart = false ∧ (∀ j : CounterIx, (counted.counter j).action = .none ∧ (counted.counter j).member = false) ∧
    (counted.booking 0).map (fun x => (x.lived 3000, x.outageSecond 3000, x.usesPort 3)) = some (true, true, true) ∧
    (t.counter 0).value = 0 ∧ (t.counter 0).overflow = true ∧ (t.counter 1).value = 1 ∧
    (t.counter 1).previousMet = true ∧ (frozen.boundaryCount now [0] lived 2).counter 2 = halting := by decide +kernel

/-- R69, R89: an ARMED booking's frame, and one of a leg under WATCH, MANUAL or IDENT. -/
theorem witness_MediaIsForwarded_kept :
    let kept := fun (x : Booking) => holds
      (exec (.frameReceived now 1 (media 65530 0)) { live with bookings := live.bookings.set 0 (some x) })
      (fun t => decide ((t.booking 0).map (fun y => (y.main.state, y.merge, y.dests)) = some (.receiving, x.merge, x.dests) ∧
        (t.port 3).class1 = [] ∧ (t.port 4).class1 = [] ∧ (t.flowOf 1 10).map (·.tokens) = some 1999984))
    (live.flowOf 1 10).any (fun e => decide (16 ≤ (e.refill 0).tokens)) = true ∧
    kept { liveBooking with state := .armed, main := { liveBooking.main with state := .waiting }, outage := none } = true ∧
    kept { liveBooking with main := { liveBooking.main with exWatch := true } } = true ∧
    kept { liveBooking with main := { liveBooking.main with exManual := true } } = true ∧
    kept { liveBooking with state := .overrun, main := { liveBooking.main with exIdent := true } } = true := by
  decide +kernel

/-- R103: a trace of another probe than the one in flight. -/
theorem witness_ProbePassesItsPhases_other :
    holds (exec (.traceDelivered now { probe := 36, measured := .silence 64 }) (probing 1 .preSilence (some 0) dark))
      (fun t => decide (t.clock = 0 ∧ t.flight.map (·.phase) = some .preSilence)) = true := by decide +kernel

/-- R106: a run of two behind 210, an equal sample that starts the run again, and a higher sample that replaces. -/
theorem witness_PeaksAreDeclaredByRuns_search :
    let search := fun xs => searchPeaks 200 2 none ((List.zipIdx xs 5).map fun x => (x.2, x.1))
    search [150, 200] = [] ∧ search [150, 210, 200, 201, 9] = [{ index := 6, amplitude := 210 }] ∧
    search [210, 200, 210, 200] = [] ∧ search [210, 200, 220, 1, 2] = [{ index := 7, amplitude := 220 }] := by decide

/-- The live booking out of light on port 1, its cause pending on the waiting probe 40. -/
def awaitingProbe : State :=
  let cause : LegCause := { held := some { value := .pending 40, brk := none }, situation := some .dark, carried := none }
  let lost : OutageState :=
    { OutageState.initial with flag := true, touched := true, records := [{ OutageRecord.opened 3000 with main := cause }] }
  { queued with bookings := queued.bookings.set 0 (some { liveBooking with outage := some lost }) }

/-- The attributions of record 0's outages. -/
def causes (t : State) : List Attribution :=
  match (t.booking 0).bind (·.outage) with
  | some o => o.records.map (·.attribution)
  | none => []

/-- R108, R109, R122: the end of a waiting probe settles its causes UNKNOWN; RESTART would end both. -/
theorem witness_ProbesSettleCauses_waiting :
    causes awaitingProbe = [.pending] ∧ awaitingProbe.probeOf 1 = some 40 ∧ awaitingProbe.probedPorts.Nodup ∧
    awaitingProbe.heldNumbers = [37, 40] ∧ (awaitingProbe.port 1).link = .down ∧ awaitingProbe.restart = false ∧
    (awaitingProbe.port op.port).cls = .operator ∧
    awaitingProbe.countBookings (fun x => decide (x.state ∈ [.armed, .live, .overrun, .closing])) = 1 ∧
    holds (exec (.lightReturns now 1) awaitingProbe) (fun t => decide (causes t = [.unknown])) = true := by decide +kernel

/-- The sole leg's booking with `n` outages behind it. -/
def afterOutages (n : Nat) (link : Link) : State :=
  let cause : LegCause := { held := some { value := .unknown, brk := none }, situation := some .watch, carried := none }
  let past := { OutageRecord.opened 2500 with finish := some 2502, seconds := 3, main := cause }
  let had := { OutageState.initial with records := List.replicate n past }
  { withBooking { liveBooking with backup := none, outage := some had } 3000 with
    ports := ready.ports.set 1 { upPort .venue with link := link, autoProbe := true } }

/-- How many outages record 0 holds, and the main leg's situation and held cause in the open one. -/
def last (t : State) : Option (Nat × Option Situation × Option CauseValue) :=
  ((t.booking 0).bind (·.outage)).bind fun (o : OutageState) =>
    o.openRecord.map fun k => (o.records.length, k.main.situation, k.main.held.map (·.value))
/-- The open record's start, seconds, merged flag and attribution. -/
def merged (t : State) : Option (Nat × Nat × Bool × Attribution) :=
  ((t.booking 0).bind (·.outage)).bind fun (o : OutageState) =>
    o.openRecord.map fun k => (k.start, k.seconds, k.merged, k.attribution)

/-- R115 to R121: SOURCE on an UP port, LINE in LOF, a cause request on a dark one; the eighth outage takes record 8 and the
ninth reopens it, reporting the stronger of the carried UNKNOWN and the new VENUE. -/
theorem witness_OutageCausesAreCaptured :
    let lost := fun n link => exec (.silenceTimerExpiry now 0 .main) (afterOutages n link)
    (∀ i : CounterIx, ((afterOutages 7 .up).counter i).action = .none) ∧
    holds (lost 7 .up) (fun t => decide (last t = some (8, some .source, some .venue) ∧
      merged t = some (3000, 0, false, .venue))) = true ∧
    holds (lost 8 .up) (fun t => decide (last t = some (8, some .source, some .venue) ∧
      merged t = some (2500, 3, true, .unknown))) = true ∧
    holds (lost 0 .lof) (fun t => decide (last t = some (1, some .line, some .network))) = true ∧
    holds (lost 0 .acquiring) (fun t => decide (last t = some (1, some .dark, some .unknown))) = true ∧
    holds (lost 0 .down) (fun t => decide (last t = some (1, some .dark, some (.pending 0)) ∧ t.probeOf 1 = some 0)) = true ∧
    holds (lost 0 .up) (fun t => decide ((t.capture1 0 .main) = t ∧
      last ((t.setPort 1 { t.port 1 with link := .lof }).capture1 0 .main) = some (1, some .line, some .network))) = true := by
  decide +kernel

/-! ### The invariants over records -/

/-- `fresh` at second `sec` with these records and flow entries. -/
def table (sec : Nat) (x y : Option Booking) (flows : List FlowEntry) (deferred : List (BookingIx × LegId)) : State :=
  { fresh with sec := sec, bookings := (fresh.bookings.set 0 x).set 1 y, flows := flows, deferred := deferred }

theorem table_booking {sec : Nat} {x y : Option Booking} {flows : List FlowEntry}
    {deferred : List (BookingIx × LegId)} {b : BookingIx} {r : Booking}
    (h : (table sec x y flows deferred).booking b = some r) : (b = 0 ∧ x = some r) ∨ (b = 1 ∧ y = some r) := by
  simp only [State.booking, table, fresh, State.powerOn, Fin.getElem_fin] at h
  rw [Vector.getElem_set] at h
  split at h
  · next e => exact .inr ⟨Fin.ext (by simpa using e.symm), h⟩
  · rw [Vector.getElem_set] at h
    split at h
    · next e => exact .inl ⟨Fin.ext (by simpa using e.symm), h⟩
    · simp at h

/-- With no admission, no bill and no CLOSED record, and claims whose rates fit together on one port, the admission unit's
law holds. -/
theorem table_capacity {sec : Nat} {x y : Option Booking} {flows : List FlowEntry}
    {deferred : List (BookingIx × LegId)} (hx : ∀ r, x = some r → r.state ≠ .closed)
    (hy : ∀ r, y = some r → r.state ≠ .closed) {a : List Claim}
    (hc : (table sec x y flows deferred).countedClaims = a) (hr : (a.map (·.rate)).sum ≤ 940) :
    (table sec x y flows deferred).CapacityInv where
  bound := by
    intro dir p n
    have hp : ((table sec x y flows deferred).port p).capacity - ((table sec x y flows deferred).port p).reserve = 940 := by
      have : ∀ q : PortIx, (fresh.port q).capacity - (fresh.port q).reserve = 940 := by decide +kernel
      exact this p
    rw [hp, State.load, hc]
    exact Nat.le_trans (List.Sublist.sum_le_sum ((List.filter_sublist).map _) (by simp)) hr
  bills :=
    { queued := List.nodup_nil
      closed := by
        intro b
        constructor
        · rintro ⟨k, hk, _⟩; exact absurd hk (by simp [table, fresh, State.powerOn])
        · rintro ⟨r, hb, hs⟩
          rcases table_booking hb with ⟨_, e⟩ | ⟨_, e⟩
          · exact absurd hs (hx r e)
          · exact absurd hs (hy r e)
      waits := List.nodup_nil
      closing := by intro k hk; exact absurd hk (by simp [table, fresh, State.powerOn]) }
  book := by intro e h; exact absurd h (by simp [State.entries, table, fresh, State.powerOn])
  once := List.nodup_nil
  extend := by intro e h; exact absurd h (by simp [State.entries, table, fresh, State.powerOn])
  candidate := by intro sc h; exact absurd h (by simp [table, fresh, State.powerOn])
  seen := by intro sc h; exact absurd h (by simp [table, fresh, State.powerOn])

/-- The booking that went LIVE at its end second 7,000, with no allowance. -/
def handing : Booking := { liveBooking with start := 6000, finish := 7000, allowance := 0, liveFrom := some 7000 }
/-- The booking whose window begins there, on the same labels. -/
def arriving : Booking := { terms with state := .armed, start := 7060, finish := 9000 }
/-- Second 7,000: both legs of the second booking wait for the first one's keys. -/
def handover : State := table 7000 (some handing) (some arriving) [entry 1 10 .main, entry 2 11 .backup]
  [(1, .main), (1, .backup)]

/-- R60, R62: the after-window second, in which a destination's label is shared and two legs wait deferred. -/
theorem witness_LabelsStayApart : handover.LabelInv ∧ handover.sec < 4294967295 ∧ (∃ t, step handover = .next t) ∧
    handing.AfterWindow handover.sec ∧ OneHandsOver handing arriving handover.sec := by
  have record : ∀ {b r}, handover.booking b = some r → (b = 0 ∧ r = handing) ∨ (b = 1 ∧ r = arriving) := by
    intro b r h
    rcases table_booking h with ⟨e, h⟩ | ⟨e, h⟩
    · exact .inl ⟨e, (Option.some.inj h).symm⟩
    · exact .inr ⟨e, (Option.some.inj h).symm⟩
  have b0 : handover.booking 0 = some handing := by decide +kernel
  have b1 : handover.booking 1 = some arriving := by decide +kernel
  have c0 : handover.countedClaim 0 = some (handing.claim 0) := by decide +kernel
  have c1 : handover.countedClaim 1 = some (arriving.claim 600) := by decide +kernel
  have a0 : handing.AfterWindow handover.sec := ⟨by decide, by decide, by decide, by decide +kernel⟩
  refine ⟨?_, by decide +kernel, ⟨_, rfl⟩, a0, a0, by decide, by decide +kernel⟩
  exact
    { capacity := table_capacity (a := [handing.claim 0, arriving.claim 600])
        (by rintro _ ⟨⟩; decide) (by rintro _ ⟨⟩; decide) (by decide +kernel) (by decide)
      flows :=
        { keys := by show (handover.flows.map fun e => (e.port, e.label)).Nodup; decide +kernel
          entry := by
            intro e h
            have h : e = entry 1 10 .main ∨ e = entry 2 11 .backup := by simpa [handover, table] using h
            rcases h with rfl | rfl
            · exact ⟨handing, _, b0, by decide, rfl, by decide, by decide⟩
            · exact ⟨handing, _, b0, by decide, rfl, by decide, by decide⟩
          leg := by
            intro b r l lg h _ _
            rcases record h with ⟨rfl, rfl⟩ | ⟨rfl, rfl⟩ <;> cases l <;> decide +kernel
          deferred := by
            intro d h
            have h : d = (1, LegId.main) ∨ d = (1, .backup) := by simpa [handover, table] using h
            rcases h with rfl | rfl
            · exact ⟨arriving, _, b1, by decide, rfl, by decide +kernel⟩
            · exact ⟨arriving, _, b1, by decide, rfl, by decide +kernel⟩
          once := by decide +kernel }
      terms := by
        intro b r h
        rcases record h with ⟨_, rfl⟩ | ⟨_, rfl⟩
        · exact ⟨by decide, by decide, by decide, by decide, by decide⟩
        · exact ⟨by decide, by decide, by decide, by decide, by decide⟩
      extend := by intro e h; exact absurd h (by simp [State.entries, handover, table, fresh, State.powerOn])
      once := List.nodup_nil
      window := by
        intro b r h _
        rcases record h with ⟨_, rfl⟩ | ⟨_, rfl⟩
        · exact ⟨by decide +kernel, by decide, by decide +kernel, .inr a0⟩
        · exact ⟨by decide +kernel, by decide +kernel, by decide, .inl (by decide +kernel)⟩
      deferred := by
        intro d h r hb
        have h : d = (1, LegId.main) ∨ d = (1, .backup) := by simpa [handover, table] using h
        have e : r = arriving := by
          rcases h with rfl | rfl <;> exact Option.some.inj (hb.symm.trans b1)
        subst e; decide +kernel
      labels := by
        intro i j a c hij ha hc
        have rd : ∀ {i a}, handover.countedClaim i = some a →
            (i = 0 ∧ a = handing.claim 0) ∨ (i = 1 ∧ a = arriving.claim 600) := by
          intro i a h
          obtain ⟨r, hr, hrc⟩ := Option.bind_eq_some_iff.1 h
          rcases record hr with ⟨rfl, _⟩ | ⟨rfl, _⟩
          · exact .inl ⟨rfl, Option.some.inj (h.symm.trans c0)⟩
          · exact .inr ⟨rfl, Option.some.inj (h.symm.trans c1)⟩
        rcases rd ha with ⟨rfl, rfl⟩ | ⟨rfl, rfl⟩ <;> rcases rd hc with ⟨rfl, rfl⟩ | ⟨rfl, rfl⟩
        · exact absurd rfl hij
        · intro _ h; exact absurd h (by decide)
        · intro h; exact absurd h (by decide)
        · exact absurd rfl hij }

/-- The booking live since 2,000 after 1,000 seconds, 12 of them outage seconds, its second outage open. -/
def balanced : Booking :=
  let counts : Residency :=
    { Residency.zero with deliveredLive := 988, undeliveredLive := 12, bandLive := ⟨980, 8, 0, 0⟩ }
  { liveBooking with
    dests := terms.dests.map fun d => { d with account := some { DestAccount.initial with residency := counts } }
    outage := some { flag := true, touched := true, run := 2, records := [
      { OutageRecord.opened 2100 with finish := some 2109, seconds := 10 }, { OutageRecord.opened 2998 with seconds := 2 }] } }

/-- R124, R128: 1,000 lived seconds in balance, and the boundary that takes the next one. -/
theorem witness_SecondsStayBalanced :
    (table 3000 (some balanced) none [] []).SecondsInv ∧ balanced.SecondsOk 3000 ∧ balanced.forwarding = true ∧
    (∃ t, step { table 3000 (some balanced) none [] [] with pending := [.secondBoundary now] } = .next t) ∧
    ((balanced.takeSecond 3000 (Vector.replicate 16 true) tariff6).outage.map (·.seconds)) = some 13 := by
  have h : balanced.SecondsOk 3000 :=
    { before := by decide
      running := by decide
      ended := by decide
      times := by rintro _ ⟨⟩; exact ⟨by decide, by rintro _ ⟨⟩⟩
      balance := by
        rintro _ ⟨⟩
        refine ⟨_, rfl, by decide, ?_⟩
        intro d hd
        have hd : d = balanced.dests[0] ∨ d = balanced.dests[1] := by
          simpa [balanced, terms] using hd
        rcases hd with rfl | rfl
        · exact ⟨_, rfl, by decide, by decide, by decide, by decide, by decide⟩
        · exact ⟨_, rfl, by decide, by decide, by decide, by decide, by decide⟩
      outage := by rintro _ _ ⟨⟩; decide }
  refine ⟨⟨table_capacity (a := [balanced.claim 600]) (by rintro _ ⟨⟩; decide) (by rintro _ ⟨⟩) (by decide +kernel)
    (by decide), ?_⟩, h, by decide, ⟨_, rfl⟩, by decide +kernel⟩
  intro b r hb
  rcases table_booking hb with ⟨_, e⟩ | ⟨_, e⟩
  · cases e; exact h
  · exact absurd e (by simp)

/-! ## Orders of a response, a probe's end by PORT SET, and boundaries of a restart -/

/-- Section 1.3: a LIVE record under the booking table's laws. -/
theorem witness_LifecycleIsTheTable_inv :
    (table 3000 (some liveBooking) none [] []).CapacityInv ∧ (table 3000 (some liveBooking) none [] []).stateOf 0 = some .live :=
  ⟨table_capacity (a := [liveBooking.claim 600]) (by rintro _ ⟨⟩; decide) (by rintro _ ⟨⟩) (by decide +kernel) (by decide),
    by decide +kernel⟩

/-- R145, R56: a late cancel's BILL_WAIT and the CONTROL_DROP of its response, every control queue full: either may be the
one latched, and both flags are set; with room, the notice stands before the response or behind it. -/
theorem witness_FaultRequestsReadClearAndMask_response :
    let s := billed 64 (withBooking { terms with start := 100000, finish := 103600 } 13601)
    let cancel := fun n => Instr.cancel { op with m := { now with afterAnswer := n } } (some 0)
    let raised := full (ready.raise .missed (.ofBooking 9) none)
    let latched := fun n => (raised.respond { op with m := { now with afterAnswer := n } } 25 .ok []).capture.map (·.cls)
    let classes := fun n => holds (exec (cancel n) (full s)) fun t =>
      decide (t.flags[FaultClass.billWait.ix] = true ∧ t.flags[FaultClass.controlDrop.ix] = true ∧
        t.capture.map (·.cls) = some (if n = 0 then FaultClass.billWait else .controlDrop))
    raised.raised.length = 1 ∧ raised.capture = none ∧ (raised.port 0).control.length = 16 ∧
    latched 0 = some .missed ∧ latched 1 = some .controlDrop ∧ classes 0 = true ∧ classes 1 = true ∧
    holds (exec (cancel 0) s) (fun t => decide ((answers t 0).map (·.take 2) = [[255, 11], [153, 0]])) = true ∧
    holds (exec (cancel 1) s) (fun t => decide ((answers t 0).map (·.take 2) = [[153, 0], [255, 11]])) = true := by
  decide +kernel

/-- R44, R109: port 1 set OFF with its probe in flight, waiting, or none. -/
theorem witness_PortSetWritesTheSettings_probe :
    let off := Instr.portSet op (some { port := 1, role := 0, capacity := 960, reserve := 20, demarcation := 0, cls := 0,
                                        autoProbe := false })
    let ended := fun (n : ProbeNo) (t : State) =>
      decide (t.flags[FaultClass.probeDone.ix] = true ∧ t.probeOf 1 = none ∧
        t.lastResults[(1 : PortIx)].map (fun x => (x.number, x.outcome)) = some (n, .aborted))
    ready.NoActions ∧ (dark.port 1).role ≠ .off ∧ queued.probedPorts.Nodup ∧ dark.probeOf 1 = none ∧
    holds (exec off (probing 1 .preSilence (some 0) dark)) (ended 37) = true ∧
    holds (exec off queued) (fun t => ended 40 t && decide (t.flight = queued.flight)) = true ∧
    holds (exec off dark) (fun t => decide (t.lastResults[(1 : PortIx)] = none ∧ (t.port 1).role = .off)) = true :=
  ⟨fun i => noActions_ready i, by decide +kernel⟩

/-- The live booking marked by a RESTART. -/
def closing : State := { withBooking { liveBooking with restartClose := true } 3000 with restart := true }

/-- R24: the boundary that closes the last marked booking completes the restart. -/
theorem witness_RestartCompletes_last :
    closing.NoActions ∧ closing.billWaiting = [] ∧ closing.restart = true ∧ closing.bills = [] ∧
    closing.countBookings (fun x => decide (x.state ∈ [.armed, .live, .overrun])) = 1 ∧
    (closing.booking 0).all (fun x => x.restartClose && x.settled) = true ∧
    holds (exec (.secondBoundary now) closing)
      (fun t => decide (t.restart = false ∧ t.startCause = .restart ∧ t.stateOf 0 = some .closed ∧
        t.bills.map (fun k => (k.booking, k.cut, k.closeSecond)) = [(0, .restart, 3001)])) = true :=
  ⟨fun i => noActions_ready i, by decide +kernel⟩

/-- R12: a CONFIRMED record whose window has begun, during a restart that a CLOSING booking holds open, and during one that
completes. -/
theorem witness_BoundaryArmsAndGoesLive_restart :
    let s := { withBooking terms 1939 with restart := true }
    let held := { s with bookings := s.bookings.set 1 (some { inState .closing with closeSecond := some 1900 }) }
    (held.booking 0 = some terms ∧ held.restart = true) ∧
    holds (exec (.secondBoundary now) held)
      (fun t => decide (t.restart = true ∧ t.booking 0 = some terms ∧ t.flows = [])) = true ∧
    holds (exec (.secondBoundary now) s) (fun t => decide (t.restart = false ∧ t.booking 0 = none)) = true := by
  decide +kernel

/-- The CLOSING record that holds that restart open. -/
def holding : Booking := { inState .closing with closeSecond := some 1900 }

/-- R62: there the flow table agrees with the booking table. -/
theorem witness_BoundaryArmsAndGoesLive_flows : (table 1939 (some terms) (some holding) [] []).FlowsMatch where
  keys := List.nodup_nil
  entry := by intro e h; exact absurd h (by simp [table])
  leg := by
    intro b r l lg h hc
    rcases table_booking h with ⟨_, e⟩ | ⟨_, e⟩ <;> cases e <;> exact absurd hc (by decide)
  deferred := by intro d h; exact absurd h (by simp [table])
  once := List.nodup_nil

/-- R156 to R161: the live booking closed early at 3,001 with an outage of 10 seconds behind it and room for its bill; the
queue full, the same bill waits. -/
theorem witness_BoundaryRunsOrCloses_bill :
    let cause : LegCause := { held := some { value := .venue, brk := none }, situation := some .source, carried := none }
    let past := { OutageRecord.opened 2100 with finish := some 2109, seconds := 10, main := cause, backup := cause }
    let x : Booking :=
      { liveBooking with closeReq := some .closedEarly, outage := some { OutageState.initial with records := [past] } }
    let s := withBooking x 3000
    let right := fun (y : Booking) (k : Bill) =>
      decide (k.lines = y.dests.map (lineOf y tariff6) ∧ (k.total, k.saturated) = totalOf k.lines ∧
        (k.liveFrom, k.liveTo, k.liveSeconds, k.overSeconds) = (some 2000, some 3001, 1001, 0) ∧
        (k.outNetwork, k.outVenue, k.outUnknown) = (0, 10, 0) ∧ (k.kind, k.cut, k.closeSecond) = (.cut, .closedEarly, 3001) ∧
        k.outages.map (fun o => (o.start, o.finish, o.seconds, o.attribution)) = [(2100, some 2109, 10, .venue)])
    s.NoActions ∧ (s.booking 0 = some x ∧ x.settled = true ∧ s.billWaiting = [] ∧
    holds (exec (.secondBoundary now) s)
      (fun t => (t.booking 0).any fun y => decide (y.state = .closed) && t.bills.any (right y)) = true ∧
    holds (exec (.secondBoundary now) (billed 64 s))
      (fun t => (t.booking 0).any fun y => decide (y.state = .closing) && t.billWaiting.any (right y)) = true) :=
  ⟨noActions_withBooking _ _, by decide +kernel⟩

/-- R160, R161: the late cancel of 3,600 s at rate 20: 20 × 1,250 × 60 × 35 / 100 = 525,000, and nothing lived. -/
theorem witness_CancelActsByTheState_bill :
    holds (exec (.cancel op (some 0)) (withBooking { terms with start := 100000, finish := 103600 } 13601))
      (fun t => t.bills.any fun k => decide (k.booking = 0 ∧ k.kind = .lateCancel ∧ k.total = 525000 ∧ k.saturated = false ∧
        k.lines = [] ∧ k.outages = [] ∧ k.liveFrom = none ∧ k.closeSecond = 13601)) = true := by decide +kernel

/-- The live booking with three copies waiting on port 3: two of its first destination, and one of a FREE record. -/
def queuedMedia : State :=
  let copy := fun (b : BookingIx) =>
    ({ booking := b, position := 1, label := 20, flags := 0, seq := 1, payload := [] } : MediaCopy)
  { live with ports := live.ports.set 3 { upPort .taker with class1 := [copy 0, copy 7], class2 := [copy 0] } }

/-- The second and total egress-drop counts of record 0's destinations. -/
def drops (t : State) : List (Option (Nat × Nat)) :=
  match t.booking 0 with
  | some y => y.dests.map fun d => d.account.map fun a => (a.secondDrops, a.totalDrops)
  | none => []

/-- R55, R73: what a port leaving UP makes of those copies; and a role that becomes OFF, where the booking, of no port in
use, is EXPIRED and nothing is counted. -/
theorem witness_MediaDropped :
    let off := Instr.portSet op (some { port := 3, role := 0, capacity := 960, reserve := 20, demarcation := 0, cls := 0,
                                        autoProbe := false })
    let left := (queuedMedia.setLink 3 .down).emptyMedia now 3
    (queuedMedia.port 3).link = .up ∧ (queuedMedia.port 3).role = .taker ∧ queuedMedia.stateOf 0 = some .live ∧
    drops left = [some (2, 2), some (0, 0)] ∧ (left.port 3).class1 = [] ∧ (left.port 3).class2 = [] ∧
    holds (exec off { queuedMedia with bookings := queuedMedia.bookings.set 0 (some { liveBooking with state := .expired }) })
      (fun t => decide (drops t = [some (0, 0), some (0, 0)] ∧ (t.port 3).class1 = [])) = true := by decide +kernel

/-- R10: the record BOOK writes: no counts, no exclusion, no timer. -/
theorem witness_BookAllocatesTheLowestRecord_clear :
    holds (exec (.book op (some bookArgs)) ready)
      (fun t => (t.booking 0).any fun x => decide (x.dests.map (·.account) = [none, none] ∧
        x.legs.map (fun l => (l.exIdent || l.exWatch || l.exManual, l.ident, l.identAt, l.silenceAt)) =
          [(false, none, none, none), (false, none, none, none)])) = true := by decide +kernel

end Sys2Proof.Tests
end

section
/-! The work of the merge unit, the outage tracker and the watch counters, said once as a chain of small changes: each
operation of theirs is such a chain, and what every such chain leaves alone is proved by induction over it. -/

namespace Sys2Proof.Machine
open Sys2Proof.Config

/-! ## Chains of small changes -/

/-- What a chain may touch: the records by index and state, the ports whose media queues may change, and whether the watch
counters may. -/
structure Reach where
  record : BookingIx → BookingState → Prop
  media : PortIx → Prop
  counters : Prop

/-- The classes that the merge unit, the forwarding engine and the watch counters raise (section 9.1). -/
def FaultClass.ofWork (c : FaultClass) : Prop := c ∈ [.legSilent, .wrongSource, .excess, .feedLost, .watchOverflow]

/-- One small change: a record keeps its terms, flags, times and state (R5); the counters and the frozen indication; a
raise; a probe request, which a restart in progress excludes (R97, R99 to R101); the media queues of a port. -/
inductive Touch (R : Reach) : State → State → Prop where
  | record {s : State} {b : BookingIx} {r r' : Booking} (h : s.booking b = some r) (reach : R.record b r.state)
      (bare : r'.bare = r.bare) (state : r'.state = r.state) : Touch R s (s.setBooking b (some r'))
  | counters {s : State} (reach : R.counters) (v : Vector Counter 8) (f : Bool) :
      Touch R s { s with counters := v, frozen := f }
  | raise {s : State} {c : FaultClass} (h : c.ofWork) (it : RaiseItems) (d : Option Detail) :
      Touch R s (s.raise c it d)
  | probe {s : State} (h : s.restart = false) (p : PortIx) : Touch R s (s.probeRequest p).1
  | media {s : State} {p : PortIx} {x : Port} (reach : R.media p)
      (same : { x with class1 := (s.port p).class1, class2 := (s.port p).class2 } = s.port p)
      (ok : (s.port p).MediaOk → x.MediaOk) : Touch R s (s.setPort p x)

/-- A chain of small changes. -/
def Work (R : Reach) : State → State → Prop := Relation.ReflTransGen (Touch R)

variable {R : Reach} {s t u : State}

theorem Work.refl (s : State) : Work R s s := Relation.ReflTransGen.refl
theorem Work.of (h : Touch R s t) : Work R s t := Relation.ReflTransGen.single h
theorem Work.trans (h : Work R s t) (k : Work R t u) : Work R s u := Relation.ReflTransGen.trans h k
/-- The same, the later part first. -/
theorem Work.after (k : Work R t u) (h : Work R s t) : Work R s u := h.trans k

/-! ## What a chain leaves alone -/

/-- A probe request touches the reflectometer's queue and, when the probe enters flight, its port's line. -/
theorem probeRequest_rest (p : PortIx) (s : State) :
    (s.probeRequest p).1 = { s with ports := (s.probeRequest p).1.ports, flight := (s.probeRequest p).1.flight,
                                    probeWaiting := (s.probeRequest p).1.probeWaiting,
                                    probeCounter := (s.probeRequest p).1.probeCounter } := by
  unfold State.probeRequest
  split
  · rfl
  · split
    · rfl
    · dsimp only
      split
      · unfold State.enterFlight; dsimp only; split <;> rfl
      · rfl

theorem probeRequest_sameMedia (p q : PortIx) (s : State) : SameMedia (s.port q) ((s.probeRequest p).1.port q) := by
  have idle : ∀ t : State, SameMedia (t.port q) ((t.setPort p { t.port p with sending := none }).port q) := by
    intro t
    rw [State.setPort_port]
    split
    · next e => subst e; exact ⟨rfl, rfl⟩
    · exact ⟨rfl, rfl⟩
  unfold State.probeRequest
  split
  · exact ⟨rfl, rfl⟩
  · split
    · exact ⟨rfl, rfl⟩
    · dsimp only
      split
      · unfold State.enterFlight
        dsimp only
        split
        · exact ⟨rfl, rfl⟩
        · exact idle { s with probeCounter := s.nextNumber + 1 }
      · exact ⟨rfl, rfl⟩

/-- A chain is the work of an event. -/
theorem Touch.later (h : Touch R s t) : Later s t := by
  cases h with
  | record h _ bare _ => exact later_setBooking h bare
  | counters _ v f => exact .of_eq rfl rfl rfl rfl rfl rfl rfl rfl rfl fun _ => rfl
  | raise _ it d => exact later_raise ..
  | probe _ p => exact later_probeRequest p s
  | @media p x _ same ok =>
    have control : x.control = (s.port p).control := by have := congrArg Port.control same; exact this
    refine later_setPort ?_ (by rw [control]) (by rw [control]; exact id) ok
    have := congrArg Port.face same
    exact this

theorem Work.later (h : Work R s t) : Later s t := by
  induction h with
  | refl => exact .refl s
  | tail _ k ih => exact ih.trans k.later

theorem Work.restart (h : Work R s t) : t.restart = s.restart := h.later.restart

/-- A property of both ends that every small change has and that chains along holds of a chain. -/
theorem Work.chain {P : State → State → Prop} (h : Work R s t) (refl : ∀ s, P s s)
    (trans : ∀ {s t u}, P s t → P t u → P s u) (touch : ∀ {s t}, Touch R s t → P s t) : P s t := by
  induction h with
  | refl => exact refl s
  | tail _ k ih => exact trans ih (touch k)

theorem Work.stateOf (h : Work R s t) (b : BookingIx) : t.stateOf b = s.stateOf b := by
  refine h.chain (P := fun s t => t.stateOf b = s.stateOf b) (fun _ => rfl) (fun h k => k.trans h) fun {s t} k => ?_
  cases k with
  | @record c r r' h _ _ state =>
    by_cases e : b = c
    · subst e; simp [State.stateOf, h, state]
    · simp [State.stateOf, e]
  | probe _ p =>
    have : (s.probeRequest p).1.bookings = s.bookings := by rw [probeRequest_rest]
    simp [State.stateOf, State.booking_congr this]
  | counters => rfl
  | raise => rfl
  | media => rfl

/-- A record that the chain may not touch is the same. -/
theorem Work.booking (h : Work R s t) {b : BookingIx} (hb : ∀ r, s.booking b = some r → ¬ R.record b r.state) :
    t.booking b = s.booking b := by
  induction h with
  | refl => rfl
  | @tail u v hu k ih =>
    rw [← ih]
    cases k with
    | @record c r r' h reach _ _ =>
      by_cases e : b = c
      · subst e; exact absurd reach (hb r (by rw [← ih]; exact h))
      · simp [e]
    | probe _ p =>
      have : (u.probeRequest p).1.bookings = u.bookings := by rw [probeRequest_rest]
      exact State.booking_congr this b
    | counters => rfl
    | raise => rfl
    | media => rfl

/-- The bills, the flow table and the last results are the same. -/
theorem Work.tables (h : Work R s t) : t.bills = s.bills ∧ t.billWaiting = s.billWaiting ∧ t.flows = s.flows ∧
    t.lastResults = s.lastResults := by
  refine h.chain (P := fun s t => t.bills = s.bills ∧ t.billWaiting = s.billWaiting ∧ t.flows = s.flows ∧
    t.lastResults = s.lastResults) (fun _ => ⟨rfl, rfl, rfl, rfl⟩) ?_ fun {s t} k => ?_
  · rintro _ _ _ ⟨h1, h2, h3, h4⟩ ⟨k1, k2, k3, k4⟩
    exact ⟨k1.trans h1, k2.trans h2, k3.trans h3, k4.trans h4⟩
  · cases k with
    | probe _ p => rw [probeRequest_rest]; exact ⟨rfl, rfl, rfl, rfl⟩
    | record => exact ⟨rfl, rfl, rfl, rfl⟩
    | counters => exact ⟨rfl, rfl, rfl, rfl⟩
    | raise => exact ⟨rfl, rfl, rfl, rfl⟩
    | media => exact ⟨rfl, rfl, rfl, rfl⟩

theorem Work.bills (h : Work R s t) : t.bills = s.bills := h.tables.1
theorem Work.billWaiting (h : Work R s t) : t.billWaiting = s.billWaiting := h.tables.2.1
theorem Work.flows (h : Work R s t) : t.flows = s.flows := h.tables.2.2.1
theorem Work.lastResults (h : Work R s t) : t.lastResults = s.lastResults := h.tables.2.2.2

theorem Work.sameMedia (h : Work R s t) {p : PortIx} (hp : ¬ R.media p) : SameMedia (s.port p) (t.port p) := by
  refine h.chain (P := fun s t => SameMedia (s.port p) (t.port p)) (fun _ => ⟨rfl, rfl⟩)
    (fun h k => ⟨k.1.trans h.1, k.2.trans h.2⟩) fun {s t} k => ?_
  cases k with
  | @media q x reach _ _ =>
    have : p ≠ q := fun e => hp (e ▸ reach)
    simp [SameMedia, this]
  | probe _ q => exact probeRequest_sameMedia q p s
  | record => exact ⟨rfl, rfl⟩
  | counters => exact ⟨rfl, rfl⟩
  | raise => exact ⟨rfl, rfl⟩

theorem Work.counters (h : Work R s t) (hc : ¬ R.counters) : t.counters = s.counters := by
  refine h.chain (P := fun s t => t.counters = s.counters) (fun _ => rfl) (fun h k => k.trans h) fun {s t} k => ?_
  cases k with
  | counters reach => exact absurd reach hc
  | probe _ p => rw [probeRequest_rest]
  | record => rfl
  | raise => rfl
  | media => rfl

/-- The raises made before stand, with others of the classes of this work behind them. -/
theorem Work.raised (h : Work R s t) : ∃ l, t.raised = s.raised ++ l ∧ ∀ x ∈ l, x.cls.ofWork := by
  refine h.chain (P := fun s t => ∃ l, t.raised = s.raised ++ l ∧ ∀ x ∈ l, x.cls.ofWork) (fun _ => ⟨[], by simp⟩) ?_
    fun {s t} k => ?_
  · rintro _ _ _ ⟨l, h, hl⟩ ⟨l', k, kl⟩
    refine ⟨l ++ l', by simp [k, h], fun x hx => ?_⟩
    rcases List.mem_append.1 hx with hx | hx
    exacts [hl x hx, kl x hx]
  · cases k with
    | @raise c h it d => exact ⟨[{ cls := c, items := it, detail := d }], rfl, by simpa using h⟩
    | probe _ p => exact ⟨[], by rw [probeRequest_rest]; simp⟩
    | record => exact ⟨[], by simp⟩
    | counters => exact ⟨[], by simp⟩
    | media => exact ⟨[], by simp⟩

/-- During a restart no probe begins (R99 to R101). -/
theorem Work.probes (h : Work R s t) (hr : s.restart = true) : t.flight = s.flight ∧ t.probeWaiting = s.probeWaiting := by
  induction h with
  | refl => exact ⟨rfl, rfl⟩
  | @tail u v hu k ih =>
    have hu : u.restart = true := (Work.restart hu).trans hr
    obtain ⟨h1, h2⟩ := ih
    rw [← h1, ← h2]
    cases k with
    | probe h p => rw [hu] at h; cases h
    | record => exact ⟨rfl, rfl⟩
    | counters => exact ⟨rfl, rfl⟩
    | raise => exact ⟨rfl, rfl⟩
    | media => exact ⟨rfl, rfl⟩

/-! ## The operations are chains -/

theorem work_foldl {α : Type} {f : State → α → State} (h : ∀ s x, Work R s (f s x)) (l : List α) (s : State) :
    Work R s (l.foldl f s) := by
  induction l generalizing s with
  | nil => exact .refl s
  | cons x l ih => exact (h s x).trans (ih _)

/-- The record `b` of `s`, if there is one, lies within reach. -/
def Reach.has (R : Reach) (s : State) (b : BookingIx) : Prop := ∀ r, s.booking b = some r → R.record b r.state

theorem Reach.has_congr {b : BookingIx} (h : R.has s b) (e : t.stateOf b = s.stateOf b) : R.has t b := by
  intro r hr
  simp only [State.stateOf, hr, Option.map_some] at e
  obtain ⟨r', hr', e'⟩ := Option.map_eq_some_iff.1 e.symm
  rw [← e']; exact h r' hr'

theorem Work.has (k : Work R s t) {b : BookingIx} (h : R.has s b) : R.has t b :=
  Reach.has_congr h (k.stateOf b)

theorem work_updBooking {b : BookingIx} {f : Booking → Booking} (h : R.has s b) (bare : ∀ r, (f r).bare = r.bare)
    (state : ∀ r, (f r).state = r.state) : Work R s (s.updBooking b f) := by
  unfold State.updBooking
  split
  · exact .refl s
  · next r hr => exact .of (.record hr (h r hr) (bare r) (state r))

theorem updLeg_state (r : Booking) (l : LegId) (f : Leg → Leg) : (r.updLeg l f).state = r.state := by cases l <;> rfl

theorem work_updLeg {b : BookingIx} {l : LegId} {f : Leg → Leg} (h : R.has s b) (bare : ∀ x, (f x).bare = x.bare) :
    Work R s (s.updBooking b fun r => r.updLeg l f) :=
  work_updBooking h (fun r => updLeg_bare r l bare) fun r => updLeg_state r l f

theorem work_probeRequest (p : PortIx) (h : s.restart = false) : Work R s (s.probeRequest p).1 := .of (.probe h p)

theorem work_causeRequest (p : PortIx) (s : State) : Work R s (s.causeRequest p).1 := by
  unfold State.causeRequest
  split
  · exact .refl s
  · split
    · next h => exact work_probeRequest p (by simp_all)
    · exact .refl s

theorem work_autoProbe (p : PortIx) (s : State) : Work R s (s.autoProbe p) := by
  unfold State.autoProbe
  split
  · next h => exact work_probeRequest p (by simp_all)
  · exact .refl s

theorem work_actionProbe (p : PortIx) (s : State) : Work R s (s.actionProbe p) := by
  unfold State.actionProbe
  split
  · next h => exact work_probeRequest p (by simp_all)
  · exact .refl s

theorem work_causeFor (sit : Situation) (p : PortIx) (s : State) : Work R s (s.causeFor sit p).1 := by
  unfold State.causeFor
  cases sit with
  | dark =>
    dsimp only
    split
    · have := work_causeRequest (R := R) p s
      split <;> next h => simpa [h] using this
    · exact .refl s
  | line => exact .refl s
  | ident => exact .refl s
  | watch => exact .refl s
  | source => exact .refl s

theorem work_capture1 {b : BookingIx} (h : R.has s b) (l : LegId) : Work R s (s.capture1 b l) := by
  unfold State.capture1
  split
  · exact .refl s
  · split
    · split
      · exact .refl s
      · split
        · exact .refl s
        · split
          · exact .refl s
          · have k := work_causeFor (R := R) ‹_› ‹Leg›.port s
            exact k.trans (work_updBooking (k.has h) (fun _ => rfl) fun _ => rfl)
    · exact .refl s

theorem work_captureLegs {b : BookingIx} (ls : List LegId) (h : R.has s b) : Work R s (s.captureLegs b ls) := by
  unfold State.captureLegs
  induction ls generalizing s with
  | nil => exact .refl s
  | cons l ls ih =>
    have k := work_capture1 h l
    exact k.trans (ih (k.has h))

theorem work_trackEntry (m : Moment) {b : BookingIx} (h : R.has s b) : Work R s (s.trackEntry m b) := by
  have k : Work R s (s.updBooking b fun r => r.updOutage (·.enter s.sec)) :=
    work_updBooking h (fun _ => rfl) fun _ => rfl
  exact k.trans (work_captureLegs _ (k.has h))

theorem work_enterOutage (m : Moment) {b : BookingIx} (h : R.has s b) : Work R s (s.enterOutage m b) :=
  (Work.of (.raise (by simp [FaultClass.ofWork]) _ _)).trans (work_trackEntry m h)

theorem work_exitOutage {b : BookingIx} (h : R.has s b) : Work R s (s.exitOutage b) := by
  have k : Work R s (s.updBooking b fun r => { r with merge := r.merge.map fun x => { x with resync := true } }) :=
    work_updBooking h (fun _ => rfl) fun _ => rfl
  exact k.trans (work_updBooking (k.has h) (fun _ => rfl) fun _ => rfl)

/-- The judgement touches its own booking alone, and only in LIVE or OVERRUN (R93). -/
theorem work_judge (m : Moment) {b : BookingIx} (ls : List LegId)
    (h : ∀ r, s.booking b = some r → r.forwarding = true → R.record b r.state) : Work R s (s.judge m b ls) := by
  unfold State.judge
  split
  · exact .refl s
  · next r hr =>
    split
    · next hf =>
      have hb : R.has s b := fun r' hr' => by rw [hr] at hr'; cases hr'; exact h r hr hf
      split
      · split
        · exact work_exitOutage hb
        · exact work_captureLegs _ hb
      · split
        · exact .refl s
        · exact work_enterOutage m hb
    · exact .refl s

/-- A judgement of a record within reach. -/
theorem work_judge_has (m : Moment) {b : BookingIx} (ls : List LegId) (h : R.has s b) : Work R s (s.judge m b ls) :=
  work_judge m ls fun r hr _ => h r hr

theorem work_identFrame (m : Moment) {b : BookingIx} (l : LegId) (payload : List Byte) (h : R.has s b) :
    Work R s (s.identFrame m b l payload) := by
  unfold State.identFrame
  split
  · exact .refl s
  · split
    · exact .refl s
    · split
      · exact .refl s
      · split
        · have k : Work R s (s.updBooking b fun r => r.updLeg l fun x =>
              { x with ident := some .matched, identAt := none, exIdent := false }) := work_updLeg h fun _ => rfl
          exact k.trans (work_judge_has m _ (k.has h))
        · next lg _ _ _ =>
          have k : Work R s (s.updBooking b fun r => r.updLeg l fun x =>
              { x with ident := some .mismatched, identAt := none, exIdent := true }) := work_updLeg h fun _ => rfl
          have k' : Work R s (if lg.ident = some .mismatched then
              s.updBooking b fun r => r.updLeg l fun x =>
                { x with ident := some .mismatched, identAt := none, exIdent := true }
            else (s.updBooking b fun r => r.updLeg l fun x =>
              { x with ident := some .mismatched, identAt := none, exIdent := true }).raise .wrongSource
                (.ofLeg lg.port b l) none) := by
            split
            · exact k
            · exact k.trans (.of (.raise (by simp [FaultClass.ofWork]) _ _))
          exact k'.trans (work_judge_has m _ (k'.has h))

theorem work_identExpire (m : Moment) {b : BookingIx} (l : LegId) (h : R.has s b) : Work R s (s.identExpire m b l) := by
  unfold State.identExpire
  split
  · exact .refl s
  · split
    · exact .refl s
    · next lg _ =>
      have k : Work R s (s.updBooking b fun r => r.updLeg l fun x =>
          { x with ident := some .unconfirmed, identAt := none,
                   exIdent := x.exIdent || decide (lg.policy = .require) }) := work_updLeg h fun _ => rfl
      exact k.trans (work_judge_has m _ (k.has h))

theorem work_legReceives (m : Moment) {b : BookingIx} (l : LegId) (h : R.has s b) : Work R s (s.legReceives m b l) := by
  unfold State.legReceives
  split
  · exact .refl s
  · split
    · exact .refl s
    · split
      · have k : Work R s (s.updBooking b fun r => r.updLeg l fun x =>
            { x with state := .receiving, silenceAt := some (s.clock + s.silenceMs * ticksPerMilli) }) :=
          work_updLeg h fun _ => rfl
        exact k.trans (work_judge_has m _ (k.has h))
      · exact .refl s

/-! ## The watch counters (R131 to R139) -/

/-- The records that overflow actions may touch, those that carry (R139), lie within reach, and so do the counters. -/
structure Reach.Watches (R : Reach) : Prop where
  record : ∀ (b : BookingIx) (r : Booking), r.carrying = true → R.record b r.state
  counters : R.counters

theorem work_excludeLeg (hR : R.Watches) (m : Moment) (b : BookingIx) (l : LegId) (s : State) :
    Work R s (s.excludeLeg m b l) := by
  unfold State.excludeLeg
  split
  · exact .refl s
  · next r hr =>
    split
    · exact .refl s
    · split
      · next hc =>
        have hb : R.has s b := fun r' hr' => by
          rw [hr] at hr'; cases hr'; exact hR.record b r (by simp_all)
        have k : Work R s (s.updBooking b fun r => r.updLeg l fun x => { x with exWatch := true }) :=
          work_updLeg hb fun _ => rfl
        exact k.trans (work_judge_has m _ (k.has hb))
      · exact .refl s

theorem work_runAction (hR : R.Watches) (m : Moment) (c : Counter) (s : State) : Work R s (s.runAction m c) := by
  unfold State.runAction
  split
  · exact work_excludeLeg hR ..
  · exact work_actionProbe ..
  · exact .refl s

theorem work_setCounter (h : R.counters) (i : CounterIx) (c : Counter) (s : State) : Work R s (s.setCounter i c) :=
  .of (.counters h (s.counters.set i c) s.frozen)

theorem work_freezeGroup (h : R.counters) (s : State) : Work R s s.freezeGroup :=
  .of (.counters h (s.counters.map fun c => if c.member then { c with secondTotal := 0 } else c) true)

/-- What an overflow does before its action (R137, R138). -/
theorem work_overflow (h : R.counters) (i : CounterIx) (v : Nat) (s : State) :
    Work R s (let c := s.counter i
      let t := s.setCounter i { c with value := v, overflow := true }
      let t := if c.notice then t.raise .watchOverflow c.scope.items (some (.watch i)) else t
      if c.member then t.freezeGroup else t) := by
  dsimp only
  have k := work_setCounter h i { s.counter i with value := v, overflow := true } s
  have k' : Work R s (if (s.counter i).notice = true then
      (s.setCounter i { s.counter i with value := v, overflow := true }).raise .watchOverflow
        (s.counter i).scope.items (some (.watch i))
      else s.setCounter i { s.counter i with value := v, overflow := true }) := by
    split
    · exact k.trans (.of (.raise (by simp [FaultClass.ofWork]) _ _))
    · exact k
  split
  · exact k'.trans (work_freezeGroup h _)
  · exact k'

theorem work_addValue (hR : R.Watches) (m : Moment) (i : CounterIx) (w : Nat) (s : State) :
    Work R s (s.addValue m i w) := by
  dsimp only [State.addValue]
  split
  · exact (work_overflow hR.counters ..).trans (work_runAction hR ..)
  · exact work_setCounter hR.counters ..

theorem work_countEvent (hR : R.Watches) (m : Moment) (e : WatchEvent) (i : CounterIx) (s : State) :
    Work R s (s.countEvent m e i) := by
  dsimp only [State.countEvent]
  split
  · exact .refl s
  · split
    · exact work_addValue hR ..
    · exact work_setCounter hR.counters ..

theorem work_watch (hR : R.Watches) (m : Moment) (e : WatchEvent) (s : State) : Work R s (s.watch m e) :=
  work_foldl (fun s i => work_countEvent hR m e i s) _ s

theorem work_boundaryCount (hR : R.Watches) (m : Moment) (o : List BookingIx) (l : List (BookingIx × Booking))
    (i : CounterIx) (s : State) : Work R s (s.boundaryCount m o l i) := by
  dsimp only [State.boundaryCount]
  split
  · exact .refl s
  · split
    · split
      · refine work_foldl (fun s _ => ?_) _ s
        split
        · exact .refl s
        · exact work_addValue hR ..
      · exact work_addValue hR ..
      · exact .refl s
    · exact (work_setCounter hR.counters ..).trans (work_addValue hR ..)

theorem work_watchBoundary (hR : R.Watches) (m : Moment) (o : List BookingIx) (l : List (BookingIx × Booking))
    (s : State) : Work R s (s.watchBoundary m o l) :=
  work_foldl (fun s i => work_boundaryCount hR m o l i s) _ s

/-! ## Legs and copies (R53, R55, R70 to R73, R79) -/

/-- Every record, every queue and the counters. -/
def Reach.all : Reach := ⟨fun _ _ => True, fun _ => True, True⟩

theorem Reach.all_watches : Reach.all.Watches := ⟨fun _ _ _ => trivial, trivial⟩

theorem Reach.all_has (s : State) (b : BookingIx) : Reach.all.has s b := fun _ _ => trivial

theorem work_legSilent (m : Moment) (b : BookingIx) (l : LegId) (s : State) : Work .all s (s.legSilent m b l) := by
  unfold State.legSilent
  split
  · exact .refl s
  · split
    · exact .refl s
    · split
      · exact (work_watch Reach.all_watches ..).after ((work_judge_has m _ (Reach.all_has _ _)).after
          ((Work.of (.raise (by simp [FaultClass.ofWork]) _ _)).after
            (work_updLeg (Reach.all_has _ _) (by intro; rfl))))
      · exact .refl s

theorem countDrop_state (r : Booking) (n : Nat) : (r.countDrop n).state = r.state := by
  unfold Booking.countDrop; split <;> rfl

theorem work_egressDrop (m : Moment) (p : PortIx) (c : MediaCopy) (s : State) : Work .all s (s.egressDrop m p c) :=
  (work_watch Reach.all_watches ..).after
    (work_updBooking (Reach.all_has _ _) (fun r => countDrop_bare r _) fun r => countDrop_state r _)

theorem work_emptyMedia (m : Moment) (p : PortIx) (s : State) : Work .all s (s.emptyMedia m p) := by
  dsimp only [State.emptyMedia]
  exact (work_foldl (fun s c => work_egressDrop m p c s) _ _).after
    (.of (.media trivial rfl fun _ => by simp [Port.MediaOk]))

theorem work_offerCopy (m : Moment) (p : PortIx) (two : Bool) (leg : LegId) (c : MediaCopy) (s : State) :
    Work .all s (s.offerCopy m p two leg c) := by
  unfold State.offerCopy
  split
  · next h =>
    exact (work_watch Reach.all_watches ..).after (.of (.media trivial (by cases two <;> rfl) fun k => takesCopy_ok h k))
  · exact work_egressDrop ..

theorem work_fanOut (m : Moment) (b : BookingIx) (r : Booking) (l : LegId) (f : Frame) (s : State) :
    Work .all s (s.fanOut m b r l f) :=
  work_foldl (f := fun s (x : PortIx × MediaCopy) => s.offerCopy m x.1 r.backup.isSome l x.2)
    (fun _ _ => work_offerCopy ..) _ s

theorem work_leaveUp (m : Moment) (p : PortIx) (s : State) : Work .all s (s.leaveUp m p) :=
  (work_emptyMedia ..).after
    (work_foldl (fun s b => work_foldl (fun s l => work_legSilent m b l s) _ s) _ s)

theorem work_recapturePort (m : Moment) (p : PortIx) (s : State) : Work .all s (s.recapturePort m p) := by
  refine work_foldl (fun s b => ?_) _ s
  split
  · exact .refl s
  · split
    · exact work_captureLegs _ (Reach.all_has _ _)
    · exact .refl s

/-! ## Frames (R63 to R72, R89 to R91) -/

theorem work_policerDrop (m : Moment) (p : PortIx) (b : BookingIx) (l : LegId) (bits : Option FrameBits) (s : State) :
    Work .all s (s.policerDrop m p b l bits) :=
  (work_watch Reach.all_watches ..).after ((Work.of (.raise (by simp [FaultClass.ofWork]) _ _)).after
    (work_updBooking (Reach.all_has _ _) (by intro; rfl) (by intro; rfl)))

theorem onForwardedEnd_state (r : Booking) : r.onForwardedEnd.state = r.state := by
  unfold Booking.onForwardedEnd; split <;> rfl

theorem work_forwardFrame (m : Moment) (p : PortIx) {b : BookingIx} (l : LegId) {r : Booking} (x : MergeState)
    (gap : Nat) (f : Frame) (bits : Option FrameBits) (hb : s.booking b = some r) :
    Work .all s (s.forwardFrame m p b l r x gap f bits) := by
  dsimp only [State.forwardFrame]
  refine (work_fanOut ..).after ?_
  have h : Work .all s (s.setBooking b (some (if f.endFlag = true then
      Booking.onForwardedEnd { r with merge := some x } else { r with merge := some x }))) := by
    refine .of (.record hb trivial ?_ ?_)
    · split
      · rw [onForwardedEnd_bare]; rfl
      · rfl
    · split
      · rw [onForwardedEnd_state]
      · rfl
  split
  · exact h
  · exact (work_watch Reach.all_watches ..).after h

theorem work_mergeFrame (m : Moment) (p : PortIx) (b : BookingIx) (l : LegId) (f : Frame) (bits : Option FrameBits)
    (s : State) : Work .all s (s.mergeFrame m p b l f bits) := by
  dsimp only [State.mergeFrame]
  have h := work_legReceives m l (Reach.all_has s b)
  split
  · exact h
  · next r hr =>
    split
    · exact h
    · exact (work_watch Reach.all_watches ..).after ((Work.of (.record (r' := { r with merge := some _ }) hr trivial rfl rfl)).after h)
    · exact (work_forwardFrame m p l _ _ f bits hr).after h

end Sys2Proof.Machine
end

section
/-! What a command's moment, the fault unit and a response leave alone. -/

namespace Sys2Proof.Machine
open Sys2Proof.Config

variable (s : State) (m : Moment)

/-! ## The moment of a command -/

/-- A command's moment touches the clock, the raises of the event and the visits of the scan in flight alone. -/
theorem advance_eq : s.advance m =
    { s.beginEvent m.dt with scan := s.scan.map fun sc => sc.visitTo s.bookings m.visits } := by
  dsimp only [State.advance]
  split
  · next h => rw [State.beginEvent_scan] at h; rw [h]; exact congrArg (fun x => { s.beginEvent m.dt with scan := x }) h
  · next h => rw [State.beginEvent_scan] at h; rw [h]; rfl

@[simp] theorem State.advance_pending : (s.advance m).pending = s.pending := by rw [advance_eq]; rfl
@[simp] theorem State.advance_clock : (s.advance m).clock = s.clock + m.dt := by rw [advance_eq]; rfl
@[simp] theorem State.advance_sec : (s.advance m).sec = s.sec := by rw [advance_eq]; rfl
@[simp] theorem State.advance_sub : (s.advance m).sub = s.sub + m.dt := by rw [advance_eq]; rfl
@[simp] theorem State.advance_timeSet : (s.advance m).timeSet = s.timeSet := by rw [advance_eq]; rfl
@[simp] theorem State.advance_idleClose : (s.advance m).idleClose = s.idleClose := by rw [advance_eq]; rfl
@[simp] theorem State.advance_restart : (s.advance m).restart = s.restart := by rw [advance_eq]; rfl
@[simp] theorem State.advance_bookings : (s.advance m).bookings = s.bookings := by rw [advance_eq]; rfl
@[simp] theorem State.advance_waiting : (s.advance m).waiting = s.waiting := by rw [advance_eq]; rfl
@[simp] theorem State.advance_ports : (s.advance m).ports = s.ports := by rw [advance_eq]; rfl
@[simp] theorem State.advance_flows : (s.advance m).flows = s.flows := by rw [advance_eq]; rfl
@[simp] theorem State.advance_deferred : (s.advance m).deferred = s.deferred := by rw [advance_eq]; rfl
@[simp] theorem State.advance_patterns : (s.advance m).patterns = s.patterns := by rw [advance_eq]; rfl
@[simp] theorem State.advance_silenceMs : (s.advance m).silenceMs = s.silenceMs := by rw [advance_eq]; rfl
@[simp] theorem State.advance_identTimeout : (s.advance m).identTimeout = s.identTimeout := by rw [advance_eq]; rfl
@[simp] theorem State.advance_flight : (s.advance m).flight = s.flight := by rw [advance_eq]; rfl
@[simp] theorem State.advance_probeWaiting : (s.advance m).probeWaiting = s.probeWaiting := by rw [advance_eq]; rfl
@[simp] theorem State.advance_probeCounter : (s.advance m).probeCounter = s.probeCounter := by rw [advance_eq]; rfl
@[simp] theorem State.advance_probeConfig : (s.advance m).probeConfig = s.probeConfig := by rw [advance_eq]; rfl
@[simp] theorem State.advance_lastResults : (s.advance m).lastResults = s.lastResults := by rw [advance_eq]; rfl
@[simp] theorem State.advance_counters : (s.advance m).counters = s.counters := by rw [advance_eq]; rfl
@[simp] theorem State.advance_flags : (s.advance m).flags = s.flags := by rw [advance_eq]; rfl
@[simp] theorem State.advance_masks : (s.advance m).masks = s.masks := by rw [advance_eq]; rfl
@[simp] theorem State.advance_tariffs : (s.advance m).tariffs = s.tariffs := by rw [advance_eq]; rfl
@[simp] theorem State.advance_bills : (s.advance m).bills = s.bills := by rw [advance_eq]; rfl
@[simp] theorem State.advance_billWaiting : (s.advance m).billWaiting = s.billWaiting := by rw [advance_eq]; rfl
@[simp] theorem State.advance_noticePort : (s.advance m).noticePort = s.noticePort := by rw [advance_eq]; rfl
@[simp] theorem State.advance_startCause : (s.advance m).startCause = s.startCause := by rw [advance_eq]; rfl
@[simp] theorem State.advance_straps : (s.advance m).straps = s.straps := by rw [advance_eq]; rfl

@[simp] theorem State.advance_port (p : PortIx) : (s.advance m).port p = s.port p := by simp [State.port]
@[simp] theorem State.advance_booking (b : BookingIx) : (s.advance m).booking b = s.booking b := by simp [State.booking]
@[simp] theorem State.advance_counter (i : CounterIx) : (s.advance m).counter i = s.counter i := by simp [State.counter]
@[simp] theorem State.advance_tariff (t : TariffIx) : (s.advance m).tariff t = s.tariff t := by simp [State.tariff]
@[simp] theorem State.advance_milli : (s.advance m).milli = min 999 ((s.sub + m.dt) / 10000000) := by
  simp [State.milli, ticksPerMilli]

/-- The moment leaves the entries of the admission queue. -/
theorem advance_entries : (s.advance m).entries = s.entries := by
  rw [advance_eq]
  cases h : s.scan <;> simp [State.entries, h, Scan.visitTo]

/-! ## The fault unit and a response (R56, R144, R173) -/

variable {s m}

theorem onlyAnswers_raiseControlDrop (p : PortIx) (s : State) : OnlyAnswers s (s.raiseControlDrop p) :=
  (raiseControlDrop_spec p s).1

theorem onlyAnswers_offerControl (p : PortIx) (payload : List Byte) (s : State) :
    OnlyAnswers s (s.offerControl p payload) := by
  unfold State.offerControl
  split
  · exact onlyAnswers_appendControl ..
  · exact onlyAnswers_raiseControlDrop ..

theorem onlyAnswers_takeRaise (x : Raise) (s : State) : OnlyAnswers s (s.takeRaise x) := by
  dsimp only [State.takeRaise]
  split
  · exact onlyAnswers_recordRaise ..
  · exact (onlyAnswers_recordRaise ..).trans (onlyAnswers_offerControl ..)

theorem onlyAnswers_takeRaises (l : List Raise) (s : State) : OnlyAnswers s (s.takeRaises l) := by
  induction l generalizing s with
  | nil => exact .refl s
  | cons x l ih => exact (onlyAnswers_takeRaise x s).trans (ih _)

/-- Taking the raises of an event touches the ports, the flags and the capture, and leaves none. -/
theorem flush_rest (m : Moment) (s : State) : s.flush m =
    { s with ports := (s.flush m).ports, flags := (s.flush m).flags, capture := (s.flush m).capture, raised := [] } :=
  congrArg (fun t : State => { t with raised := [] }) (onlyAnswers_takeRaises (s.raiseOrder m) s).rest

theorem takeEarly_rest (m : Moment) (s : State) : s.takeEarly m =
    { s with ports := (s.takeEarly m).ports, flags := (s.takeEarly m).flags, capture := (s.takeEarly m).capture,
             raised := (s.takeEarly m).raised } :=
  congrArg (fun t : State => { t with raised := (s.takeEarly m).raised })
    (onlyAnswers_takeRaises (pickRaises m.beforeRequest s.raised).1 s).rest

/-- An answer touches the ports, the flags and the capture, and leaves no raise. -/
theorem AnsweredOnly.rest {s t : State} {r : Req} {code : Nat} {res : Result} {body : List Byte}
    (h : AnsweredOnly s t r code res body) :
    t = { s with ports := t.ports, flags := t.flags, capture := t.capture, raised := [] } := by
  obtain ⟨before, after, u, -, hu, -, rfl⟩ := h
  have := ((onlyAnswers_takeRaises before s).trans hu).trans (onlyAnswers_takeRaises after u)
  exact congrArg (fun t : State => { t with raised := [] }) this.rest

/-! ## A request answered -/

section Answer
variable {α : Type} {r : Req} {code : Nat} {act : α → State → Answer} {s u : State} {res : Result} {body : List Byte}

/-- A request of an OPERATOR, its effect known. -/
theorem takeRequest_answered (h : FromOperator s r) {a : α} (k : act a s = { state := u, result := res, body := body }) :
    AnsweredOnly u (s.takeRequest r code (some a) act) r code res body := by
  have := takeRequest_operator_spec (code := code) (act := act) h a
  rwa [k] at this

/-- The same of an OBSERVER, for the requests it may send. -/
theorem takeRequest_read (h : FromReader s r) (ho : observerMaySend code = true) {a : α}
    (k : act a s = { state := u, result := res, body := body }) :
    AnsweredOnly u (s.takeRequest r code (some a) act) r code res body := by
  have := takeRequest_reader_spec (act := act) h ho a
  rwa [k] at this

theorem checked_some {c : Option Result} {e : Answer} (h : c = some res) :
    checked c s e = { state := s, result := res, body := [] } := by rw [h]; rfl

theorem checked_none {c : Option Result} {e : Answer} (h : c = none) : checked c s e = e := by rw [h]; rfl

@[simp] theorem firstFailing_nil : firstFailing [] = none := rfl

@[simp] theorem firstFailing_cons (c : Bool) (res : Result) (l : List (Bool × Result)) :
    firstFailing ((c, res) :: l) = if c then some res else firstFailing l := by
  cases c <;> simp [firstFailing]

end Answer

theorem FromOperator.advance {s : State} {r : Req} (h : FromOperator s r) (m : Moment) :
    FromOperator (s.advance m) r := by simpa [FromOperator] using h

theorem FromReader.advance {s : State} {r : Req} (h : FromReader s r) (m : Moment) :
    FromReader (s.advance m) r := by simpa [FromReader] using h

end Sys2Proof.Machine
end

section
/-! The bills against the booking table (R155, R163) and the lifecycle of a record (section 1.3): what the work of an
event, a settlement and a command may do to them. -/

namespace Sys2Proof.Machine
open Sys2Proof.Config

variable {s t u : State}

/-! ## Terms of a record (R2, R3) -/

theorem fixedTerms_bare (r : Booking) : r.bare.fixedTerms = r.fixedTerms := by
  cases h : r.backup <;> simp [Booking.fixedTerms, Booking.bare, Booking.legs, Leg.bare, Dest.bare, h]

theorem fixedTerms_of_bare {r r' : Booking} (h : r'.bare = r.bare) : r'.fixedTerms = r.fixedTerms := by
  rw [← fixedTerms_bare r', h, fixedTerms_bare]

/-- The terms of record `b`, or none when it is FREE. -/
def State.termsOf (s : State) (b : BookingIx) := (s.booking b).map Booking.fixedTerms

theorem Later.termsOf (h : Later s t) (b : BookingIx) : t.termsOf b = s.termsOf b := by
  have k := congrArg (Option.map Booking.fixedTerms) (h.bare b)
  simpa [State.termsOf, Option.map_map, Function.comp_def, fixedTerms_bare] using k

theorem stateOf_congr (h : t.bookings = s.bookings) (b : BookingIx) : t.stateOf b = s.stateOf b := by
  simp [State.stateOf, State.booking_congr h]

theorem termsOf_congr (h : t.bookings = s.bookings) (b : BookingIx) : t.termsOf b = s.termsOf b := by
  simp [State.termsOf, State.booking_congr h]

theorem stateOf_of_booking {b : BookingIx} {r : Booking} (h : s.booking b = some r) : s.stateOf b = some r.state := by
  simp [State.stateOf, h]

theorem stateOf_eq_some {b : BookingIx} {x : BookingState} :
    s.stateOf b = some x ↔ ∃ r, s.booking b = some r ∧ r.state = x := by
  simp [State.stateOf, Option.map_eq_some_iff]

/-! ## The bills and the table -/

/-- The same law, by the bookings that the bills name and the states of the records. -/
theorem billsMatch_iff : s.BillsMatch ↔
    (s.bills.map (·.booking)).Nodup ∧ (∀ b, b ∈ s.bills.map (·.booking) ↔ s.stateOf b = some .closed) ∧
      (s.billWaiting.map (·.booking)).Nodup ∧ ∀ b ∈ s.billWaiting.map (·.booking), s.stateOf b = some .closing := by
  simp only [stateOf_eq_some, List.mem_map]
  constructor
  · rintro ⟨h1, h2, h3, h4⟩
    exact ⟨h1, h2, h3, by rintro _ ⟨x, hx, rfl⟩; exact h4 x hx⟩
  · rintro ⟨h1, h2, h3, h4⟩
    exact ⟨h1, h2, h3, fun x hx => h4 _ ⟨x, hx, rfl⟩⟩

/-- The law reads the CLOSED and CLOSING states alone. -/
theorem State.BillsMatch.congr (h : s.BillsMatch) (bills : t.bills = s.bills) (waits : t.billWaiting = s.billWaiting)
    (closed : ∀ b, t.stateOf b = some .closed ↔ s.stateOf b = some .closed)
    (closing : ∀ b, s.stateOf b = some .closing → t.stateOf b = some .closing) : t.BillsMatch := by
  rw [billsMatch_iff] at h ⊢
  obtain ⟨h1, h2, h3, h4⟩ := h
  rw [bills, waits]
  exact ⟨h1, fun b => (h2 b).trans (closed b).symm, h3, fun b hb => closing b (h4 b hb)⟩

theorem closeBooking_stateOf (b c : BookingIx) (s : State) :
    (s.closeBooking b).stateOf c = if c = b then (s.stateOf b).map fun _ => .closed else s.stateOf c := by
  unfold State.closeBooking State.updBooking
  split
  · next h =>
    split
    · next e => subst e; simp [State.stateOf, h]
    · rfl
  · next r h => by_cases e : c = b <;> simp [State.stateOf, h, e]

/-- A CLOSING booking without a waiting bill is billed: into the queue, where it becomes CLOSED, or on the waiting list. -/
theorem billsMatch_billNow {b : BookingIx} (h : s.BillsMatch) (hb : s.stateOf b = some .closing)
    (hw : s.billWaits b = false) : (s.billNow b).BillsMatch := by
  rw [billsMatch_iff] at h
  obtain ⟨h1, h2, h3, h4⟩ := h
  have fresh : b ∉ s.billWaiting.map (·.booking) := by simpa [State.billWaits] using hw
  unfold State.billNow
  obtain ⟨r, hr, -⟩ := stateOf_eq_some.1 hb
  rw [hr]
  dsimp only
  split
  · have new : b ∉ s.bills.map (·.booking) := by rw [h2 b, hb]; simp
    have states := closeBooking_stateOf b (s := { s with bills := s.bills ++ [billOf b r (s.tariff r.tariff)] })
    obtain ⟨e1, e2⟩ := closeBooking_bills b { s with bills := s.bills ++ [billOf b r (s.tariff r.tariff)] }
    rw [billsMatch_iff, e1, e2]
    have old : ∀ c, State.stateOf { s with bills := s.bills ++ [billOf b r (s.tariff r.tariff)] } c = s.stateOf c :=
      fun _ => rfl
    have name : (billOf b r (s.tariff r.tariff)).booking = b := rfl
    simp only [List.map_append, List.map_cons, List.map_nil, name, states, old, hb]
    refine ⟨List.nodup_append.2 ⟨h1, by simp, ?_⟩, fun c => ?_, h3, fun c hc => ?_⟩
    · rintro x hx y hy rfl; exact new (by rwa [List.mem_singleton.1 hy] at hx)
    · by_cases e : c = b
      · simp [e]
      · simpa [e] using h2 c
    · have e : c ≠ b := fun e => fresh (e ▸ hc)
      simpa [e] using h4 c hc
  · rw [billsMatch_iff]
    show (s.bills.map (·.booking)).Nodup ∧ (∀ c, c ∈ s.bills.map (·.booking) ↔ s.stateOf c = some .closed) ∧
      ((s.billWaiting ++ [billOf b r (s.tariff r.tariff)]).map (·.booking)).Nodup ∧
      ∀ c ∈ (s.billWaiting ++ [billOf b r (s.tariff r.tariff)]).map (·.booking), s.stateOf c = some .closing
    have name : (billOf b r (s.tariff r.tariff)).booking = b := rfl
    simp only [List.map_append, List.map_cons, List.map_nil, name]
    refine ⟨h1, h2, List.nodup_append.2 ⟨h3, by simp, ?_⟩, fun c hc => ?_⟩
    · rintro x hx y hy rfl; exact fresh (by rwa [List.mem_singleton.1 hy] at hx)
    · rcases List.mem_append.1 hc with hc | hc
      · exact h4 c hc
      · rw [List.mem_singleton.1 hc]; exact hb

/-! ## What an event's work does to the table -/

/-- Between two states of an event no record changes its state but a CLOSING one that is billed and so CLOSED (R18), the
terms stand, and the bills still match. -/
structure Settles (s t : State) : Prop where
  states : ∀ b, t.stateOf b = s.stateOf b ∨ s.stateOf b = some .closing ∧ t.stateOf b = some .closed
  terms : ∀ b, t.termsOf b = s.termsOf b
  bills : s.BillsMatch → t.BillsMatch

theorem Settles.refl (s : State) : Settles s s := ⟨fun _ => .inl rfl, fun _ => rfl, id⟩

theorem Settles.trans (h : Settles s t) (k : Settles t u) : Settles s u where
  states b := by
    rcases h.states b with e | ⟨e, e'⟩ <;> rcases k.states b with f | ⟨f, f'⟩
    · exact .inl (f.trans e)
    · exact .inr ⟨e ▸ f, f'⟩
    · exact .inr ⟨e, f.trans e'⟩
    · exact .inr ⟨e, f'⟩
  terms b := (k.terms b).trans (h.terms b)
  bills x := k.bills (h.bills x)

theorem Settles.after (k : Settles t u) (h : Settles s t) : Settles s u := h.trans k

theorem settles_foldl {α : Type} {f : State → α → State} (h : ∀ s x, Settles s (f s x)) (l : List α) (s : State) :
    Settles s (l.foldl f s) := by
  induction l generalizing s with
  | nil => exact .refl s
  | cons x l ih => exact (h s x).trans (ih _)

/-- Neither the states nor the bills change. -/
structure Quiet (s t : State) : Prop where
  states : ∀ b, t.stateOf b = s.stateOf b
  terms : ∀ b, t.termsOf b = s.termsOf b
  bills : t.bills = s.bills
  billWaiting : t.billWaiting = s.billWaiting
  entries : t.entries = s.entries

theorem Quiet.of_eq (bookings : t.bookings = s.bookings) (bills : t.bills = s.bills)
    (billWaiting : t.billWaiting = s.billWaiting) (entries : t.entries = s.entries) : Quiet s t :=
  ⟨stateOf_congr bookings, termsOf_congr bookings, bills, billWaiting, entries⟩

theorem Quiet.trans (h : Quiet s t) (k : Quiet t u) : Quiet s u :=
  ⟨fun b => (k.states b).trans (h.states b), fun b => (k.terms b).trans (h.terms b), k.bills.trans h.bills,
    k.billWaiting.trans h.billWaiting, k.entries.trans h.entries⟩

theorem Quiet.settles (h : Quiet s t) : Settles s t :=
  ⟨fun b => .inl (h.states b), h.terms, fun k => k.congr h.bills h.billWaiting (fun b => by rw [h.states])
    fun b => by rw [h.states]; exact id⟩

theorem settles_of_eq (bookings : t.bookings = s.bookings) (bills : t.bills = s.bills)
    (billWaiting : t.billWaiting = s.billWaiting) : Settles s t where
  states b := .inl (stateOf_congr bookings b)
  terms b := termsOf_congr bookings b
  bills k := k.congr bills billWaiting (fun b => by rw [stateOf_congr bookings])
    fun b => by rw [stateOf_congr bookings]; exact id

theorem Work.quiet {R : Reach} (h : Work R s t) : Quiet s t :=
  ⟨h.stateOf, h.later.termsOf, h.bills, h.billWaiting, by simp [State.entries, h.later.scan, h.later.waiting]⟩

theorem quiet_advance (m : Moment) (s : State) : Quiet s (s.advance m) :=
  .of_eq (by simp) (by simp) (by simp) (advance_entries s m)

theorem quiet_flush (m : Moment) (s : State) : Quiet s (s.flush m) := by
  rw [flush_rest]; exact .of_eq rfl rfl rfl rfl

theorem quiet_takeEarly (m : Moment) (s : State) : Quiet s (s.takeEarly m) := by
  rw [takeEarly_rest]; exact .of_eq rfl rfl rfl rfl

theorem quiet_respond (r : Req) (code : Nat) (res : Result) (body : List Byte) (s : State) :
    Quiet s (s.respond r code res body) := by
  rw [(respond_answeredOnly r code res body s).rest]; exact .of_eq rfl rfl rfl rfl

theorem quiet_setPort (p : PortIx) (x : Port) (s : State) : Quiet s (s.setPort p x) := .of_eq rfl rfl rfl rfl

theorem quiet_elapseTo (i : Nat) (s : State) : Quiet s (s.elapseTo i) := .of_eq rfl rfl rfl rfl

/-- A billing makes a CLOSING record CLOSED at the most. -/
theorem billNow_stateOf (b c : BookingIx) (s : State) :
    (s.billNow b).stateOf c = s.stateOf c ∨ c = b ∧ (s.billNow b).stateOf b = some .closed := by
  unfold State.billNow
  split
  · exact .inl rfl
  · next r hr =>
    dsimp only
    split
    · rw [closeBooking_stateOf]
      split
      · next e => subst e; exact .inr ⟨rfl, by
          rw [closeBooking_stateOf, if_pos rfl]
          exact congrArg (Option.map fun _ => BookingState.closed) (stateOf_of_booking hr)⟩
      · exact .inl rfl
    · exact .inl rfl

theorem settles_settleBooking (b : BookingIx) (s : State) : Settles s (s.settleBooking b) := by
  refine ⟨fun c => ?_, (later_settleBooking b s).termsOf, fun h => ?_⟩ <;> unfold State.settleBooking <;> split
  · exact .inl rfl
  · next r hr =>
    split
    · next h =>
      have hc : s.stateOf b = some .closing := by simp [State.stateOf, hr]; simp_all
      rcases billNow_stateOf b c s with e | ⟨rfl, e⟩
      exacts [.inl e, .inr ⟨hc, e⟩]
    · exact .inl rfl
  · exact h
  · next r hr =>
    split
    · next hs =>
      simp only [Bool.and_eq_true, decide_eq_true_eq, Bool.not_eq_true'] at hs
      obtain ⟨⟨hc, -⟩, hw⟩ := hs
      exact billsMatch_billNow h (by simp [State.stateOf, hr, hc]) hw
    · exact h

theorem settles_settleAll (m : Moment) (s : State) : Settles s (s.settleAll m) :=
  settles_foldl (fun s b => settles_settleBooking b s) _ s

/-! ## Ends of probes (R108 to R110) -/

theorem quiet_settleCauses (n : ProbeNo) (c : Cause) (s : State) : Quiet s (s.settleCauses n c) := by
  refine ⟨fun b => ?_, (later_settleCauses n c s).termsOf, rfl, rfl, rfl⟩
  simp only [State.stateOf, State.booking, State.settleCauses, Fin.getElem_fin, Vector.getElem_map, Option.map_map]
  rfl

theorem settles_concludeProbe (m : Moment) (n : ProbeNo) (p : PortIx) (e : ProbeEnd) (s : State) :
    Settles s (s.concludeProbe m n p e) := by
  dsimp only [State.concludeProbe]
  have raised : ∀ t : State, Settles t (t.raise .probeDone (.ofPort p) none) := fun _ => settles_of_eq rfl rfl rfl
  refine (raised _).after ((settles_settleAll m _).after ((quiet_settleCauses ..).settles.after ?_))
  exact settles_of_eq rfl rfl rfl

theorem settles_leaveFlight (f : Flight) (s : State) : Settles s (s.leaveFlight f) := by
  unfold State.leaveFlight; dsimp only; split <;> exact settles_of_eq rfl rfl rfl

theorem settles_nextProbe (s : State) : Settles s s.nextProbe := by
  unfold State.nextProbe
  split
  · exact .refl s
  · unfold State.enterFlight; dsimp only; split <;> exact settles_of_eq rfl rfl rfl

theorem settles_endFlight (m : Moment) (f : Flight) (e : ProbeEnd) (s : State) : Settles s (s.endFlight m f e) :=
  ((settles_concludeProbe ..).trans (settles_leaveFlight ..)).trans (settles_nextProbe _)

theorem settles_endProbeOf (m : Moment) (p : PortIx) (o : ProbeOutcome) (s : State) :
    Settles s (s.endProbeOf m p o) := by
  have remove : Settles s { s with probeWaiting := s.probeWaiting.filter fun w => decide (w.port ≠ p) } :=
    settles_of_eq rfl rfl rfl
  unfold State.endProbeOf
  split
  · split
    · exact settles_endFlight ..
    · split
      · exact (settles_concludeProbe ..).after remove
      · exact .refl s
  · split
    · exact (settles_concludeProbe ..).after remove
    · exact .refl s

theorem settles_abortAll (m : Moment) (s : State) : Settles s (s.abortAll m) := by
  unfold State.abortAll
  dsimp only
  refine Settles.after (settles_foldl (f := fun t (w : WaitingProbe) => t.concludeProbe m w.number w.port (.bare .aborted))
    (fun _ _ => settles_concludeProbe ..) s.probeWaiting _) ?_
  have clear : Settles s { s with probeWaiting := [] } := settles_of_eq rfl rfl rfl
  split
  · exact (clear.trans (settles_concludeProbe ..)).trans (settles_leaveFlight ..)
  · exact clear

theorem settles_deliver (m : Moment) (f : Flight) (x : Measured) (s : State) : Settles s (s.deliver m f x) := by
  unfold State.deliver
  split
  · split
    · exact settles_endFlight ..
    · exact settles_of_eq rfl rfl rfl
  · split
    · split
      · exact settles_of_eq rfl rfl rfl
      · exact .refl s
    · exact .refl s
  · split <;> exact settles_endFlight ..
  · exact .refl s

/-! ## One command -/

/-- A BOOK entry names a PENDING record (R25). -/
def State.BookPending (s : State) : Prop := ∀ e ∈ s.entries, e.kind = .book → s.stateOf e.booking = some .pending

/-- What one command makes of the table: the terms of a record that stays stand (R2, R3), and from a state that keeps the
table's laws each record goes where the lifecycle lets it and the bills match again. -/
structure Follows (s t : State) : Prop where
  terms : ∀ b x y, s.termsOf b = some x → t.termsOf b = some y → y = x
  moves : s.BillsMatch → s.BookPending → ∀ b, mayBecome (s.stateOf b) (t.stateOf b) = true
  bills : s.BillsMatch → s.BookPending → t.BillsMatch

theorem mayBecome_self (x : Option BookingState) : mayBecome x x = true := by
  cases x with
  | none => rfl
  | some x => cases x <;> rfl

/-- A record that may become CLOSING may be billed at once (R18). -/
theorem mayBecome_closed {x : Option BookingState} (h : mayBecome x (some .closing) = true) :
    mayBecome x (some .closed) = true := by
  cases x with
  | none => simp [mayBecome] at h
  | some x => cases x <;> simp_all [mayBecome]

theorem Settles.follows (h : Settles s t) : Follows s t where
  terms b x y hx hy := by rw [h.terms b, hx] at hy; exact (Option.some_inj.1 hy).symm
  moves _ _ b := by
    rcases h.states b with e | ⟨e, e'⟩
    · rw [e]; exact mayBecome_self _
    · rw [e, e']; rfl
  bills k _ := h.bills k

theorem Quiet.follows (h : Quiet s t) : Follows s t := h.settles.follows

theorem Follows.refl (s : State) : Follows s s := (Settles.refl s).follows

/-- A settlement behind a command's effect. -/
theorem Follows.settled (h : Follows s t) (k : Settles t u) : Follows s u where
  terms b x y hx hy := h.terms b x y hx (by rw [← k.terms b]; exact hy)
  moves hb hp b := by
    have m := h.moves hb hp b
    rcases k.states b with e | ⟨e, e'⟩
    · rwa [e]
    · rw [e] at m; rw [e']; exact mayBecome_closed m
  bills hb hp := k.bills (h.bills hb hp)

/-- Quiet work before a command's effect. -/
theorem Quiet.then (h : Quiet s t) (k : Follows t u) : Follows s u := by
  have match_ : s.BillsMatch → t.BillsMatch := h.settles.bills
  have pending : s.BookPending → t.BookPending := fun hp e he hk => by
    rw [h.states]; exact hp e (h.entries ▸ he) hk
  exact {
    terms := fun b x y hx hy => k.terms b x y (by rw [h.terms b]; exact hx) hy
    moves := fun hb hp b => by rw [← h.states]; exact k.moves (match_ hb) (pending hp) b
    bills := fun hb hp => k.bills (match_ hb) (pending hp) }

/-- One record written, with its terms; the bills stand. A record keeps its state, or it was neither CLOSING nor CLOSED and
is not CLOSED now. -/
theorem follows_record {b : BookingIx} {r r' : Booking} (hb : s.booking b = some r) (hb' : t.booking b = some r')
    (others : ∀ c, c ≠ b → t.booking c = s.booking c) (bills : t.bills = s.bills)
    (waits : t.billWaiting = s.billWaiting) (terms : r'.fixedTerms = r.fixedTerms)
    (ok : s.BookPending → mayBecome (some r.state) (some r'.state) = true ∧
      (r'.state = r.state ∨ r.state ≠ .closing ∧ r.state ≠ .closed ∧ r'.state ≠ .closed)) : Follows s t where
  terms c x y hx hy := by
    by_cases e : c = b
    · subst e
      simp only [State.termsOf, hb, hb', Option.map_some, Option.some_inj] at hx hy
      rw [← hx, ← hy, terms]
    · simp only [State.termsOf, others c e] at hx hy
      rw [hx] at hy; exact (Option.some_inj.1 hy).symm
  moves _ hp c := by
    by_cases e : c = b
    · subst e; simpa [State.stateOf, hb, hb'] using (ok hp).1
    · simpa [State.stateOf, others c e] using mayBecome_self _
  bills h hp := by
    refine h.congr bills waits (fun c => ?_) fun c hc => ?_
    · by_cases e : c = b
      · subst e
        rcases (ok hp).2 with k | ⟨-, k1, k2⟩
        · simp [State.stateOf, hb, hb', k]
        · simp [State.stateOf, hb, hb', k1, k2]
      · simp [State.stateOf, others c e]
    · by_cases e : c = b
      · subst e
        simp only [State.stateOf, hb, hb', Option.map_some, Option.some_inj] at hc ⊢
        rcases (ok hp).2 with k | ⟨k, -⟩
        · rw [k, hc]
        · exact absurd hc k
      · simpa [State.stateOf, others c e] using hc

/-- A record changed without its state. -/
theorem follows_setBooking {b : BookingIx} {r r' : Booking} (hb : s.booking b = some r)
    (terms : r'.fixedTerms = r.fixedTerms) (state : r'.state = r.state) : Follows s (s.setBooking b (some r')) :=
  follows_record hb (by simp) (fun c e => by simp [e]) rfl rfl terms
    fun _ => ⟨by rw [state]; exact mayBecome_self _, .inl state⟩

/-! ## Freeing a record (R1) -/

theorem freeBooking_booking (b c : BookingIx) (s : State) :
    (s.freeBooking b).booking c = if c = b then none else s.booking c := s.setBooking_booking b c none

/-- A record freed that had neither become CLOSING nor been billed. -/
theorem follows_freeBooking {b : BookingIx} (free : mayBecome (s.stateOf b) none = true)
    (state : s.stateOf b ≠ some .closed) : Follows s (s.freeBooking b) := by
  have here : (s.freeBooking b).stateOf b = none := by simp [State.stateOf, freeBooking_booking]
  have others : ∀ c, c ≠ b → (s.freeBooking b).stateOf c = s.stateOf c := fun c e => by
    simp [State.stateOf, freeBooking_booking, e]
  refine ⟨fun c x y hx hy => ?_, fun _ _ c => ?_, fun h _ => h.congr rfl rfl (fun c => ?_) fun c hc => ?_⟩
  · by_cases e : c = b
    · subst e; simp [State.termsOf, freeBooking_booking] at hy
    · simp only [State.termsOf, freeBooking_booking, e, if_false] at hx hy
      rw [hx] at hy; exact (Option.some_inj.1 hy).symm
  · by_cases e : c = b
    · subst e; rw [here]; exact free
    · rw [others c e]; exact mayBecome_self _
  · by_cases e : c = b
    · subst e; simp [here, state]
    · rw [others c e]
  · by_cases e : c = b
    · subst e; rw [hc] at free; simp [mayBecome] at free
    · rw [others c e]; exact hc

end Sys2Proof.Machine
end

section
/-! The scheduler at a boundary (section 1.4): the order in which it takes the records, what it leaves alone, and the one
transition each record takes. -/

namespace Sys2Proof.Machine
open Sys2Proof.Config

variable {s t u : State}

/-! ## The order of the records -/

theorem mem_distinct {α : Type} [DecidableEq α] (l : List α) (x : α) : x ∈ distinct l ↔ x ∈ l := by
  induction l with
  | nil => simp [distinct]
  | cons y l ih => by_cases e : x = y <;> simp [distinct, ih, e]

theorem nodup_distinct {α : Type} [DecidableEq α] (l : List α) : (distinct l).Nodup := by
  induction l with
  | nil => simp [distinct]
  | cons y l ih => simpa [distinct] using ih.filter _

theorem nodup_firstThenRest {α : Type} [DecidableEq α] (l : List α) {all : List α} (h : all.Nodup) :
    (firstThenRest l all).Nodup := by
  refine List.nodup_append.2 ⟨nodup_distinct l, h.filter _, ?_⟩
  rintro x hx y hy rfl
  rw [mem_distinct] at hx
  simp [hx] at hy

theorem mem_firstThenRest {α : Type} [DecidableEq α] {l all : List α} {x : α} (h : x ∈ all) :
    x ∈ firstThenRest l all := by
  simp only [firstThenRest, List.mem_append, mem_distinct, List.mem_filter, decide_eq_true_eq]
  by_cases e : x ∈ l
  · exact .inl e
  · exact .inr ⟨h, e⟩

theorem nodup_bookingOrder (m : Moment) : (bookingOrder m).Nodup := nodup_firstThenRest _ (List.nodup_finRange 256)

theorem mem_bookingOrder (m : Moment) (b : BookingIx) : b ∈ bookingOrder m := mem_firstThenRest (List.mem_finRange b)

/-- A fold over the records takes record `b` at one place: the records before it and those behind it are others. -/
theorem bookingOrder_split (m : Moment) (b : BookingIx) : ∃ before after, bookingOrder m = before ++ b :: after ∧
    b ∉ before ∧ b ∉ after := by
  obtain ⟨before, after, e⟩ := List.append_of_mem (mem_bookingOrder m b)
  have h := nodup_bookingOrder m
  rw [e, List.nodup_append] at h
  obtain ⟨-, h2, h3⟩ := h
  exact ⟨before, after, e, fun k => h3 b k b (by simp) rfl, (List.nodup_cons.1 h2).1⟩

/-! ## What the scheduler leaves alone -/

/-- The state without what the scheduler and the work of an event change. -/
def State.calm (s : State) : State := { s.still with deferred := [] }

/-- Nothing but the tables of the scheduler, the merge unit, the flow table, the reflectometer, the watch counters, the
fault unit and the billing unit differs. -/
def Calm (s t : State) : Prop := t.calm = s.calm

theorem Calm.refl (s : State) : Calm s s := rfl
theorem Calm.trans (h : Calm s t) (k : Calm t u) : Calm s u := Eq.trans k h

theorem Later.calm (h : Later s t) : Calm s t := by
  unfold Calm State.calm; rw [h.still]

theorem Work.calm {R : Reach} (h : Work R s t) : Calm s t := h.later.calm

theorem calm_foldl {α : Type} {f : State → α → State} (h : ∀ s x, Calm s (f s x)) (l : List α) (s : State) :
    Calm s (l.foldl f s) := by
  induction l generalizing s with
  | nil => exact .refl s
  | cons x l ih => exact (h s x).trans (ih _)

theorem Calm.pending (h : Calm s t) : t.pending = s.pending := by have e := congrArg State.pending h; exact e
theorem Calm.clock (h : Calm s t) : t.clock = s.clock := by have e := congrArg State.clock h; exact e
theorem Calm.sec (h : Calm s t) : t.sec = s.sec := by have e := congrArg State.sec h; exact e
theorem Calm.sub (h : Calm s t) : t.sub = s.sub := by have e := congrArg State.sub h; exact e
theorem Calm.timeSet (h : Calm s t) : t.timeSet = s.timeSet := by have e := congrArg State.timeSet h; exact e
theorem Calm.idleClose (h : Calm s t) : t.idleClose = s.idleClose := by have e := congrArg State.idleClose h; exact e
theorem Calm.restart (h : Calm s t) : t.restart = s.restart := by have e := congrArg State.restart h; exact e
theorem Calm.scan (h : Calm s t) : t.scan = s.scan := by have e := congrArg State.scan h; exact e
theorem Calm.waiting (h : Calm s t) : t.waiting = s.waiting := by have e := congrArg State.waiting h; exact e
theorem Calm.patterns (h : Calm s t) : t.patterns = s.patterns := by have e := congrArg State.patterns h; exact e
theorem Calm.silenceMs (h : Calm s t) : t.silenceMs = s.silenceMs := by have e := congrArg State.silenceMs h; exact e
theorem Calm.identTimeout (h : Calm s t) : t.identTimeout = s.identTimeout := by
  have e := congrArg State.identTimeout h; exact e
theorem Calm.probeConfig (h : Calm s t) : t.probeConfig = s.probeConfig := by
  have e := congrArg State.probeConfig h; exact e
theorem Calm.masks (h : Calm s t) : t.masks = s.masks := by have e := congrArg State.masks h; exact e
theorem Calm.tariffs (h : Calm s t) : t.tariffs = s.tariffs := by have e := congrArg State.tariffs h; exact e
theorem Calm.noticePort (h : Calm s t) : t.noticePort = s.noticePort := by have e := congrArg State.noticePort h; exact e
theorem Calm.startCause (h : Calm s t) : t.startCause = s.startCause := by have e := congrArg State.startCause h; exact e
theorem Calm.straps (h : Calm s t) : t.straps = s.straps := by have e := congrArg State.straps h; exact e

theorem Calm.face (h : Calm s t) (p : PortIx) : (t.port p).face = (s.port p).face := by
  have e : t.ports.map Port.face = s.ports.map Port.face := congrArg State.ports h
  have := congrArg (fun v : Vector Port 16 => v[p.val]) e
  simpa [State.port] using this

theorem Calm.settings (h : Calm s t) (p : PortIx) : (t.port p).settings = (s.port p).settings := by
  have e := congrArg Port.settings (h.face p); exact e

theorem Calm.tariff (h : Calm s t) (x : TariffIx) : t.tariff x = s.tariff x := by simp [State.tariff, h.tariffs]

theorem Calm.entries (h : Calm s t) : t.entries = s.entries := by simp [State.entries, h.scan, h.waiting]

/-- What only requests, power-on and the completion of a restart write stands. -/
theorem Calm.keepsSettings (h : Calm s t) : KeepsSettings s t :=
  ⟨h.pending, h.settings, h.patterns, h.silenceMs, h.identTimeout, h.probeConfig, h.masks, h.tariffs, h.noticePort,
    h.straps, h.timeSet, h.idleClose⟩

/-! ## Flow table, closings (R60, R61, R154) -/

theorem installLeg_rest (b : BookingIx) (l : LegId) (s : State) : s.installLeg b l =
    { s with flows := (s.installLeg b l).flows, deferred := (s.installLeg b l).deferred } := by
  unfold State.installLeg
  split
  · rfl
  · split
    · rfl
    · split <;> rfl

theorem installLegs_rest (b : BookingIx) (s : State) : s.installLegs b =
    { s with flows := (s.installLegs b).flows, deferred := (s.installLegs b).deferred } := by
  unfold State.installLegs
  rw [installLeg_rest b .backup, installLeg_rest b .main]

theorem foldl_installLeg_rest (l : List (BookingIx × LegId)) (s : State) :
    l.foldl (fun s x => s.installLeg x.1 x.2) s =
      { s with flows := (l.foldl (fun s x => s.installLeg x.1 x.2) s).flows,
               deferred := (l.foldl (fun s x => s.installLeg x.1 x.2) s).deferred } := by
  induction l generalizing s with
  | nil => rfl
  | cons x l ih =>
    rw [List.foldl_cons, ih, installLeg_rest]

theorem removeFlows_rest (b : BookingIx) (s : State) : s.removeFlows b =
    { s with flows := (s.removeFlows b).flows, deferred := (s.removeFlows b).deferred } := by
  unfold State.removeFlows State.installDeferred
  rw [foldl_installLeg_rest]

theorem closeBooking_rest (b : BookingIx) (s : State) : s.closeBooking b = { s with bookings := (s.closeBooking b).bookings } := by
  unfold State.closeBooking State.updBooking; split <;> rfl

/-- A settlement touches the records, the bills and the raises. -/
theorem settleBooking_rest (b : BookingIx) (s : State) : s.settleBooking b =
    { s with bookings := (s.settleBooking b).bookings, bills := (s.settleBooking b).bills,
             billWaiting := (s.settleBooking b).billWaiting, raised := (s.settleBooking b).raised } := by
  unfold State.settleBooking
  split
  · rfl
  · split
    · unfold State.billNow
      split
      · rfl
      · dsimp only
        split
        · rw [closeBooking_rest]
        · rfl
    · rfl

theorem closeBooking_other {b c : BookingIx} (h : c ≠ b) (s : State) : (s.closeBooking b).booking c = s.booking c := by
  unfold State.closeBooking State.updBooking; split <;> simp [h]

theorem settleBooking_other {b c : BookingIx} (h : c ≠ b) (s : State) :
    (s.settleBooking b).booking c = s.booking c := by
  unfold State.settleBooking
  split
  · rfl
  · split
    · unfold State.billNow
      split
      · rfl
      · dsimp only
        split
        · exact closeBooking_other h _
        · rfl
    · rfl

theorem calm_removeFlows (b : BookingIx) (s : State) : Calm s (s.removeFlows b) := by rw [removeFlows_rest]; rfl

theorem calm_installLegs (b : BookingIx) (s : State) : Calm s (s.installLegs b) := by rw [installLegs_rest]; rfl

theorem calm_setBooking (b : BookingIx) (x : Option Booking) (s : State) : Calm s (s.setBooking b x) := rfl

theorem calm_raise (c : FaultClass) (it : RaiseItems) (d : Option Detail) (s : State) : Calm s (s.raise c it d) := rfl

theorem calm_closeRecord (b : BookingIx) (r : Booking) (cut : CutReason) (s : State) :
    Calm s (s.closeRecord b r cut) :=
  ((calm_removeFlows b s).trans (calm_setBooking ..)).trans (later_settleBooking ..).calm

/-! ## One record -/

/-- The judgement of record `b` reaches that record alone. -/
def Reach.judged (b : BookingIx) : Reach := ⟨fun c x => c = b ∧ (x = .live ∨ x = .overrun), fun _ => False, False⟩

theorem work_judged (m : Moment) (b : BookingIx) (ls : List LegId) (s : State) :
    Work (.judged b) s (s.judge m b ls) :=
  work_judge m ls fun _ _ h => ⟨rfl, of_decide_eq_true h⟩

theorem calm_applyTransition (m : Moment) (b : BookingIx) (r : Booking) (x : Transition) (s : State) :
    Calm s (s.applyTransition m b r x) := by
  cases x with
  | stay => exact .refl s
  | expire => exact (calm_setBooking ..).trans (calm_raise ..)
  | arm => exact (calm_setBooking ..).trans (calm_installLegs ..)
  | goLive => exact (calm_setBooking ..).trans (work_judged ..).calm
  | overrun => exact (calm_setBooking ..).trans (calm_raise ..)
  | close cut =>
    dsimp only [State.applyTransition]
    refine Calm.trans ?_ (calm_closeRecord ..)
    split
    · exact calm_raise ..
    · exact .refl s

theorem calm_scheduleOne (m : Moment) (b : BookingIx) (s : State) : Calm s (s.scheduleOne m b) := by
  unfold State.scheduleOne
  split
  · exact .refl s
  · exact calm_applyTransition ..

theorem calm_schedule (m : Moment) (s : State) : Calm s (s.schedule m) :=
  calm_foldl (fun s b => calm_scheduleOne m b s) _ s

theorem installLegs_booking (b c : BookingIx) (s : State) : (s.installLegs b).booking c = s.booking c := by
  rw [installLegs_rest]; rfl

theorem removeFlows_booking (b c : BookingIx) (s : State) : (s.removeFlows b).booking c = s.booking c := by
  rw [removeFlows_rest]; rfl

/-- A record taken at a boundary leaves every other record. -/
theorem applyTransition_other (m : Moment) {b c : BookingIx} (h : c ≠ b) (r : Booking) (x : Transition) (s : State) :
    (s.applyTransition m b r x).booking c = s.booking c := by
  cases x with
  | stay => rfl
  | expire => exact (State.setBooking_booking ..).trans (if_neg h)
  | arm => exact (installLegs_booking ..).trans ((State.setBooking_booking ..).trans (if_neg h))
  | goLive =>
    have k := (work_judged m b [] (s.setBooking b (some (r.atLive s.sec)))).booking (b := c) fun _ _ e => h e.1
    exact k.trans ((State.setBooking_booking ..).trans (if_neg h))
  | overrun => exact (State.setBooking_booking ..).trans (if_neg h)
  | close cut =>
    dsimp only [State.applyTransition, State.closeRecord]
    rw [settleBooking_other h, State.setBooking_booking, if_neg h, removeFlows_booking]
    split <;> rfl

theorem scheduleOne_other (m : Moment) {b c : BookingIx} (h : c ≠ b) (s : State) :
    (s.scheduleOne m b).booking c = s.booking c := by
  unfold State.scheduleOne
  split
  · rfl
  · exact applyTransition_other m h ..

theorem foldl_scheduleOne_other (m : Moment) {l : List BookingIx} {c : BookingIx} (h : c ∉ l) (s : State) :
    (l.foldl (fun s b => s.scheduleOne m b) s).booking c = s.booking c := by
  induction l generalizing s with
  | nil => rfl
  | cons b l ih =>
    simp only [List.mem_cons, not_or] at h
    exact (ih h.2 _).trans (scheduleOne_other m h.1 s)

/-- The states from which a transition is taken (R12 to R16). -/
def Transition.from : Transition → BookingState → Prop
  | .stay, _ => True
  | .expire, x => x = .confirmed
  | .arm, x => x = .confirmed
  | .goLive, x => x = .armed
  | .overrun, x => x = .live
  | .close _, x => x = .armed ∨ x = .live ∨ x = .overrun

/-- The one transition a record takes is one that its state allows (R12 to R16). -/
theorem transition_from (r : Booking) (now idle : Nat) (restart : Bool) :
    (r.transition now idle restart).from r.state := by
  unfold Booking.transition
  split
  case h_1 h => simp only [Booking.confirmedStep, h]; split_ifs <;> simp [Transition.from]
  case h_2 h => simp only [Booking.armedStep, h]; split_ifs <;> simp [Transition.from]
  case h_3 h => simp only [Booking.liveStep, h]; split_ifs <;> simp [Transition.from]
  case h_4 h =>
    simp only [Booking.overrunStep, h]
    cases r.closeReq <;> split_ifs <;> simp [Transition.from]
  all_goals trivial

/-- A PENDING record and one that has ended stay. -/
theorem transition_stay {r : Booking} (h : r.state ∉ [.confirmed, .armed, .live, .overrun]) (now idle : Nat)
    (restart : Bool) : r.transition now idle restart = .stay := by
  unfold Booking.transition
  cases hs : r.state <;> simp_all

/-! ## The table at a boundary -/

theorem armLegs_fixedTerms (r : Booking) (now timeout : Nat) : (r.armLegs now timeout).fixedTerms = r.fixedTerms := by
  cases h : r.backup <;> simp [Booking.fixedTerms, Booking.armLegs, Booking.legs, Leg.arm, h]

theorem atLive_fixedTerms (r : Booking) (now : Nat) : (r.atLive now).fixedTerms = r.fixedTerms := by
  simp [Booking.fixedTerms, Booking.atLive, Booking.legs, Function.comp_def]

theorem atClosing_fixedTerms (r : Booking) (cut : CutReason) (now : Nat) :
    (r.atClosing cut now).fixedTerms = r.fixedTerms := by
  cases h : r.backup <;> simp [Booking.fixedTerms, Booking.atClosing, Booking.idleLegs, Booking.legs, Leg.toIdle, h]

/-- A closing follows the table: CLOSING, and CLOSED when the settlement bills it at once (R17, R18). -/
theorem follows_closeRecord {b : BookingIx} {r : Booking} (hb : s.booking b = some r) (cut : CutReason)
    (h : r.state = .armed ∨ r.state = .live ∨ r.state = .overrun) : Follows s (s.closeRecord b r cut) := by
  refine Follows.settled (t := (s.removeFlows b).setBooking b (some (r.atClosing cut s.sec))) ?_
    (settles_settleBooking b _)
  refine follows_record (r' := r.atClosing cut s.sec) hb (by simp) (fun c e => ?_) ?_ ?_ (atClosing_fixedTerms ..)
    fun _ => ⟨?_, .inr ?_⟩
  · rw [State.setBooking_booking, if_neg e, removeFlows_booking]
  · rw [removeFlows_rest]; rfl
  · rw [removeFlows_rest]; rfl
  · rcases h with h | h | h <;> rw [h] <;> rfl
  · rcases h with h | h | h <;> simp [h, Booking.atClosing]

theorem follows_applyTransition (m : Moment) {b : BookingIx} {r : Booking} (hb : s.booking b = some r) (x : Transition)
    (h : x.from r.state) : Follows s (s.applyTransition m b r x) := by
  have others : ∀ (y : Option Booking) (c : BookingIx), c ≠ b → (s.setBooking b y).booking c = s.booking c :=
    fun y c e => by simp [e]
  cases x with
  | stay => exact .refl s
  | expire =>
    have h : r.state = .confirmed := h
    exact follows_record (r' := { r with state := .expired, closeSecond := some s.sec }) hb
      (by simp [State.applyTransition, State.expire]) (fun c e => others _ c e) rfl rfl rfl
      fun _ => by rw [h]; exact ⟨rfl, .inr (by simp)⟩
  | arm =>
    have h : r.state = .confirmed := h
    refine follows_record (r' := { r.armLegs s.clock s.identTimeout with state := .armed }) hb ?_ (fun c e => ?_) ?_ ?_
      (armLegs_fixedTerms r s.clock s.identTimeout) fun _ => by rw [h]; exact ⟨rfl, .inr (by simp)⟩
    · exact (installLegs_booking ..).trans (by simp)
    · exact (installLegs_booking ..).trans (others _ c e)
    · dsimp only [State.applyTransition, State.armBooking]; rw [installLegs_rest]; rfl
    · dsimp only [State.applyTransition, State.armBooking]; rw [installLegs_rest]; rfl
  | goLive =>
    have h : r.state = .armed := h
    refine Follows.settled (follows_record (r' := r.atLive s.sec) hb (by simp) (fun c e => others _ c e) rfl rfl
      (atLive_fixedTerms ..) fun _ => ?_) (work_judged m b [] _).quiet.settles
    rw [h]; exact ⟨rfl, .inr (by simp [Booking.atLive])⟩
  | overrun =>
    have h : r.state = .live := h
    exact follows_record (r' := { r with state := .overrun, overrunFrom := some s.sec }) hb
      (by simp [State.applyTransition, State.enterOverrun]) (fun c e => others _ c e) rfl rfl rfl
      fun _ => by rw [h]; exact ⟨rfl, .inr (by simp)⟩
  | close cut =>
    dsimp only [State.applyTransition]
    split
    · have raised : Quiet s (s.raise .overrunExhausted (.ofBooking b) none) := .of_eq rfl rfl rfl rfl
      exact raised.then (follows_closeRecord (by simpa using hb) cut h)
    · exact follows_closeRecord hb cut h

theorem follows_scheduleOne (m : Moment) (b : BookingIx) (s : State) : Follows s (s.scheduleOne m b) := by
  unfold State.scheduleOne
  split
  · exact .refl s
  · next r hr => exact follows_applyTransition m hr _ (transition_from ..)

/-- A PENDING record stays so at a boundary. -/
theorem scheduleOne_pending (m : Moment) (b c : BookingIx) (h : s.stateOf c = some .pending) :
    (s.scheduleOne m b).stateOf c = some .pending := by
  by_cases e : c = b
  · subst e
    obtain ⟨r, hr, hs⟩ := stateOf_eq_some.1 h
    have : s.scheduleOne m c = s := by
      unfold State.scheduleOne
      simp only [hr, transition_stay (r := r) (by simp [hs])]; rfl
    rwa [this]
  · simpa [State.stateOf, scheduleOne_other m e] using h

theorem scheduleOne_bookPending (m : Moment) (b : BookingIx) (h : s.BookPending) : (s.scheduleOne m b).BookPending := by
  intro e he hk
  exact scheduleOne_pending m b _ (h e ((calm_scheduleOne m b s).entries ▸ he) hk)

theorem foldl_scheduleOne_laws (m : Moment) (l : List BookingIx) (hb : s.BillsMatch) (hp : s.BookPending) :
    (l.foldl (fun s b => s.scheduleOne m b) s).BillsMatch ∧ (l.foldl (fun s b => s.scheduleOne m b) s).BookPending := by
  induction l generalizing s with
  | nil => exact ⟨hb, hp⟩
  | cons b l ih => exact ih ((follows_scheduleOne m b s).bills hb hp) (scheduleOne_bookPending m b hp)

/-- What the scheduler makes of record `b` is what its one transition makes of it, from a state that differs elsewhere
alone. -/
theorem schedule_at (m : Moment) (b : BookingIx) (s : State) : ∃ before after : List BookingIx,
    s.schedule m = after.foldl (fun s b => s.scheduleOne m b)
      ((before.foldl (fun s b => s.scheduleOne m b) s).scheduleOne m b) ∧ b ∉ before ∧ b ∉ after := by
  obtain ⟨before, after, e, h1, h2⟩ := bookingOrder_split m b
  exact ⟨before, after, by rw [State.schedule, e, List.foldl_append, List.foldl_cons], h1, h2⟩

theorem follows_schedule (m : Moment) (s : State) : Follows s (s.schedule m) := by
  have one : ∀ b, ∃ u : State, u.booking b = s.booking b ∧ (s.schedule m).booking b = (u.scheduleOne m b).booking b ∧
      (s.BillsMatch → s.BookPending → u.BillsMatch ∧ u.BookPending) := fun b => by
    obtain ⟨before, after, e, h1, h2⟩ := schedule_at m b s
    exact ⟨_, foldl_scheduleOne_other m h1 s, by rw [e, foldl_scheduleOne_other m h2],
      fun hb hp => foldl_scheduleOne_laws m before hb hp⟩
  refine ⟨fun b x y hx hy => ?_, fun hb hp b => ?_, fun hb hp => (foldl_scheduleOne_laws m _ hb hp).1⟩
  · obtain ⟨u, e1, e2, -⟩ := one b
    refine (follows_scheduleOne m b u).terms b x y ?_ ?_
    · rw [State.termsOf, e1]; exact hx
    · rw [State.termsOf, ← e2]; exact hy
  · obtain ⟨u, e1, e2, laws⟩ := one b
    obtain ⟨hb', hp'⟩ := laws hb hp
    have := (follows_scheduleOne m b u).moves hb' hp' b
    simpa only [State.stateOf, e1, e2] using this

/-! ## The completion of a restart (R24) -/

theorem finishRestart_booking (b : BookingIx) (s : State) :
    s.finishRestart.booking b = (s.booking b).bind Booking.afterRestart := by
  simp [State.booking, State.finishRestart]

theorem afterRestart_closed {r : Booking} (h : r.state = .closed) : r.afterRestart =
    some (if r.extendPending then { r with extendPending := false, lastExtend := some .state } else r) := by
  simp [Booking.afterRestart, h]

theorem afterRestart_none {r : Booking} (h : r.state ≠ .closed) : r.afterRestart = none := by
  simp [Booking.afterRestart, h]

theorem finishRestart_stateOf (b : BookingIx) (s : State) :
    s.finishRestart.stateOf b = if s.stateOf b = some .closed then some .closed else none := by
  rw [State.stateOf, finishRestart_booking, State.stateOf]
  cases h : s.booking b with
  | none => rfl
  | some r =>
    by_cases hc : r.state = .closed
    · simp only [Option.bind_some, afterRestart_closed hc, Option.map_some, hc, if_true]
      split <;> simp [hc]
    · simp [afterRestart_none hc, hc]

/-- No booking holds the restart open. -/
theorem not_holdsRestart (h : s.anyBooking Booking.holdsRestart = false) (b : BookingIx) :
    s.stateOf b ∉ [some .armed, some .live, some .overrun, some .closing] := by
  have h' : ∀ r, s.booking b = some r → r.holdsRestart = false := by
    intro r hr
    simp only [State.anyBooking, List.any_eq_false, Vector.mem_toList_iff] at h
    have hm : some r ∈ s.bookings := by rw [← hr]; exact Vector.getElem_mem ..
    simpa using h (some r) hm
  cases hr : s.booking b with
  | none => simp [State.stateOf, hr]
  | some r =>
    have := h' r hr
    simp only [Booking.holdsRestart, Booking.carrying, Bool.or_eq_false_iff, decide_eq_false_iff_not, not_or] at this
    simp [State.stateOf, hr, this]

/-- A restart's completion frees what it finds, but for CLOSED records (R24). -/
theorem mayBecome_freed {x y : Option BookingState} (h : mayBecome x y = true)
    (free : y ∉ [some .armed, some .live, some .overrun, some .closing]) :
    mayBecome x (if y = some .closed then some .closed else none) = true := by
  cases x with
  | none => simp [mayBecome] at h ⊢; rcases h with rfl | rfl <;> simp
  | some x =>
    split
    · next e => rwa [e] at h
    · next e => cases x <;> simp_all [mayBecome]

theorem follows_tryFinishRestart (m : Moment) (h : Follows s t) : Follows s (t.tryFinishRestart m) := by
  unfold State.tryFinishRestart
  split
  · next hf =>
    have h := h.settled (quiet_flush m t).settles
    simp only [Bool.and_eq_true, Bool.not_eq_true'] at hf
    have hf : (t.flush m).anyBooking Booking.holdsRestart = false := by rw [flush_rest]; exact hf.2
    generalize t.flush m = u at h hf
    have free := not_holdsRestart hf
    refine ⟨fun b x y hx hy => ?_, fun hb hp b => ?_, fun hb hp => ?_⟩
    · refine h.terms b x y hx ?_
      rw [State.termsOf, finishRestart_booking] at hy
      cases hr : u.booking b with
      | none => simp [hr] at hy
      | some r =>
        rw [hr, Option.bind_some] at hy
        rw [State.termsOf, hr, ← hy]
        by_cases hc : r.state = .closed
        · rw [afterRestart_closed hc]; split <;> rfl
        · rw [afterRestart_none hc] at hy; simp at hy
    · rw [finishRestart_stateOf]; exact mayBecome_freed (h.moves hb hp b) (free b)
    · refine (h.bills hb hp).congr rfl rfl (fun b => ?_) fun b hc => ?_
      · rw [finishRestart_stateOf]; split <;> simp_all
      · exact absurd (by simp [hc]) (free b)
  · exact h

/-! ## The boundary -/

theorem quiet_classify (i : Nat) (s : State) : Quiet s (s.classify i) := by
  refine ⟨fun b => ?_, (later_classify i s).termsOf, rfl, rfl, rfl⟩
  simp only [State.stateOf, State.booking, State.classify, Fin.getElem_fin, Vector.getElem_map, Option.map_map]
  congr 1
  funext r
  simp only [Function.comp_apply]
  split <;> rfl

theorem follows_boundary (m : Moment) (s : State) : Follows s (s.boundary m) := by
  dsimp only [State.boundary]
  have start : Quiet s s.stepSecond.portsBoundary := .of_eq rfl rfl rfl rfl
  have classified := start.trans (quiet_classify s.sec _)
  have watches := fun (o : List BookingIx) (l : List (BookingIx × Booking)) (t : State) =>
    (work_watchBoundary Reach.all_watches m o l t).quiet
  split
  · exact (classified.trans (watches ..)).then (follows_tryFinishRestart m (follows_schedule m _))
  · exact (classified.then (follows_tryFinishRestart m (follows_schedule m _))).settled (watches ..).settles

end Sys2Proof.Machine
end

section
/-! Every command keeps the lifecycle of section 1.3, the terms of a record (R2, R3) and the match of bills and bookings
(R155, R163). -/

namespace Sys2Proof.Machine
open Sys2Proof.Config

variable {s t : State}

/-! ## One request -/

theorem follows_checked {c : Option Result} {a : Answer} (h : c = none → Follows s a.state) :
    Follows s (checked c s a).state := by
  cases c with
  | none => exact h rfl
  | some res => exact .refl s

theorem follows_takeRequest {α : Type} {act : α → State → Answer} (h : ∀ a, Follows s (act a s).state) (r : Req)
    (code : Nat) (body : Body α) : Follows s (s.takeRequest r code body act) := by
  unfold State.takeRequest
  split
  · exact .refl s
  · split
    · exact (quiet_respond ..).follows
    · split
      · exact (quiet_respond ..).follows
      · exact (h _).settled (quiet_respond ..).settles

/-- A request whose effect writes neither records nor bills. -/
theorem follows_of_eq (bookings : t.bookings = s.bookings) (bills : t.bills = s.bills)
    (waits : t.billWaiting = s.billWaiting) : Follows s t := (settles_of_eq bookings bills waits).follows

/-! ## Device, time and ports -/

theorem quiet_markRestart (s : State) : Quiet s s.markRestart := by
  have e : ∀ b, s.markRestart.booking b =
      (s.booking b).map fun r => if r.carrying then { r with restartClose := true } else r := by
    intro b; simp [State.markRestart, State.booking]
  refine ⟨fun b => ?_, fun b => ?_, rfl, rfl, rfl⟩
  · rw [State.stateOf, e, Option.map_map, State.stateOf]
    congr 1; funext r; simp only [Function.comp_apply]; split <;> rfl
  · rw [State.termsOf, e, Option.map_map, State.termsOf]
    congr 1; funext r; simp only [Function.comp_apply]; split <;> rfl

theorem follows_actRestart (m : Moment) (s : State) : Follows s (actRestart m s).state :=
  follows_checked fun _ => (quiet_markRestart s).then (settles_abortAll m _).follows

theorem follows_writePort (m : Moment) (p : PortIx) (a : PortSetArgs) (s : State) : Follows s (s.writePort m p a) := by
  dsimp only [State.writePort]
  have written := quiet_setPort p (PortSetArgs.apply a (s.port p)) s
  split
  · exact written.then ((work_emptyMedia m p _).quiet.then (settles_endProbeOf ..).follows)
  · exact written.follows

/-! ## Bookings -/

theorem handEntry_rest (e : AdmissionEntry) (s : State) :
    s.handEntry e = { s with scan := (s.handEntry e).scan, waiting := (s.handEntry e).waiting } := by
  unfold State.handEntry
  split
  · unfold State.beginScan; split <;> rfl
  · rfl

theorem handEntry_booking (e : AdmissionEntry) (b : BookingIx) (s : State) : (s.handEntry e).booking b = s.booking b := by
  rw [handEntry_rest]; rfl

theorem settles_handEntry (e : AdmissionEntry) (s : State) : Settles s (s.handEntry e) := by
  rw [handEntry_rest]; exact settles_of_eq rfl rfl rfl

/-- A BOOK that passes its checks finds a FREE record (R10). -/
theorem firstFree_of_room (h : s.bookings.toList.all Option.isSome = false) :
    s.booking (s.firstFree.getD 0) = none := by
  have found : s.firstFree.isSome := by
    simp only [State.firstFree, List.find?_isSome, List.mem_finRange, true_and]
    simp only [List.all_eq_false, Vector.mem_toList_iff, Vector.mem_iff_getElem] at h
    obtain ⟨_, ⟨i, hi, rfl⟩, hx⟩ := h
    exact ⟨⟨i, hi⟩, by simpa [State.booking] using hx⟩
  obtain ⟨b, hb⟩ := Option.isSome_iff_exists.1 found
  rw [hb]
  simpa using List.find?_some hb

/-- A FREE record taken by a BOOK becomes PENDING. -/
theorem follows_fill {b : BookingIx} {r : Booking} (hb : s.booking b = none) (hr : r.state = .pending) :
    Follows s (s.setBooking b (some r)) := by
  have here : (s.setBooking b (some r)).stateOf b = some .pending := by simp [State.stateOf, hr]
  have free : s.stateOf b = none := by simp [State.stateOf, hb]
  have others : ∀ c, c ≠ b → (s.setBooking b (some r)).stateOf c = s.stateOf c := fun c e => by simp [State.stateOf, e]
  refine ⟨fun c x y hx hy => ?_, fun _ _ c => ?_, fun h _ => h.congr rfl rfl (fun c => ?_) fun c hc => ?_⟩
  · by_cases e : c = b
    · subst e; simp [State.termsOf, hb] at hx
    · simp only [State.termsOf, State.setBooking_booking, e, if_false] at hx hy
      rw [hx] at hy; exact (Option.some_inj.1 hy).symm
  · by_cases e : c = b
    · subst e; rw [here, free]; rfl
    · rw [others c e]; exact mayBecome_self _
  · by_cases e : c = b
    · subst e; rw [here, free]; simp
    · rw [others c e]
  · by_cases e : c = b
    · subst e; rw [free] at hc; cases hc
    · rw [others c e]; exact hc

theorem follows_actBook (a : BookArgs) (s : State) : Follows s (actBook a s).state := by
  refine follows_checked fun h => ?_
  rw [checkBook, firstFailing_none] at h
  have room := h (s.bookings.toList.all Option.isSome, .noRoom) (by simp)
  exact (follows_fill (r := BookArgs.toBooking a) (firstFree_of_room room) rfl).settled (settles_handEntry ..)

theorem follows_cancelBooking {b : BookingIx} {r : Booking} (hb : s.booking b = some r) :
    Follows s (s.cancelBooking b r).state := by
  have at_ := stateOf_of_booking hb
  unfold State.cancelBooking
  split
  case h_1 => exact follows_setBooking hb rfl rfl
  case h_2 hs =>
    split
    · refine Follows.settled (follows_record (r' := r.atLateCancel s.sec) hb (State.setBooking_booking .. |>.trans (if_pos rfl))
        (fun c e => by simp [e]) rfl rfl rfl fun _ => ?_) (settles_settleBooking b _)
      rw [hs]; exact ⟨rfl, .inr (by simp [Booking.atLateCancel])⟩
    · exact follows_freeBooking (by rw [at_, hs]; rfl) (by rw [at_, hs]; simp)
  case h_3 => exact follows_setBooking hb rfl rfl
  case h_4 => exact follows_setBooking hb rfl rfl
  all_goals exact .refl s

theorem follows_actCancel (n : Nat) (s : State) : Follows s (actCancel n s).state := by
  refine follows_checked fun _ => ?_
  split
  · next r hr => exact follows_cancelBooking hr
  · exact .refl s

theorem follows_actClose (n : Nat) (s : State) : Follows s (actClose n s).state := by
  refine follows_checked fun _ => ?_
  show Follows s (s.updBooking _ _)
  unfold State.updBooking
  split
  · exact .refl s
  · next r hr => exact follows_setBooking hr rfl rfl

theorem follows_actExtend (a : ExtendArgs) (s : State) : Follows s (actExtend a s).state := by
  refine follows_checked fun _ => ?_
  split
  · next r hr =>
    exact (follows_setBooking (r' := { r with extendPending := true }) hr rfl rfl).settled (settles_handEntry ..)
  · exact .refl s

theorem applyMode_kept (r : Booking) (mode : ProtectionMode) :
    (r.applyMode mode).fixedTerms = r.fixedTerms ∧ (r.applyMode mode).state = r.state := by
  unfold Booking.applyMode
  split
  · cases h : r.backup <;> simp [Booking.fixedTerms, Booking.legs, Leg.applyMode, h]
  · exact ⟨rfl, rfl⟩

theorem follows_actMode (m : Moment) (a : ModeArgs) (s : State) : Follows s (actMode m a s).state := by
  refine follows_checked fun _ => ?_
  split
  · next r hr =>
    obtain ⟨terms, state⟩ := applyMode_kept r ((ProtectionMode.ofCode a.mode).getD .merge)
    exact (follows_setBooking hr terms state).settled (work_judged ..).quiet.settles
  · exact .refl s

theorem follows_actBookingRead (n : Nat) (s : State) : Follows s (actBookingRead n s).state := by
  refine follows_checked fun _ => ?_
  show Follows s (if _ then _ else _ : State)
  split
  · next h =>
    obtain ⟨r, hr, hf⟩ := (Option.any_eq_true ..).1 h
    have at_ := stateOf_of_booking hr
    rcases of_decide_eq_true hf with e | e | e <;>
      exact follows_freeBooking (by rw [at_, e]; rfl) (by rw [at_, e]; simp)
  · exact .refl s

/-! ## The release of a bill (R165) -/

theorem closeBooking_termsOf (b c : BookingIx) (s : State) : (s.closeBooking b).termsOf c = s.termsOf c :=
  (later_closeBooking b s).termsOf c

/-- The head bill removed and its CLOSED booking freed. -/
theorem follows_freeHead {b : BookingIx} {x : Bill} {rest : List Bill} (e : s.bills = x :: rest) (hx : x.booking = b) :
    Follows s (State.freeBooking b { s with bills := s.bills.tail }) := by
  have states : ∀ c, State.stateOf (State.freeBooking b { s with bills := s.bills.tail }) c =
      if c = b then none else s.stateOf c := fun c => by
    rw [State.stateOf, freeBooking_booking]; split <;> rfl
  have queue : (State.freeBooking b { s with bills := s.bills.tail }).bills = rest := by
    show s.bills.tail = rest
    rw [e]; rfl
  have head : s.BillsMatch → s.stateOf b = some .closed := fun hb => by
    rw [billsMatch_iff, e] at hb; exact (hb.2.1 b).1 (by simp [hx])
  refine ⟨fun c x y hx hy => ?_, fun hb _ c => ?_, fun hb _ => ?_⟩
  · rw [State.termsOf, freeBooking_booking] at hy
    split at hy
    · cases hy
    · rw [← hx.symm.trans hy |> Option.some_inj.1]
  · rw [states]
    split
    · next e => rw [e, head hb]; rfl
    · exact mayBecome_self _
  · have closed := head hb
    rw [billsMatch_iff, e, List.map_cons, List.nodup_cons, hx] at hb
    obtain ⟨⟨h1, h1'⟩, h2, h3, h4⟩ := hb
    rw [billsMatch_iff, queue]
    refine ⟨h1', fun c => ?_, h3, fun c hc => ?_⟩
    · rw [states]
      by_cases ec : c = b
      · subst ec; simpa using h1
      · simpa [ec] using h2 c
    · have ec : c ≠ b := fun e => by have := h4 c hc; rw [e, closed] at this; cases this
      rw [states, if_neg ec]; exact h4 c hc

/-- A waiting bill moved up: its booking, CLOSING by the law, becomes CLOSED (R155). -/
theorem promoteBill_states (h : s.BillsMatch) (c : BookingIx) : s.promoteBill.stateOf c = s.stateOf c ∨
    s.stateOf c = some .closing ∧ s.promoteBill.stateOf c = some .closed := by
  unfold State.promoteBill
  split
  · exact .inl rfl
  · next w rest hw =>
    rw [closeBooking_stateOf]
    have old : ∀ c, State.stateOf { s with bills := s.bills ++ [w], billWaiting := rest } c = s.stateOf c := fun _ => rfl
    split
    · next e =>
      have closing := stateOf_eq_some.2 (h.closing w (by simp [hw]))
      rw [e, old, closing]; exact .inr ⟨rfl, rfl⟩
    · exact .inl (old c)

theorem promoteBill_termsOf (c : BookingIx) (s : State) : s.promoteBill.termsOf c = s.termsOf c := by
  unfold State.promoteBill
  split
  · rfl
  · exact closeBooking_termsOf ..

theorem promoteBill_billsMatch (h : s.BillsMatch) : s.promoteBill.BillsMatch := by
  have states := promoteBill_states h
  rw [billsMatch_iff] at h
  obtain ⟨h1, h2, h3, h4⟩ := h
  unfold State.promoteBill at states ⊢
  split
  · exact billsMatch_iff.2 ⟨h1, h2, h3, h4⟩
  · next w rest hw =>
    simp only [hw] at states
    rw [hw, List.map_cons] at h3 h4
    have closing := h4 w.booking (by simp)
    have new : w.booking ∉ s.bills.map (·.booking) := fun hm => by
      have := (h2 _).1 hm; rw [closing] at this; cases this
    obtain ⟨e1, e2⟩ := closeBooking_bills w.booking { s with bills := s.bills ++ [w], billWaiting := rest }
    have moved := fun c => closeBooking_stateOf w.booking c { s with bills := s.bills ++ [w], billWaiting := rest }
    have old : ∀ c, State.stateOf { s with bills := s.bills ++ [w], billWaiting := rest } c = s.stateOf c := fun _ => rfl
    rw [billsMatch_iff, e1, e2]
    simp only [List.map_append, List.map_cons, List.map_nil, moved, old, closing]
    rw [List.nodup_cons] at h3
    refine ⟨List.nodup_append.2 ⟨h1, by simp, ?_⟩, fun c => ?_, h3.2, fun c hc => ?_⟩
    · rintro x hx y hy rfl; exact new (by rwa [List.mem_singleton.1 hy] at hx)
    · by_cases e : c = w.booking
      · simp [e]
      · simpa [e] using h2 c
    · have e : c ≠ w.booking := fun e => h3.1 (e ▸ hc)
      simpa [e] using h4 c (by simp only [List.mem_cons]; exact .inr hc)

theorem Follows.promoted (h : Follows s t) : Follows s t.promoteBill where
  terms b x y hx hy := h.terms b x y hx (by rw [← promoteBill_termsOf]; exact hy)
  moves hb hp b := by
    have m := h.moves hb hp b
    rcases promoteBill_states (h.bills hb hp) b with e | ⟨e, e'⟩
    · rwa [e]
    · rw [e] at m; rw [e']; exact mayBecome_closed m
  bills hb hp := promoteBill_billsMatch (h.bills hb hp)

theorem follows_actBillRelease (n : Nat) (s : State) : Follows s (actBillRelease n s).state := by
  refine follows_checked fun h => ?_
  rw [checkBillRelease, firstFailing_none] at h
  have range := h (decide (255 < n), .range) (by simp)
  have head := h (!(s.bills.head?.any fun x => decide (x.booking.val = n)), .state) (by simp)
  simp only [decide_eq_false_iff_not, Nat.not_lt] at range
  cases e : s.bills with
  | nil => simp [e] at head
  | cons x rest =>
    simp only [e, List.head?_cons, Option.any_some, Bool.not_eq_false', decide_eq_true_eq] at head
    exact (follows_freeHead e (Fin.ext (by simp [head, bookingIx, Fin.ofNat]; omega))).promoted

/-! ## Admission (R33 to R36) -/

theorem afterExtend_kept (r : Booking) (total : Nat) (clamped : Bool) (v : Option Verdict) :
    (r.afterExtend total clamped v).fixedTerms = r.fixedTerms ∧ (r.afterExtend total clamped v).state = r.state := by
  unfold Booking.afterExtend
  split
  · split <;> exact ⟨rfl, rfl⟩
  · exact ⟨rfl, rfl⟩

theorem settles_raiseAdmission (b : BookingIx) (x : Bool) (c : Nat) (v : Option Verdict) (s : State) :
    Settles s (s.raiseAdmission b x c v) := settles_of_eq rfl rfl rfl

/-- An entry of the queue settled: a BOOK entry settles its PENDING record (R11), an EXTEND entry changes no state. -/
theorem follows_completeEntry {e : AdmissionEntry} (he : e ∈ s.entries) (v : Option Verdict) :
    Follows s (State.completeEntry e v { s with scan := none }) := by
  have bare : ∀ {t : State}, t.bookings = s.bookings → t.bills = s.bills → t.billWaiting = s.billWaiting → Follows s t :=
    follows_of_eq
  unfold State.completeEntry
  split
  · exact bare rfl rfl rfl
  · split
    · next hk =>
      have settled : ∀ r r' : Booking, s.booking e.booking = some r → r'.fixedTerms = r.fixedTerms →
          r'.state ∈ [.cancelled, .confirmed, .refused] →
          Follows s (State.setBooking { s with scan := none } e.booking (some r')) := by
        intro r r' hr terms state
        refine follows_record hr (by simp) (fun c ec => ?_) rfl rfl terms fun hp => ?_
        · rw [State.setBooking_booking, if_neg ec]; rfl
        · have := hp e he hk
          rw [stateOf_of_booking hr, Option.some_inj] at this
          rw [this]
          simp only [List.mem_cons, List.not_mem_nil, or_false] at state
          rcases state with e | e | e <;> rw [e] <;> exact ⟨rfl, .inr (by simp)⟩
      unfold State.completeBook
      split
      · exact bare rfl rfl rfl
      · next r hr =>
        split
        · exact (settled r { r with state := .cancelled } hr rfl (by simp)).settled (settles_raiseAdmission ..)
        · split
          · exact (settled r { r with state := .confirmed } hr rfl (by simp)).settled (settles_raiseAdmission ..)
          · exact (settled r { r with state := .refused, detail := _ } hr rfl (by simp)).settled
              (settles_raiseAdmission ..)
    · next total clamped _ =>
      unfold State.completeExtend
      split
      · exact bare rfl rfl rfl
      · next r hr =>
        obtain ⟨terms, state⟩ := afterExtend_kept r total clamped v
        have written : Follows s (State.setBooking { s with scan := none } e.booking
            (some (r.afterExtend total clamped v))) :=
          follows_record hr (by simp) (fun c ec => by rw [State.setBooking_booking, if_neg ec]; rfl) rfl rfl terms
            fun _ => ⟨by rw [state]; exact mayBecome_self _, .inl state⟩
        dsimp only
        split
        · split <;> exact written.settled (settles_raiseAdmission ..)
        · exact written.settled (settles_raiseAdmission ..)

theorem settles_startWaiting (l : List AdmissionEntry) (s : State) : Settles s (s.startWaiting l) := by
  induction l generalizing s with
  | nil => exact settles_of_eq rfl rfl rfl
  | cons e l ih =>
    unfold State.startWaiting
    split
    · exact (ih _).after (settles_of_eq rfl rfl rfl)
    · unfold State.beginScan; split <;> exact settles_of_eq rfl rfl rfl

theorem follows_completeScan {sc : Scan} (h : s.scan = some sc) : Follows s (s.completeScan sc) := by
  dsimp only [State.completeScan]
  refine (follows_completeEntry (e := sc.entry) ?_ _).settled (settles_startWaiting ..)
  simp [State.entries, h]

/-! ## Every request -/

theorem follows_takeCommand (c : Instr) (s : State) : Follows s (s.takeCommand c) := by
  have same : ∀ {t : State}, t.bookings = s.bookings → t.bills = s.bills → t.billWaiting = s.billWaiting → Follows s t :=
    follows_of_eq
  cases c with
  | unknownRequestCode r code =>
    dsimp only [State.takeCommand, reqUnknownRequestCode]
    split
    · exact .refl s
    · exact follows_takeRequest (fun _ => .refl s) ..
  | identify r b => exact follows_takeRequest (fun _ => same rfl rfl rfl) ..
  | restart r b => exact follows_takeRequest (fun _ => follows_actRestart r.m s) ..
  | noticeSet r b => exact follows_takeRequest (fun _ => follows_checked fun _ => same rfl rfl rfl) ..
  | timeSet r b => exact follows_takeRequest (fun _ => follows_checked fun _ => same rfl rfl rfl) ..
  | timeRead r b => exact follows_takeRequest (fun _ => .refl s) ..
  | portSet r b => exact follows_takeRequest (fun _ => follows_checked fun _ => follows_writePort ..) ..
  | portRead r b => exact follows_takeRequest (fun _ => follows_checked fun _ => .refl s) ..
  | book r b => exact follows_takeRequest (fun a => follows_actBook a s) ..
  | cancel r b => exact follows_takeRequest (fun a => follows_actCancel a s) ..
  | close r b => exact follows_takeRequest (fun a => follows_actClose a s) ..
  | extend r b => exact follows_takeRequest (fun a => follows_actExtend a s) ..
  | mode r b => exact follows_takeRequest (fun a => follows_actMode r.m a s) ..
  | bookingRead r b => exact follows_takeRequest (fun a => follows_actBookingRead a s) ..
  | patternSet r b => exact follows_takeRequest (fun _ => follows_checked fun _ => same rfl rfl rfl) ..
  | patternRead r b => exact follows_takeRequest (fun _ => follows_checked fun _ => .refl s) ..
  | tariffSet r b => exact follows_takeRequest (fun _ => follows_checked fun _ => same rfl rfl rfl) ..
  | tariffRead r b => exact follows_takeRequest (fun _ => follows_checked fun _ => .refl s) ..
  | probe r b =>
    refine follows_takeRequest (fun a => follows_checked fun _ => ?_) ..
    show Follows s (s.probeRequest (portIx a)).1
    rw [probeRequest_rest]; exact same rfl rfl rfl
  | probeRead r b => exact follows_takeRequest (fun _ => follows_checked fun _ => .refl s) ..
  | probeConfig r b => exact follows_takeRequest (fun _ => follows_checked fun _ => same rfl rfl rfl) ..
  | watchSet r b => exact follows_takeRequest (fun _ => follows_checked fun _ => same rfl rfl rfl) ..
  | watchRead r b => exact follows_takeRequest (fun _ => follows_checked fun _ => .refl s) ..
  | watchUnfreeze r b => exact follows_takeRequest (fun _ => follows_checked fun _ => same rfl rfl rfl) ..
  | faultRead r b => exact follows_takeRequest (fun _ => same rfl rfl rfl) ..
  | faultClear r b => exact follows_takeRequest (fun _ => follows_checked fun _ => same rfl rfl rfl) ..
  | faultMask r b => exact follows_takeRequest (fun _ => follows_checked fun _ => same rfl rfl rfl) ..
  | billRead r b => exact follows_takeRequest (fun _ => .refl s) ..
  | billRelease r b => exact follows_takeRequest (fun a => follows_actBillRelease a s) ..
  | powerOn _ => exact .refl s
  | secondBoundary _ => exact .refl s
  | lightLost _ _ => exact .refl s
  | lightReturns _ _ => exact .refl s
  | frameReceived _ _ _ => exact .refl s
  | slotStart _ _ => exact .refl s
  | transmitterPasses _ => exact .refl s
  | silenceTimerExpiry _ _ _ => exact .refl s
  | identTimeoutExpiry _ _ _ => exact .refl s
  | phaseTimerExpiry _ => exact .refl s
  | traceDelivered _ _ => exact .refl s
  | admissionCompletion _ => exact .refl s

/-- A request's command is its moment, then the request taken. -/
theorem exec_request {c : Instr} {r : Req} (h : c.sender = some r) (s : State) :
    exec c s = .next ((s.advance r.m).takeCommand c) := by
  cases c <;> simp only [Instr.sender, reduceCtorEq, Option.some_inj] at h <;> subst h <;> rfl

/-! ## Light, frames and timers -/

theorem quiet_setFlow (x : FlowEntry) (s : State) : Quiet s (s.setFlow x) := .of_eq rfl rfl rfl rfl

theorem quiet_loseLight (m : Moment) (p : PortIx) (s : State) : Quiet s (s.loseLight m p) := by
  dsimp only [State.loseLight]
  have dark : Quiet s ((s.setLink p .down).raise .los (.ofPort p) none) := .of_eq rfl rfl rfl rfl
  have probed := fun t : State => (work_autoProbe (R := .all) p t).quiet
  have left : ∀ (x : Bool) (t : State), Quiet t (if x = true then t.leaveUp m p else t) := fun x t => by
    split
    · exact (work_leaveUp m p t).quiet
    · exact (Work.refl (R := .all) t).quiet
  have captured := fun t : State => (work_recapturePort m p t).quiet
  cases m.autoFirst
  · exact ((dark.trans (left ..)).trans (captured _)).trans (probed _)
  · exact ((dark.trans (probed _)).trans (left ..)).trans (captured _)

theorem quiet_enterLof (m : Moment) (p : PortIx) (s : State) : Quiet s (s.enterLof m p) := by
  have lof : Quiet s ((s.setLink p .lof).raise .lof (.ofPort p) none) := .of_eq rfl rfl rfl rfl
  exact (lof.trans (work_leaveUp m p _).quiet).trans (work_recapturePort m p _).quiet

theorem quiet_watch (m : Moment) (e : WatchEvent) (s : State) : Quiet s (s.watch m e) :=
  (work_watch Reach.all_watches m e s).quiet

theorem quiet_mediaFrame (m : Moment) (p : PortIx) (f : Frame) (bits : Option FrameBits) (s : State) :
    Quiet s (s.mediaFrame m p f bits) := by
  dsimp only [State.mediaFrame]
  split
  · exact quiet_watch ..
  · split
    · exact (quiet_setFlow _ s).trans (work_mergeFrame ..).quiet
    · exact (quiet_setFlow _ s).trans (work_policerDrop ..).quiet

theorem quiet_identAtFlow (m : Moment) (p : PortIx) (f : Frame) (bits : Option FrameBits) (s : State) :
    Quiet s (s.identAtFlow m p f bits) := by
  unfold State.identAtFlow
  split
  · exact quiet_watch ..
  · exact (work_identFrame m _ _ (Reach.all_has _ _)).quiet

theorem follows_receive (m : Moment) (p : PortIx) (bytes : List Byte) (s : State) : Follows s (s.receive m p bytes) := by
  unfold State.receive
  split
  · split
    · dsimp only [State.malformed]
      have counted := quiet_setPort p (s.port p).badCheck s
      split
      · exact ((counted.trans (quiet_enterLof m p _)).trans (quiet_watch ..)).follows
      · exact (counted.trans (quiet_watch ..)).follows
    · next f _ =>
      dsimp only [State.goodFrame]
      refine ((quiet_setPort p (s.port p).goodFrame s).trans
        (quiet_watch m (frameEvent .rxFrames p none (headerBits bytes) 1) _)).then ?_
      unfold State.deliverFrame
      split
      · exact .refl _
      · unfold State.controlFrameIn
        split
        · exact .refl _
        · split
          · exact .refl _
          · exact (quiet_takeEarly ..).then (follows_takeCommand ..)
      · split
        · exact (quiet_identAtFlow ..).follows
        · exact (quiet_mediaFrame ..).follows
  · exact .refl s

/-- Every command but power-on keeps the table. -/
theorem follows_exec {c : Instr} (hc : ∀ st, c ≠ .powerOn st) (h : exec c s = .next t) : Follows s t := by
  have now := fun m => quiet_advance m s
  cases hs : c.sender with
  | some r =>
    rw [exec_request hs] at h
    cases h
    exact (now r.m).then (follows_takeCommand ..)
  | none =>
    cases c with
    | powerOn st => exact absurd rfl (hc st)
    | secondBoundary m =>
      cases h
      exact (now m).then ((follows_boundary m _).settled (quiet_flush ..).settles)
    | lightLost m p =>
      dsimp only [exec, execLightLost] at h
      split at h <;> cases h
      · exact (now m).then ((quiet_loseLight m p _).trans (quiet_flush ..)).follows
      · exact (now m).follows
    | lightReturns m p =>
      dsimp only [exec, execLightReturns] at h
      split at h <;> cases h
      · exact (now m).follows
      · exact ((now m).trans (quiet_setPort ..)).then
          ((settles_endProbeOf ..).trans (quiet_flush ..).settles).follows
    | frameReceived m p bytes =>
      cases h
      exact (now m).then ((follows_receive ..).settled (quiet_flush ..).settles)
    | slotStart m p =>
      dsimp only [exec, execSlotStart] at h
      split at h
      · cases h; exact (now m).follows
      · split at h <;> cases h
        · exact ((now m).trans ((quiet_elapseTo ..).trans (quiet_setPort ..))).follows
        · exact ((now m).trans (quiet_setPort ..)).follows
    | transmitterPasses m =>
      dsimp only [exec, execTransmitterPasses] at h
      split at h
      · split at h <;> cases h
        · exact (now m).then (follows_of_eq rfl rfl rfl)
        · exact (now m).follows
      · cases h; exact (now m).follows
    | silenceTimerExpiry m b l =>
      dsimp only [exec, execSilenceTimerExpiry] at h
      split at h <;> cases h
      · exact (((now m).trans (quiet_elapseTo ..)).trans ((work_legSilent ..).quiet.trans (quiet_flush ..))).follows
      · exact (now m).follows
    | identTimeoutExpiry m b l =>
      dsimp only [exec, execIdentTimeoutExpiry] at h
      split at h <;> cases h
      · exact (((now m).trans (quiet_elapseTo ..)).trans
          ((work_identExpire m l (Reach.all_has _ _)).quiet.trans (quiet_flush ..))).follows
      · exact (now m).follows
    | phaseTimerExpiry m =>
      dsimp only [exec, execPhaseTimerExpiry] at h
      split at h
      · split at h <;> cases h
        · exact ((now m).trans (quiet_elapseTo ..)).then
            ((settles_endFlight ..).trans (quiet_flush ..).settles).follows
        · exact (now m).follows
      · cases h; exact (now m).follows
    | traceDelivered m x =>
      dsimp only [exec, execTraceDelivered] at h
      split at h
      · split at h
        · split at h <;> cases h
          · exact ((now m).trans (quiet_elapseTo ..)).then
              ((settles_deliver ..).trans (quiet_flush ..).settles).follows
          · exact (now m).follows
        · cases h; exact (now m).follows
      · cases h; exact (now m).follows
    | admissionCompletion m =>
      have begun : Quiet s (s.beginEvent m.dt) := .of_eq rfl rfl rfl rfl
      dsimp only [exec, execAdmissionCompletion] at h
      split at h <;> cases h
      · next sc hsc => exact begun.then ((follows_completeScan hsc).settled (quiet_flush ..).settles)
      · exact begun.follows
    | _ => cases hs

/-! ## The two laws -/

theorem State.CapacityInv.bookPending (h : s.CapacityInv) : s.BookPending := fun e he hk =>
  stateOf_eq_some.2 (h.book e he hk).2

theorem powerOn_billsMatch (straps : Straps) (l : List Instr) : (State.powerOn straps l).BillsMatch := by
  have free : ∀ b, (State.powerOn straps l).stateOf b = none := fun b => by
    simp [State.stateOf, State.booking, State.powerOn]
  rw [billsMatch_iff]
  simp only [free]
  simp [State.powerOn]

theorem exec_billsMatch {c : Instr} (hb : s.BillsMatch) (hp : s.BookPending) (h : exec c s = .next t) :
    t.BillsMatch := by
  by_cases hc : ∃ st, c = .powerOn st
  · obtain ⟨st, rfl⟩ := hc
    cases h
    exact powerOn_billsMatch ..
  · exact (follows_exec (fun st e => hc ⟨st, e⟩) h).bills hb hp

/-- Settles O8: every command keeps the match of bills and bookings, from the laws of the table. -/
theorem queueHoldsTheClosedBookings : Obligations.QueueHoldsTheClosedBookings := by
  refine ⟨powerOn_billsMatch .., fun s t h k => ?_, fun s h b => ?_⟩
  · unfold step at k
    split at k
    · cases k; exact h.bills
    · next rest _ =>
      have bills : State.BillsMatch { s with pending := rest } :=
        h.bills.congr rfl rfl (fun _ => .rfl) fun _ => id
      exact exec_billsMatch bills h.bookPending k
  · rw [billsMatch_iff] at h
    obtain ⟨h1, h2, h3, h4⟩ := h
    have count : ∀ l : List Bill, l.countP (fun x => decide (x.booking = b)) = (l.map (·.booking)).count b := fun l => by
      rw [List.count, List.countP_map]; rfl
    rw [count, count, h1.count, h3.count, if_congr (h2 b) rfl rfl]
    refine ⟨rfl, ?_⟩
    split
    · next hw => simp [h4 b hw]
    · exact Nat.zero_le _

/-- Settles O9: each command follows the table. -/
theorem lifecycleIsTheTable : Obligations.LifecycleIsTheTable := by
  refine ⟨fun c s t b hc h k => (follows_exec hc k).moves h.bills h.bookPending b, fun c s t b r r' k hr hr' => ?_⟩
  by_cases hc : ∃ st, c = .powerOn st
  · obtain ⟨st, rfl⟩ := hc
    cases k
    simp [State.powerOn, State.booking] at hr'
  · exact (follows_exec (fun st e => hc ⟨st, e⟩) k).terms b _ _ (by simp [State.termsOf, hr])
      (by simp [State.termsOf, hr'])

end Sys2Proof.Machine
end

section
/-! The requests of the booking table and of the time: their refusals in order, and their effects (R8 to R10, R19 to R23). -/

namespace Sys2Proof.Machine
open Sys2Proof.Config

variable {s t u : State} {r : Req}

/-! ## Reading the table -/

@[simp] theorem bookingIx_val (b : BookingIx) : bookingIx b.val = b := Fin.ext (by simp [bookingIx, Fin.ofNat])

@[simp] theorem recordIs_val (b : BookingIx) (test : Booking → Bool) (s : State) :
    s.recordIs b.val test = (s.booking b).any test := by
  simp [State.recordIs, b.isLt]

theorem anyBooking_iff {test : Booking → Bool} :
    s.anyBooking test = true ↔ ∃ b r, s.booking b = some r ∧ test r = true := by
  simp only [State.anyBooking, List.any_eq_true, Vector.mem_toList_iff, Vector.mem_iff_getElem, Option.any_eq_true]
  constructor
  · rintro ⟨_, ⟨i, hi, rfl⟩, x, hx, ht⟩
    exact ⟨⟨i, hi⟩, x, hx, ht⟩
  · rintro ⟨b, x, hx, ht⟩
    exact ⟨_, ⟨b.val, b.isLt, rfl⟩, x, hx, ht⟩

@[simp] theorem advance_anyBooking (m : Moment) (test : Booking → Bool) (s : State) :
    (s.advance m).anyBooking test = s.anyBooking test := by simp [State.anyBooking]

@[simp] theorem advance_countBookings (m : Moment) (test : Booking → Bool) (s : State) :
    (s.advance m).countBookings test = s.countBookings test := by simp [State.countBookings]

@[simp] theorem advance_recordIs (m : Moment) (n : Nat) (test : Booking → Bool) (s : State) :
    (s.advance m).recordIs n test = s.recordIs n test := by simp [State.recordIs]

@[simp] theorem advance_admissionFull (m : Moment) (s : State) : (s.advance m).admissionFull = s.admissionFull := by
  simp [State.admissionFull]

theorem advance_scan (m : Moment) (s : State) :
    (s.advance m).scan = s.scan.map fun sc => sc.visitTo s.bookings m.visits := by rw [advance_eq]

@[simp] theorem outside_eq_false (lo hi n : Nat) : outside lo hi n = false ↔ lo ≤ n ∧ n ≤ hi := by
  simp [outside]

@[simp] theorem outside_eq_true (lo hi n : Nat) : outside lo hi n = true ↔ ¬ (lo ≤ n ∧ n ≤ hi) := by
  rw [← outside_eq_false, Bool.not_eq_false]

/-! ## Raised classes and their flags (R144) -/

theorem takeRaise_flag (x : Raise) (s : State) : (s.takeRaise x).flags[x.cls.ix] = true := by
  have recorded : (s.recordRaise x.cls x.items).flags[x.cls.ix] = true := by simp [State.recordRaise]
  dsimp only [State.takeRaise]
  split
  · exact recorded
  · exact (onlyAnswers_offerControl ..).flags _ recorded

theorem takeRaises_flag {x : Raise} {l : List Raise} (h : x ∈ l) (s : State) :
    (s.takeRaises l).flags[x.cls.ix] = true := by
  induction l generalizing s with
  | nil => cases h
  | cons y l ih =>
    rcases List.mem_cons.1 h with rfl | h
    · exact (onlyAnswers_takeRaises l _).flags _ (takeRaise_flag x s)
    · exact ih h _

/-- A raise of the event has set its flag when the event is over. -/
theorem flush_flag (m : Moment) {x : Raise} (h : x ∈ s.raised) : (s.flush m).flags[x.cls.ix] = true :=
  takeRaises_flag ((raiseOrder_spec m s).1.mem_iff.2 h) s

theorem AnsweredOnly.flag {code : Nat} {res : Result} {body : List Byte} (h : AnsweredOnly s t r code res body)
    {x : Raise} (hx : x ∈ s.raised) : t.flags[x.cls.ix] = true := by
  obtain ⟨before, after, u, order, hu, -, rfl⟩ := h
  rcases List.mem_append.1 (order.1.mem_iff.2 hx) with k | k
  · exact (onlyAnswers_takeRaises after u).flags _ (hu.flags _ (takeRaises_flag k s))
  · exact takeRaises_flag k u

/-! ## Power-on and time (R7 to R9) -/

theorem powerOn_port (st : Straps) (l : List Instr) (p : PortIx) : (State.powerOn st l).port p =
    if p = st.opport then { Port.initial with cls := .operator } else Port.initial := by
  by_cases e : p = st.opport
  · subst e; simp [State.powerOn, State.port]
  · have : st.opport.val ≠ p.val := fun h => e (Fin.ext h.symm)
    simp [State.powerOn, State.port, this, e]

/-- Settles O3: the power-on state, block by block. -/
theorem powerOnState : Obligations.PowerOnState := by
  refine ⟨fun st s => ⟨_, rfl, rfl, fun b => ?_, rfl, ?_, rfl, rfl, rfl, rfl, rfl, fun p => ?_, rfl, rfl, fun i => ?_, rfl,
    rfl, rfl, rfl, rfl, rfl, fun i => ?_, rfl, fun i => ?_, rfl, rfl, fun i => ?_, rfl, rfl, rfl⟩, fun s h => ?_⟩
  · simp [State.booking, State.powerOn]
  · simp [State.milli, State.powerOn]
  · have last : (State.powerOn st s.pending).lastResults[p] = none := by simp [State.powerOn]
    rw [powerOn_port]
    by_cases e : p = st.opport <;> simp [e, Port.settings, Port.initial] <;> simpa [e] using last
  · simp [State.powerOn]
  · simp [State.powerOn, State.counter]
  · simp [State.powerOn]
  · simp [State.powerOn]
  · show Host.Outcome.next (State.powerOn lowStraps s.pending) = _
    rw [h]; rfl

/-- Settles O24. -/
theorem timeReadReportsTheTime : Obligations.TimeReadReportsTheTime := by
  refine ⟨fun r s h => ⟨_, rfl, ?_⟩, fun st s => ⟨_, rfl, rfl, rfl, rfl, rfl, rfl⟩⟩
  refine takeRequest_read (h.advance r.m) rfl ?_
  simp [actTimeRead, Answer.ok, State.timeReport]

theorem checkTimeSet_barred (s : State) : s.anyBooking Booking.barsTimeSet = true ↔
    ∃ b x, s.booking b = some x ∧ x.state ∈ [.pending, .armed, .live, .overrun, .closing] := by
  simp [anyBooking_iff, Booking.barsTimeSet]

/-- Settles O23: TIME SET by its checks in order, and what it loads. -/
theorem timeSetLoadsTheTime : Obligations.TimeSetLoadsTheTime := by
  intro r a s h
  have refused : ∀ res, checkTimeSet a (s.advance r.m) = some res →
      ∃ t, exec (.timeSet r (some a)) s = .next t ∧ AnsweredOnly (s.advance r.m) t r 8 res [] :=
    fun res k => ⟨_, rfl, takeRequest_answered (h.advance r.m) (checked_some k)⟩
  refine ⟨fun ms => refused _ ?_, fun ms restart => refused _ ?_, fun ms restart barred => refused _ ?_,
    fun ms restart free => ?_⟩
  · simp [checkTimeSet, ms]
  · simp [checkTimeSet, Nat.not_lt.2 ms, restart]
  · simp [checkTimeSet, Nat.not_lt.2 ms, restart, (checkTimeSet_barred s).2 barred]
  · have open_ : s.anyBooking Booking.barsTimeSet = false := by
      rw [← Bool.not_eq_true, checkTimeSet_barred]; rintro ⟨b, x, hx, hs⟩; exact free b x hx hs
    have passed : checkTimeSet a (s.advance r.m) = none := by simp [checkTimeSet, Nat.not_lt.2 ms, restart, open_]
    refine ⟨_, (s.advance r.m).loadTime a, rfl, takeRequest_answered (h.advance r.m) ?_, rfl, ?_, rfl, ?_, rfl⟩
    · refine (checked_none passed).trans ?_
      by_cases k : 5 ≤ a.idleClose ∧ a.idleClose ≤ 300
      · rw [if_pos k]; simp [Answer.with, okOrClamped, (outside_eq_false ..).2 k]
      · rw [if_neg k]; simp [Answer.with, okOrClamped, (outside_eq_true ..).2 k]
    · show min 999 (a.ms * ticksPerMilli / ticksPerMilli) = a.ms
      rw [Nat.mul_div_cancel _ (by decide)]; omega
    · show min 300 (max 5 a.idleClose) = max 5 (min 300 a.idleClose)
      omega

/-! ## Requests on one record (R19, R20, R22) -/

theorem checkBookingState_range {n : Nat} (h : 255 < n) (accepts : Booking → Bool) (s : State) :
    checkBookingState n accepts s = some .range := by simp [checkBookingState, h]

theorem checkBookingState_val (b : BookingIx) (accepts : Booking → Bool) (s : State) :
    checkBookingState b.val accepts s = if s.restart || !(s.booking b).any accepts then some .state else none := by
  have : ¬ 255 < b.val := by omega
  cases h : s.restart <;> simp [checkBookingState, this, h]

theorem any_of_stateOf {b : BookingIx} {test : Booking → Bool} {l : List BookingState}
    (h : ∀ r, test r = decide (r.state ∈ l)) (s : State) :
    (s.booking b).any test = decide (s.stateOf b ∈ l.map some) := by
  cases hb : s.booking b with
  | none => simp [State.stateOf, hb]
  | some r => simp [State.stateOf, hb, h]

theorem cancellable_eq (r : Booking) : r.cancellable = decide (r.state ∈ [.pending, .confirmed, .armed, .live]) := by
  simp [Booking.cancellable]

theorem carrying_eq (r : Booking) : r.carrying = decide (r.state ∈ [.armed, .live, .overrun]) := by
  simp [Booking.carrying]

/-- Settles O29: CLOSE by its checks, and the reason by the state. -/
theorem closeAsksForTheBoundary : Obligations.CloseAsksForTheBoundary := by
  intro r b s h
  have refused : ∀ n res, checkBookingState n Booking.carrying (s.advance r.m) = some res →
      ∃ t, exec (.close r (some n)) s = .next t ∧ AnsweredOnly (s.advance r.m) t r 26 res [] :=
    fun n res k => ⟨_, rfl, takeRequest_answered (h.advance r.m) (checked_some k)⟩
  refine ⟨fun n hn => refused n _ (checkBookingState_range hn ..), fun k => refused _ _ ?_, fun x restart hx hs => ?_⟩
  · rw [checkBookingState_val, State.advance_booking, any_of_stateOf carrying_eq]
    rcases k with k | k <;> simp_all
  · have passed : checkBookingState b.val Booking.carrying (s.advance r.m) = none := by
      rw [checkBookingState_val, State.advance_booking, hx]
      simp [restart, carrying_eq, hs]
    refine ⟨_, rfl, takeRequest_answered (h.advance r.m) ((checked_none passed).trans ?_)⟩
    have hx' : (s.advance r.m).booking b = some x := by simpa using hx
    simp only [bookingIx_val, Answer.ok, State.updBooking, hx', Booking.requestClose]
    congr
    cases x.closeReq with
    | some held => rfl
    | none => cases hst : x.state <;> simp_all [BookingState.closeReason]

theorem freeBooking_rest (b : BookingIx) (s : State) : s.freeBooking b =
    { s with bookings := (s.freeBooking b).bookings, scan := (s.freeBooking b).scan,
             waiting := (s.freeBooking b).waiting } := rfl

/-- The EXTEND entries that name a freed record are void (R36). -/
theorem freeBooking_void (b : BookingIx) (s : State) :
    ∀ e ∈ (s.freeBooking b).entries, e.kind ≠ .book → e.booking = b → e.void = true := by
  have each : ∀ e : AdmissionEntry, (e.voidFor b).kind ≠ .book → (e.voidFor b).booking = b → (e.voidFor b).void = true := by
    intro e hk hb
    cases h : e.kind with
    | book => simp [AdmissionEntry.voidFor, h] at hk
    | extend total clamped =>
      by_cases eb : e.booking = b
      · simp [AdmissionEntry.voidFor, h, eb]
      · simp [AdmissionEntry.voidFor, h, eb] at hb
  have entries : (s.freeBooking b).entries = s.entries.map (AdmissionEntry.voidFor b) := by
    cases h : s.scan <;> simp [State.entries, State.freeBooking, h]
  rw [entries]
  rintro _ he hk hb
  obtain ⟨e, -, rfl⟩ := List.mem_map.1 he
  exact each e hk hb

theorem readFrees_eq (r : Booking) : r.readFrees = decide (r.state ∈ [.refused, .cancelled, .expired]) := by
  simp [Booking.readFrees]

/-- Settles O32: the report by the layout of its fields, and the freeing of a record that held an outcome. -/
theorem bookingReadReportsAndFrees : Obligations.BookingReadReportsAndFrees := by
  intro r b s h
  have h' := h.advance r.m
  have passed : checkBookingIndex b.val = none := by simp [checkBookingIndex, Nat.not_lt.2 (Nat.le_of_lt_succ b.isLt)]
  have effect : actBookingRead b.val (s.advance r.m) =
      { state := if (s.booking b).any Booking.readFrees then (s.advance r.m).freeBooking b else s.advance r.m,
        result := .ok, body := bookingReport (s.booking b) } := by
    refine (checked_none passed).trans ?_
    simp [Answer.ok]
  refine ⟨fun n hn => ⟨_, rfl, takeRequest_read h' rfl (checked_some (by simp [checkBookingIndex, hn]))⟩,
    fun free => ⟨_, rfl, ?_⟩, fun x hx hs => ⟨_, rfl, ?_⟩, fun x hx hs => ?_⟩
  · refine takeRequest_read h' rfl (effect.trans ?_)
    simp [free, bookingReport, enc8]
  · refine takeRequest_read h' rfl (effect.trans ?_)
    simp [hx, readFrees_eq, hs, bookingReport_layout]
  · refine ⟨_, (s.advance r.m).freeBooking b, rfl, takeRequest_read h' rfl (effect.trans ?_), freeBooking_rest .., ?_,
      fun i hi => ?_, freeBooking_void b _⟩
    · simp [hx, readFrees_eq, hs, bookingReport_layout]
    · simp [freeBooking_booking]
    · simp [freeBooking_booking, hi]

/-! ## CANCEL (R19) -/

/-- The bill of a late cancellation holds what R160 and R161 list. -/
theorem billOf_lateCancel (b : BookingIx) (x : Booking) (tf : Tariff) (now : Nat) :
    LateCancelBilled b x tf now (billOf b (x.atLateCancel now) tf) := by
  have kind : (x.atLateCancel now).cut = some .lateCancel := rfl
  constructor <;> simp [billOf, Booking.atLateCancel, CutReason.kind, secondsOf]
  rfl

section Settlement
variable {b : BookingIx} {x : Booking}

theorem settleBooking_bills (hx : s.booking b = some x) (hs : x.state = .closing) (settled : x.settled = true)
    (waits : s.billWaits b = false) : s.settleBooking b = s.billNow b := by
  simp [State.settleBooking, hx, hs, settled, waits]

/-- A CLOSING record that is settled and has no bill waiting is billed: with room, into the queue, and it is CLOSED (R154). -/
theorem settleBooking_room (hx : s.booking b = some x) (hs : x.state = .closing) (settled : x.settled = true)
    (waits : s.billWaits b = false) (room : s.bills.length < 64) :
    (s.settleBooking b).booking b = some { x with state := .closed } ∧
      (s.settleBooking b).bills = s.bills ++ [billOf b x (s.tariff x.tariff)] ∧
      (s.settleBooking b).billWaiting = s.billWaiting := by
  have room : s.bills.length < billQueueDepth := room
  have old : State.booking { s with bills := s.bills ++ [billOf b x (s.tariff x.tariff)] } b = some x := hx
  rw [settleBooking_bills hx hs settled waits]
  simp [State.billNow, hx, room, State.closeBooking, State.updBooking, old]

/-- Without room the bill waits, the record stays CLOSING, and BILL_WAIT is raised (R154). -/
theorem settleBooking_full (hx : s.booking b = some x) (hs : x.state = .closing) (settled : x.settled = true)
    (waits : s.billWaits b = false) (full : 64 ≤ s.bills.length) :
    (s.settleBooking b).booking b = some x ∧ (s.settleBooking b).bills = s.bills ∧
      (s.settleBooking b).billWaiting = s.billWaiting ++ [billOf b x (s.tariff x.tariff)] ∧
      { cls := .billWait, items := .ofBooking b, detail := none } ∈ (s.settleBooking b).raised := by
  have full : ¬ s.bills.length < billQueueDepth := Nat.not_lt.2 full
  rw [settleBooking_bills hx hs settled waits]
  simp only [State.billNow, hx, full, if_false]
  exact ⟨hx, rfl, rfl, by simp [State.raise]⟩

end Settlement

/-- Settles O28: CANCEL by the state of the record. -/
theorem cancelActsByTheState : Obligations.CancelActsByTheState := by
  intro r b s h restart
  have h' := h.advance r.m
  have refused : ∀ n res, checkBookingState n Booking.cancellable (s.advance r.m) = some res →
      ∃ t, exec (.cancel r (some n)) s = .next t ∧ AnsweredOnly (s.advance r.m) t r 25 res [] :=
    fun n res k => ⟨_, rfl, takeRequest_answered h' (checked_some k)⟩
  refine ⟨fun n hn => refused n _ (checkBookingState_range hn ..), fun k => refused _ _ ?_, fun x hx => ?_⟩
  · have k : s.stateOf b ∉ List.map some [BookingState.pending, .confirmed, .armed, .live] := k
    rw [checkBookingState_val, State.advance_booking, any_of_stateOf cancellable_eq, decide_eq_false k]
    simp
  · have hx' : (s.advance r.m).booking b = some x := by simpa using hx
    have accepted : x.state ∈ [.pending, .confirmed, .armed, .live] → actCancel b.val (s.advance r.m) =
        (s.advance r.m).cancelBooking b x := fun k => by
      refine (checked_none ?_).trans ?_
      · rw [checkBookingState_val, hx']; simp [restart, cancellable_eq, k]
      · simp only [bookingIx_val, hx']
    refine ⟨fun hs => ⟨_, rfl, ?_⟩, fun hs late => ?_, fun hs late outage waits => ?_, fun hs => ⟨_, rfl, ?_⟩⟩
    · refine takeRequest_answered h' ((accepted (by simp [hs])).trans ?_)
      simp [State.cancelBooking, hs, Answer.ok, encOpt, zeros]
    · have fee : x.lateFee (s.tariff x.tariff) s.sec = false := by
        simp only [Booking.lateFee, decide_eq_false_iff_not]; omega
      refine ⟨_, (s.advance r.m).freeBooking b, rfl, takeRequest_answered h' ((accepted (by simp [hs])).trans ?_),
        freeBooking_rest .., by simp [freeBooking_booking], fun i hi => by simp [freeBooking_booking, hi],
        freeBooking_void b _⟩
      simp [State.cancelBooking, hs, fee, Answer.ok, encOpt, enc8]
    · have fee : x.lateFee (s.tariff x.tariff) s.sec = true := by
        simp only [Booking.lateFee, decide_eq_true_eq]; omega
      have effect : actCancel b.val (s.advance r.m) =
          { state := ((s.advance r.m).setBooking b (some (x.atLateCancel s.sec))).settleBooking b, result := .ok,
            body := [1, 1] } := (accepted (by simp [hs])).trans (by
        simp [State.cancelBooking, hs, fee, Answer.ok, encOpt, enc8])
      have at_ : ((s.advance r.m).setBooking b (some (x.atLateCancel s.sec))).booking b = some (x.atLateCancel s.sec) := by
        simp
      have settled : (x.atLateCancel s.sec).settled = true := by simp [Booking.settled, Booking.atLateCancel, outage]
      have free : ((s.advance r.m).setBooking b (some (x.atLateCancel s.sec))).billWaits b = false := by
        simpa [State.billWaits] using waits
      have tariff : State.tariff ((s.advance r.m).setBooking b (some (x.atLateCancel s.sec)))
          (x.atLateCancel s.sec).tariff = s.tariff x.tariff := by simp [State.tariff, Booking.atLateCancel]
      have answered := takeRequest_answered (code := 25) h' effect
      by_cases room : s.bills.length < 64
      · obtain ⟨k1, k2, k3⟩ := settleBooking_room at_ rfl settled free (by simpa using room)
        rw [tariff] at k2
        exact ⟨_, _, _, rfl, answered, k1, rfl,
          fun _ => ⟨rfl, _, k2.trans (by simp), billOf_lateCancel .., k3.trans (by simp)⟩, fun k => absurd k (by omega)⟩
      · obtain ⟨k1, k2, k3, k4⟩ := settleBooking_full at_ rfl settled free (by simpa using room)
        rw [tariff] at k3
        exact ⟨_, _, _, rfl, answered, k1, rfl, fun k => absurd k room,
          fun _ => ⟨rfl, _, k3.trans (by simp), billOf_lateCancel .., k2.trans (by simp), answered.flag k4⟩⟩
    · refine takeRequest_answered h' ((accepted (by rcases hs with hs | hs <;> simp [hs])).trans ?_)
      rcases hs with hs | hs <;> cases hr : x.closeReq <;>
        simp [State.cancelBooking, hs, Answer.ok, encOpt, zeros, Booking.requestClose, hr]

end Sys2Proof.Machine
end

section
/-! BOOK and EXTEND (R10, R21): their checks against the conditions the manual lists, and the hand-over to the admission
unit (R26); the refusals of a restart in progress (R23). -/

namespace Sys2Proof.Machine
open Sys2Proof.Config

variable {s t u : State} {r : Req}

/-! ## The checks of BOOK (R10) -/

/-- An index of a table, by its number. -/
theorem exists_fin_iff {k : Nat} [NeZero k] (n : Nat) (P : Fin k → Prop) :
    (∃ x : Fin k, x.val = n ∧ P x) ↔ n < k ∧ P (Fin.ofNat k n) := by
  have at_ : n < k → (Fin.ofNat k n).val = n := fun h => Nat.mod_eq_of_lt h
  constructor
  · rintro ⟨x, rfl, hx⟩
    refine ⟨x.isLt, ?_⟩
    rwa [show Fin.ofNat k x.val = x from Fin.ext (at_ x.isLt)]
  · rintro ⟨h, hp⟩
    exact ⟨_, at_ h, hp⟩

theorem repeats_eq_false (l : List Nat) : repeats l = false ↔ l.Nodup := by
  induction l with
  | nil => simp [repeats]
  | cons x l ih => simp [repeats, ih]

theorem badTerms_eq_false (a : BookArgs) (s : State) : BookArgs.badTerms a s = false ↔
    a.customer ≠ 0 ∧ (∃ x : TariffIx, x.val = a.tariff ∧ s.tariffs[x] ≠ none) ∧ (1 ≤ a.rate ∧ a.rate ≤ 480) ∧
      (a.start + 60 ≤ a.finish ∧ a.finish ≤ a.start + 86400) ∧ (30 ≤ a.armLead ∧ a.armLead ≤ 600) ∧
      a.allowance ≤ 7200 ∧ (a.armLead ≤ a.start ∧ a.finish + a.allowance ≤ 4294967295) ∧
      (s.timeSet = true → s.sec < a.finish) := by
  rw [exists_fin_iff a.tariff fun x => s.tariffs[x] ≠ none]
  simp only [BookArgs.badTerms, Bool.or_eq_false_iff, decide_eq_false_iff_not, outside_eq_false, Bool.and_eq_false_imp,
    Option.isNone_eq_false_iff, Option.isSome_iff_ne_none]
  simp only [maxAllowance, maxU32, tariffIx]
  constructor
  · rintro ⟨⟨⟨⟨⟨⟨⟨⟨h1, h2⟩, h3⟩, h4⟩, h5⟩, h6⟩, h7⟩, h8⟩, h9⟩
    exact ⟨h1, ⟨by omega, h3⟩, h4, by omega, h6, by omega, by omega, fun k => by have := h9 k; omega⟩
  · rintro ⟨h1, ⟨h2, h3⟩, h4, h5, h6, h7, h8, h9⟩
    exact ⟨⟨⟨⟨⟨⟨⟨⟨h1, by omega⟩, h3⟩, h4⟩, by omega⟩, h6⟩, by omega⟩, by omega⟩, fun k => by have := h9 k; omega⟩

theorem ingressAllowed_iff (x : Role) : x.ingressAllowed = true ↔ x = .venue ∨ x = .mixed := by cases x <;> decide

theorem egressAllowed_iff (x : Role) : x.egressAllowed = true ↔ x = .taker ∨ x = .mixed := by cases x <;> decide

theorem legBad_eq_false (l : LegArgs) (s : State) : LegArgs.bad l s = false ↔
    l.port ≤ 15 ∧ 1 ≤ l.label ∧ l.label ≤ 4095 ∧
      (∃ p : PortIx, p.val = l.port ∧ ((s.port p).role = .venue ∨ (s.port p).role = .mixed)) ∧
      (∀ n, l.pattern = some n → ∃ x : PatternIx, x.val = n ∧ s.patterns[x] ≠ none) ∧
      l.policy ≤ 2 ∧ (l.policy ≠ 0 → l.pattern ≠ none) := by
  have pattern : ∀ n, (∃ x : PatternIx, x.val = n ∧ s.patterns[x] ≠ none) ↔ n < 32 ∧ s.patterns[patternIx n] ≠ none :=
    fun n => exists_fin_iff n fun x => s.patterns[x] ≠ none
  rw [exists_fin_iff l.port fun p => (s.port p).role = .venue ∨ (s.port p).role = .mixed]
  simp only [pattern, LegArgs.bad, Bool.or_eq_false_iff, decide_eq_false_iff_not, outside_eq_false, Bool.not_eq_false',
    ingressAllowed_iff, portIx, Option.any_eq_false, IdentPolicy.code, Bool.and_eq_false_imp,
    Option.isNone_eq_false_iff, Option.isSome_iff_ne_none, not_lt]
  constructor
  · rintro ⟨⟨⟨⟨⟨h1, h2, h3⟩, h4⟩, h5⟩, h6⟩, h7⟩
    exact ⟨h1, h2, h3, ⟨by omega, h4⟩, fun n hn => ⟨by have := (h5 n hn).1; omega, (h5 n hn).2⟩, h6, fun k => h7 (decide_eq_true k)⟩
  · rintro ⟨h1, h2, h3, ⟨-, h4⟩, h5, h6, h7⟩
    exact ⟨⟨⟨⟨⟨h1, h2, h3⟩, h4⟩, fun n hn => ⟨by have := (h5 n hn).1; omega, (h5 n hn).2⟩⟩, h6⟩, fun k => h7 (of_decide_eq_true k)⟩

theorem destBad_eq_false (d : DestArgs) (s : State) : DestArgs.bad d s = false ↔
    d.port ≤ 15 ∧ 1 ≤ d.label ∧ d.label ≤ 4095 ∧
      ∃ p : PortIx, p.val = d.port ∧ ((s.port p).role = .taker ∨ (s.port p).role = .mixed) := by
  rw [exists_fin_iff d.port fun p => (s.port p).role = .taker ∨ (s.port p).role = .mixed]
  simp only [DestArgs.bad, Bool.or_eq_false_iff, decide_eq_false_iff_not, outside_eq_false, Bool.not_eq_false',
    egressAllowed_iff, portIx, not_lt]
  constructor
  · rintro ⟨⟨h1, h2, h3⟩, h4⟩
    exact ⟨h1, h2, h3, by omega, h4⟩
  · rintro ⟨h1, h2, h3, -, h4⟩
    exact ⟨⟨h1, h2, h3⟩, h4⟩

theorem badMode_eq_false (a : BookArgs) :
    BookArgs.badMode a = false ↔ ∀ c, a.mode = some c → c ≤ 2 ∧ (c = 2 → a.legs.length ≠ 1) := by
  simp only [BookArgs.badMode, Option.any_eq_false, Bool.or_eq_false_iff, decide_eq_false_iff_not, not_lt, not_and]
  rfl

/-- The first check of BOOK is step 1 of R10. -/
theorem bookInRange_iff (a : BookArgs) (s : State) :
    (BookArgs.badTerms a s || outside 1 2 a.legs.length || outside 1 4 a.dests.length ||
      a.legs.any (fun l => LegArgs.bad l s) || a.dests.any (fun d => DestArgs.bad d s) || BookArgs.portsRepeat a ||
      BookArgs.badMode a) = false ↔ BookInRange a s := by
  simp only [Bool.or_eq_false_iff, badTerms_eq_false, outside_eq_false, List.any_eq_false, Bool.not_eq_true,
    legBad_eq_false, destBad_eq_false, BookArgs.portsRepeat, repeats_eq_false, badMode_eq_false]
  constructor
  · rintro ⟨⟨⟨⟨⟨⟨⟨h1, h2, h3, h4, h5, h6, h7, h8⟩, h9⟩, h10⟩, h11⟩, h12⟩, h13⟩, h14⟩
    exact ⟨h1, h2, h3, h4, h5, h6, h7, h8, by omega, h10, h11, h12, h13, h14⟩
  · rintro ⟨h1, h2, h3, h4, h5, h6, h7, h8, h9, h10, h11, h12, h13, h14⟩
    exact ⟨⟨⟨⟨⟨⟨⟨h1, h2, h3, h4, h5, h6, h7, h8⟩, by omega⟩, h10⟩, h11⟩, h12⟩, h13⟩, h14⟩

/-- The moment changes nothing that BOOK checks. -/
theorem checkBook_advance (a : BookArgs) (m : Moment) (s : State) : checkBook a (s.advance m) = checkBook a s := by
  have leg : ∀ l, LegArgs.bad l (s.advance m) = LegArgs.bad l s := fun l => by simp [LegArgs.bad]
  have dest : ∀ d, DestArgs.bad d (s.advance m) = DestArgs.bad d s := fun d => by simp [DestArgs.bad]
  simp [checkBook, BookArgs.badTerms, leg, dest]

theorem checkBook_range {a : BookArgs} (h : ¬ BookInRange a s) : checkBook a s = some .range := by
  rw [← bookInRange_iff, Bool.not_eq_false] at h
  unfold checkBook; rw [h]; rfl

/-- The checks of BOOK behind step 1. -/
theorem checkBook_inRange {a : BookArgs} (h : BookInRange a s) : checkBook a s =
    if s.timeSet = false then some .timeUnset else if s.restart then some .state
    else if s.bookings.toList.all Option.isSome then some .noRoom else if s.admissionFull then some .busy
    else none := by
  rw [← bookInRange_iff] at h
  unfold checkBook; rw [h]
  simp

theorem allTaken_iff : s.bookings.toList.all Option.isSome = true ↔ ∀ b : BookingIx, s.booking b ≠ none := by
  simp only [List.all_eq_true, Vector.mem_toList_iff, Vector.mem_iff_getElem, Option.isSome_iff_ne_none]
  constructor
  · exact fun h b => h _ ⟨b.val, b.isLt, rfl⟩
  · rintro h _ ⟨i, hi, rfl⟩
    exact h ⟨i, hi⟩

theorem firstFree_eq {b : BookingIx} (free : s.booking b = none) (lowest : ∀ i, i < b → s.booking i ≠ none) :
    s.firstFree = some b := by
  refine List.find?_eq_some_iff_getElem.2 ⟨by simp [free], b.val, by simp, by simp, fun j hj => ?_⟩
  have := lowest ⟨j, by omega⟩ hj
  simpa [Option.isSome_iff_ne_none] using this

/-! ## Handing an entry over (R26) -/

theorem handEntry_idle (h : s.scan = none) {e : AdmissionEntry} {x : Booking} (hx : s.booking e.booking = some x) :
    (s.handEntry e).waiting = s.waiting ∧ (s.handEntry e).scan =
      some { entry := e, candidate := x.claim (e.allowance x), visited := 0, seen := [] } := by
  simp [State.handEntry, h, State.beginScan, hx]

theorem handEntry_busy (h : s.scan ≠ none) (e : AdmissionEntry) :
    (s.handEntry e).scan = s.scan ∧ (s.handEntry e).waiting = s.waiting ++ [e] := by
  simp [State.handEntry, h]

/-! ## BOOK (R10) -/

/-- The legs of the record BOOK writes are those of the request. -/
theorem toBooking_legs {a : BookArgs} (h : a.legs.length = 1 ∨ a.legs.length = 2) :
    (BookArgs.toBooking a).legs = a.legs.map LegArgs.toLeg := by
  match hl : a.legs, h with
  | [l], _ => simp [BookArgs.toBooking, Booking.legs, hl]
  | [l, k], _ => simp [BookArgs.toBooking, Booking.legs, hl]

/-- Settles O27: BOOK by its checks in order, and the record it writes. -/
theorem bookAllocatesTheLowestRecord : Obligations.BookAllocatesTheLowestRecord := by
  intro r a s h
  have h' := h.advance r.m
  have refused : ∀ res, checkBook a s = some res →
      ∃ t, exec (.book r (some a)) s = .next t ∧ AnsweredOnly (s.advance r.m) t r 24 res [] :=
    fun res k => ⟨_, rfl, takeRequest_answered h' (checked_some ((checkBook_advance ..).trans k))⟩
  have full : s.admissionFull = decide (4 ≤ s.waiting.length) := rfl
  have room : ∀ b : BookingIx, s.booking b = none → s.bookings.toList.all Option.isSome = false := fun b hb => by
    rw [← Bool.not_eq_true, allTaken_iff]; exact fun k => k b hb
  refine ⟨fun k => refused _ (checkBook_range k), fun k time => refused _ ?_, fun k time restart => refused _ ?_,
    fun k time restart taken => refused _ ?_, fun k time restart ⟨b, hb⟩ waits => refused _ ?_,
    fun b k time restart free lowest waits => ?_⟩
  · simp [checkBook_inRange k, time]
  · simp [checkBook_inRange k, time, restart]
  · simp [checkBook_inRange k, time, restart, allTaken_iff.2 taken]
  · simp [checkBook_inRange k, time, restart, room b hb, full, waits]
  · have passed : checkBook a (s.advance r.m) = none := by
      rw [checkBook_advance, checkBook_inRange k]
      simp [time, restart, room b free, full, Nat.not_le.2 waits]
    have first : (s.advance r.m).firstFree = some b := firstFree_eq (by simpa using free) (by simpa using lowest)
    have legs := toBooking_legs k.legCount
    have tariff : (tariffIx a.tariff).val = a.tariff := by
      obtain ⟨x, hx, -⟩ := k.tariff
      simp [tariffIx, Fin.ofNat, ← hx]
    have at_ : ((s.advance r.m).setBooking b (some (BookArgs.toBooking a))).booking b = some (BookArgs.toBooking a) := by
      simp
    refine ⟨_, ((s.advance r.m).setBooking b (some (BookArgs.toBooking a))).handEntry
      { kind := .book, booking := b, void := false }, BookArgs.toBooking a, rfl, takeRequest_answered h' ?_,
      ?_, (handEntry_booking ..).trans at_, fun i hi => (handEntry_booking ..).trans (by simp [hi]), rfl, ?_,
      rfl, ?_, rfl, rfl, rfl, ?_, ?_, fun idle => ?_, fun busy => ?_⟩
    · refine (checked_none passed).trans ?_
      simp [first, Answer.with, enc8]
    · rw [handEntry_rest]; rfl
    · simp only [Booking.fixedTerms, legs, List.map_map, Function.comp_def]
      simp [BookArgs.toBooking, tariff, LegArgs.toLeg, DestArgs.toDest]
    · cases hm : a.mode <;> simp [BookArgs.toBooking, hm]
    · rw [legs]
      intro l hl
      obtain ⟨l, -, rfl⟩ := List.mem_map.1 hl
      exact ⟨rfl, rfl, rfl, rfl, rfl⟩
    · intro d hd
      obtain ⟨d, -, rfl⟩ := List.mem_map.1 hd
      rfl
    · obtain ⟨e1, e2⟩ := handEntry_idle (s := (s.advance r.m).setBooking b (some (BookArgs.toBooking a)))
        (e := { kind := .book, booking := b, void := false }) (by simp [advance_scan, idle]) at_
      refine ⟨by simp [e1], e2.trans ?_⟩
      simp only [Booking.claim, legs, List.map_map, Function.comp_def]
      simp [AdmissionEntry.allowance, Booking.windowStart, BookArgs.toBooking, LegArgs.toLeg, DestArgs.toDest]
    · obtain ⟨e1, e2⟩ := handEntry_busy (s := (s.advance r.m).setBooking b (some (BookArgs.toBooking a)))
        (by simp [advance_scan, busy]) { kind := .book, booking := b, void := false }
      exact ⟨e1.trans rfl, by simp [e2]⟩

/-! ## EXTEND (R21) -/

theorem checkExtend_advance (a : ExtendArgs) (m : Moment) (s : State) : checkExtend a (s.advance m) = checkExtend a s := by
  simp [checkExtend]

/-- The checks of EXTEND on a record in the table. -/
theorem checkExtend_val (b : BookingIx) (n : Nat) (s : State) : checkExtend { index := b.val, seconds := n } s =
    if outside 1 7200 n || (s.booking b).any (fun x => decide (4294967295 < x.finish + min 7200 (x.allowance + n)))
      then some .range
    else if s.restart || !(s.booking b).any Booking.acceptsExtend then some .state
    else if decide (4 ≤ s.waiting.length) then some .busy else none := by
  have ix : ¬ 255 < b.val := by omega
  have full : s.admissionFull = decide (4 ≤ s.waiting.length) := rfl
  simp only [checkExtend, firstFailing_cons, firstFailing_nil, ix, decide_false, Bool.false_or, ExtendArgs.total,
    recordIs_val, full]
  cases s.restart <;> rfl

theorem acceptsExtend_iff (x : Booking) : x.acceptsExtend = true ↔
    x.state ∈ [.confirmed, .armed, .live, .overrun] ∧ x.closeReq = none ∧ x.extendPending = false := by
  simp [Booking.acceptsExtend, Booking.carrying, and_assoc]

/-- Settles O30: EXTEND by its checks in order, and the total it hands over. -/
theorem extendHandsOverTheTotal : Obligations.ExtendHandsOverTheTotal := by
  have refused : ∀ (r : Req) (a : ExtendArgs) (s : State) (res : Result), FromOperator s r → checkExtend a s = some res →
      ∃ t, exec (.extend r (some a)) s = .next t ∧ AnsweredOnly (s.advance r.m) t r 27 res [] :=
    fun r a s res h k => ⟨_, rfl, takeRequest_answered (h.advance r.m)
      (checked_some ((checkExtend_advance ..).trans k))⟩
  refine ⟨fun r i n s h hi => refused r _ s _ h ?_, fun r b n s h free => refused r _ s _ h ?_,
    fun r b n x s h hx => ?_⟩
  · simp [checkExtend, hi]
  · by_cases k : 1 ≤ n ∧ n ≤ 7200
    · simp [checkExtend_val, free, (outside_eq_false ..).2 k, k]
    · rw [if_neg k, checkExtend_val, (outside_eq_true ..).2 k]; rfl
  · intro total inRange open_
    have range : (outside 1 7200 n ||
        (s.booking b).any (fun x => decide (4294967295 < x.finish + min 7200 (x.allowance + n)))) = false ↔ inRange := by
      simp [hx, inRange, total, and_assoc]
    have accepts : (s.booking b).any Booking.acceptsExtend = true ↔ open_ := by
      rw [hx]; exact acceptsExtend_iff x
    refine ⟨fun k => refused r _ s _ h ?_, fun k k' => refused r _ s _ h ?_, fun k restart k' waits => refused r _ s _ h ?_,
      fun k restart k' waits => ?_⟩
    · rw [← range, Bool.not_eq_false] at k
      rw [checkExtend_val, k]; rfl
    · rw [checkExtend_val, range.2 k]
      rcases k' with k' | k'
      · simp [k']
      · rw [← accepts, Bool.not_eq_true] at k'
        simp [k']
    · rw [checkExtend_val, range.2 k, accepts.2 k', restart]; simp [waits]
    · have passed : checkExtend { index := b.val, seconds := n } (s.advance r.m) = none := by
        rw [checkExtend_advance, checkExtend_val, range.2 k, accepts.2 k', restart]; simp [waits]
      have hx' : (s.advance r.m).booking b = some x := by simpa using hx
      have at_ : ((s.advance r.m).setBooking b (some { x with extendPending := true })).booking b =
          some { x with extendPending := true } := by simp
      refine ⟨_, ((s.advance r.m).setBooking b (some { x with extendPending := true })).handEntry
        { kind := .extend total (decide (7200 < x.allowance + n)), booking := b, void := false }, rfl,
        takeRequest_answered (h.advance r.m) ?_, ?_, fun idle => ?_, fun busy => ?_⟩
      · refine (checked_none passed).trans ?_
        simp only [bookingIx_val, hx']
        rfl
      · rw [handEntry_rest]
      · obtain ⟨e1, e2⟩ := handEntry_idle
          (s := (s.advance r.m).setBooking b (some { x with extendPending := true }))
          (e := { kind := .extend total (decide (7200 < x.allowance + n)), booking := b, void := false })
          (by simp [advance_scan, idle]) at_
        exact ⟨by simp [e1], e2⟩
      · obtain ⟨e1, e2⟩ := handEntry_busy
          (s := (s.advance r.m).setBooking b (some { x with extendPending := true })) (by simp [advance_scan, busy])
          { kind := .extend total (decide (7200 < x.allowance + n)), booking := b, void := false }
        exact ⟨e1.trans rfl, by simp [e2]⟩

/-! ## Refusals during a restart (R23) -/

/-- What a restart makes of the first check a request fails (R23). -/
def RestartRefusal (code : Nat) (res : Result) : Prop := res = .range ∨ res = .state ∨ (code = 24 ∧ res = .timeUnset)

/-- The request is refused and changes nothing. -/
def RefusedAt (s t : State) (r : Req) (code : Nat) : Prop :=
  ∃ res, AnsweredOnly s t r code res [] ∧ RestartRefusal code res

/-- A check that fails, of an OPERATOR's request. -/
theorem takeRequest_refused {α : Type} {check : Option Result} {effect : Answer} {code : Nat}
    (h : FromOperator s r) (act : α → State → Answer) (a : α) (e : act a s = checked check s effect)
    (k : ∃ res, check = some res ∧ RestartRefusal code res) :
    RefusedAt s (s.takeRequest r code (some a) act) r code := by
  obtain ⟨res, hc, hq⟩ := k
  exact ⟨res, takeRequest_answered h (e.trans (checked_some hc)), hq⟩

/-- RANGE, or STATE during a restart. -/
theorem firstFailing_range_state (h : s.restart = true) (range : Bool) (l : List (Bool × Result)) (code : Nat) :
    ∃ res, firstFailing ((range, .range) :: (s.restart, .state) :: l) = some res ∧ RestartRefusal code res := by
  cases range <;> simp [h, RestartRefusal]

theorem firstFailing_state (h : s.restart = true) (l : List (Bool × Result)) (code : Nat) :
    ∃ res, firstFailing ((s.restart, .state) :: l) = some res ∧ RestartRefusal code res := by simp [h, RestartRefusal]

theorem checkBook_restart (h : s.restart = true) (a : BookArgs) :
    ∃ res, checkBook a s = some res ∧ RestartRefusal 24 res := by
  by_cases range : BookInRange a s
  · rw [checkBook_inRange range, h]
    cases s.timeSet <;> simp [RestartRefusal]
  · exact ⟨_, checkBook_range range, .inl rfl⟩

/-- The requests whose first check is the restart. -/
theorem refused_state (h : FromOperator s r) (hr : s.restart = true) (masks : Vector Bool 14) :
    RefusedAt s (reqRestart r (some ()) s) r 2 ∧ RefusedAt s (reqWatchUnfreeze r (some ()) s) r 58 ∧
      RefusedAt s (reqFaultMask r (some masks) s) r 66 :=
  ⟨takeRequest_refused h (fun _ s => actRestart r.m s) () rfl (firstFailing_state hr ..),
    takeRequest_refused h (fun _ s => actWatchUnfreeze s) () rfl (firstFailing_state hr ..),
    takeRequest_refused h actFaultMask masks rfl (firstFailing_state hr ..)⟩

/-- A changing request is refused during a restart. -/
theorem takeCommand_refused {c : Instr} {code : Nat} (sender : c.sender = some r) (hcode : c.requestCode = some code)
    (formed : c.formed = true) (h : FromOperator s r) (hr : s.restart = true)
    (listed : code ∈ [2, 3, 8, 16, 24, 25, 26, 27, 28, 32, 40, 48, 50, 56, 58, 65, 66]) :
    RefusedAt s (s.takeCommand c) r code := by
  cases c with
  | restart q body =>
    obtain ⟨⟩ := sender; obtain ⟨⟩ := hcode
    obtain ⟨_, rfl⟩ := Option.isSome_iff_exists.1 formed
    exact (refused_state h hr (Vector.replicate 14 false)).1
  | watchUnfreeze q body =>
    obtain ⟨⟩ := sender; obtain ⟨⟩ := hcode
    obtain ⟨_, rfl⟩ := Option.isSome_iff_exists.1 formed
    exact (refused_state h hr (Vector.replicate 14 false)).2.1
  | faultMask q body =>
    obtain ⟨⟩ := sender; obtain ⟨⟩ := hcode
    obtain ⟨a, rfl⟩ := Option.isSome_iff_exists.1 formed
    exact (refused_state h hr a).2.2
  | noticeSet q body =>
    obtain ⟨⟩ := sender; obtain ⟨⟩ := hcode
    obtain ⟨a, rfl⟩ := Option.isSome_iff_exists.1 formed
    exact takeRequest_refused h actNoticeSet a rfl (firstFailing_range_state hr ..)
  | timeSet q body =>
    obtain ⟨⟩ := sender; obtain ⟨⟩ := hcode
    obtain ⟨a, rfl⟩ := Option.isSome_iff_exists.1 formed
    exact takeRequest_refused h actTimeSet a rfl (firstFailing_range_state hr ..)
  | portSet q body =>
    obtain ⟨⟩ := sender; obtain ⟨⟩ := hcode
    obtain ⟨a, rfl⟩ := Option.isSome_iff_exists.1 formed
    exact takeRequest_refused h (actPortSet r.m) a rfl (firstFailing_range_state hr ..)
  | book q body =>
    obtain ⟨⟩ := sender; obtain ⟨⟩ := hcode
    obtain ⟨a, rfl⟩ := Option.isSome_iff_exists.1 formed
    exact takeRequest_refused h actBook a rfl (checkBook_restart hr a)
  | cancel q body =>
    obtain ⟨⟩ := sender; obtain ⟨⟩ := hcode
    obtain ⟨a, rfl⟩ := Option.isSome_iff_exists.1 formed
    exact takeRequest_refused h actCancel a rfl (firstFailing_range_state hr ..)
  | close q body =>
    obtain ⟨⟩ := sender; obtain ⟨⟩ := hcode
    obtain ⟨a, rfl⟩ := Option.isSome_iff_exists.1 formed
    exact takeRequest_refused h actClose a rfl (firstFailing_range_state hr ..)
  | extend q body =>
    obtain ⟨⟩ := sender; obtain ⟨⟩ := hcode
    obtain ⟨a, rfl⟩ := Option.isSome_iff_exists.1 formed
    exact takeRequest_refused h actExtend a rfl (firstFailing_range_state hr ..)
  | mode q body =>
    obtain ⟨⟩ := sender; obtain ⟨⟩ := hcode
    obtain ⟨a, rfl⟩ := Option.isSome_iff_exists.1 formed
    exact takeRequest_refused h (actMode r.m) a rfl (firstFailing_range_state hr ..)
  | patternSet q body =>
    obtain ⟨⟩ := sender; obtain ⟨⟩ := hcode
    obtain ⟨a, rfl⟩ := Option.isSome_iff_exists.1 formed
    exact takeRequest_refused h actPatternSet a rfl (firstFailing_range_state hr ..)
  | tariffSet q body =>
    obtain ⟨⟩ := sender; obtain ⟨⟩ := hcode
    obtain ⟨a, rfl⟩ := Option.isSome_iff_exists.1 formed
    exact takeRequest_refused h actTariffSet a rfl (firstFailing_range_state hr ..)
  | probe q body =>
    obtain ⟨⟩ := sender; obtain ⟨⟩ := hcode
    obtain ⟨a, rfl⟩ := Option.isSome_iff_exists.1 formed
    exact takeRequest_refused h actProbe a rfl (firstFailing_range_state hr ..)
  | probeConfig q body =>
    obtain ⟨⟩ := sender; obtain ⟨⟩ := hcode
    obtain ⟨a, rfl⟩ := Option.isSome_iff_exists.1 formed
    exact takeRequest_refused h actProbeConfig a rfl (firstFailing_range_state hr ..)
  | watchSet q body =>
    obtain ⟨⟩ := sender; obtain ⟨⟩ := hcode
    obtain ⟨a, rfl⟩ := Option.isSome_iff_exists.1 formed
    exact takeRequest_refused h actWatchSet a rfl (firstFailing_range_state hr ..)
  | faultClear q body =>
    obtain ⟨⟩ := sender; obtain ⟨⟩ := hcode
    obtain ⟨a, rfl⟩ := Option.isSome_iff_exists.1 formed
    exact takeRequest_refused h actFaultClear a rfl (firstFailing_range_state hr ..)
  | identify _ _ | timeRead _ _ | portRead _ _ | bookingRead _ _ | patternRead _ _ | tariffRead _ _ | probeRead _ _
  | watchRead _ _ | faultRead _ _ | billRead _ _ | billRelease _ _ =>
    obtain ⟨⟩ := hcode
    simp at listed
  | unknownRequestCode _ _ => cases formed
  | powerOn _ | secondBoundary _ | lightLost _ _ | lightReturns _ _ | frameReceived _ _ _ | slotStart _ _
  | transmitterPasses _ | silenceTimerExpiry _ _ _ | identTimeoutExpiry _ _ _ | phaseTimerExpiry _
  | traceDelivered _ _ | admissionCompletion _ => cases sender

/-- Settles O14: the check of each changing request fails at the restart, or before it. -/
theorem restartRefusesChanges : Obligations.RestartRefusesChanges := by
  intro c r code s sender hcode formed h restart listed
  rw [exec_request sender]
  obtain ⟨res, answered, k⟩ := takeCommand_refused sender hcode formed (h.advance r.m) (by simpa using restart) listed
  exact ⟨_, res, rfl, answered, k⟩

end Sys2Proof.Machine
end

section
/-! RESTART (R23, R109): the marks, and the probes that end ABORTED. -/

namespace Sys2Proof.Machine
open Sys2Proof.Config

variable {s t u : State} {r : Req}

/-! ## Settlements inside an event (R129, R155) -/

/-- A settlement raises BILL_WAIT at the most. -/
theorem settleBooking_raised (b : BookingIx) (s : State) :
    ∃ l, (s.settleBooking b).raised = s.raised ++ l ∧ ∀ x ∈ l, x.cls = .billWait := by
  have none_ : ∃ l, s.raised = s.raised ++ l ∧ ∀ x ∈ l, x.cls = FaultClass.billWait := ⟨[], by simp⟩
  unfold State.settleBooking
  split
  · exact none_
  · split
    · unfold State.billNow
      split
      · exact none_
      · dsimp only
        split
        · rw [closeBooking_rest]; exact none_
        · exact ⟨[_], rfl, by simp⟩
    · exact none_

/-- The settlements of an event touch what one touches. -/
theorem settleAll_rest (m : Moment) (s : State) : s.settleAll m =
    { s with bookings := (s.settleAll m).bookings, bills := (s.settleAll m).bills,
             billWaiting := (s.settleAll m).billWaiting, raised := (s.settleAll m).raised } := by
  unfold State.settleAll
  generalize bookingOrder m = l
  induction l generalizing s with
  | nil => rfl
  | cons b l ih =>
    rw [List.foldl_cons, ih, settleBooking_rest]

theorem settleAll_raised (m : Moment) (s : State) :
    ∃ l, (s.settleAll m).raised = s.raised ++ l ∧ ∀ x ∈ l, x.cls = .billWait := by
  unfold State.settleAll
  generalize bookingOrder m = l
  induction l generalizing s with
  | nil => exact ⟨[], by simp⟩
  | cons b l ih =>
    obtain ⟨l1, e1, h1⟩ := settleBooking_raised b s
    obtain ⟨l2, e2, h2⟩ := ih (s.settleBooking b)
    refine ⟨l1 ++ l2, by rw [List.foldl_cons, e2, e1, List.append_assoc], fun x hx => ?_⟩
    exact (List.mem_append.1 hx).elim (h1 x) (h2 x)

/-! ## Probes ended ABORTED (R109) -/

/-- The raise of an ended probe. -/
def probeDone (p : PortIx) : Raise := { cls := .probeDone, items := .ofPort p, detail := none }

def Raise.isProbeDone (x : Raise) : Bool := decide (x.cls = .probeDone)

/-- The probes of these ports have ended ABORTED, in this order. -/
structure Aborted (ports : List PortIx) (s t : State) : Prop where
  raised : t.raised.filter Raise.isProbeDone = s.raised.filter Raise.isProbeDone ++ ports.map probeDone
  ended : ∀ p ∈ ports, ∃ x, t.lastResults[p] = some x ∧ x.outcome = .aborted ∧ x.peaks = []
  others : ∀ p : PortIx, p ∉ ports → t.lastResults[p] = s.lastResults[p]
  flows : t.flows = s.flows
  probeCounter : t.probeCounter = s.probeCounter

theorem Aborted.of_eq (raised : t.raised = s.raised) (results : t.lastResults = s.lastResults) (flows : t.flows = s.flows)
    (counter : t.probeCounter = s.probeCounter) : Aborted [] s t :=
  ⟨by simp [raised], by simp, fun _ _ => by rw [results], flows, counter⟩

theorem Aborted.trans {l k : List PortIx} (h : Aborted l s t) (h' : Aborted k t u) : Aborted (l ++ k) s u where
  raised := by rw [h'.raised, h.raised, List.map_append, List.append_assoc]
  ended p hp := by
    by_cases e : p ∈ k
    · exact h'.ended p e
    · rw [h'.others p e]
      exact h.ended p ((List.mem_append.1 hp).resolve_right e)
  others p hp := by
    simp only [List.mem_append, not_or] at hp
    rw [h'.others p hp.2, h.others p hp.1]
  flows := h'.flows.trans h.flows
  probeCounter := h'.probeCounter.trans h.probeCounter

theorem aborted_concludeProbe (m : Moment) (n : ProbeNo) (p : PortIx) (s : State) :
    Aborted [p] s (s.concludeProbe m n p (.bare .aborted)) := by
  let v : State := { s with
    lastResults := s.lastResults.set p (some { number := n, outcome := .aborted, peaks := [], breakDistance := none,
                                               second := s.sec, timeSet := s.timeSet }) }
  let w := v.settleCauses n (settledCause .aborted p none (v.port p).demarcation)
  have e : s.concludeProbe m n p (.bare .aborted) = (w.settleAll m).raise .probeDone (.ofPort p) none := rfl
  obtain ⟨l, hl, waits⟩ := settleAll_raised m w
  have rest := settleAll_rest m w
  have quiet : l.filter Raise.isProbeDone = [] :=
    List.filter_eq_nil_iff.2 fun x hx => by simp [Raise.isProbeDone, waits x hx]
  rw [e]
  refine ⟨?_, fun q hq => ?_, fun q hq => ?_, ?_, ?_⟩
  · show ((w.settleAll m).raised ++ [probeDone p]).filter Raise.isProbeDone = _
    rw [hl, List.filter_append, List.filter_append, quiet, List.append_nil]
    rfl
  · obtain rfl := List.mem_singleton.1 hq
    refine ⟨{ number := n, outcome := .aborted, peaks := [], breakDistance := none, second := s.sec, timeSet := s.timeSet },
      ?_, rfl, rfl⟩
    show (w.settleAll m).lastResults[q] = _
    rw [rest]
    exact Vector.getElem_set_self ..
  · show (w.settleAll m).lastResults[q] = _
    rw [rest]
    have e : p.val ≠ q.val := fun k => hq (by simp [Fin.ext k.symm])
    exact Vector.getElem_set_ne p.isLt q.isLt e
  · show (w.settleAll m).flows = _
    rw [rest]; rfl
  · show (w.settleAll m).probeCounter = _
    rw [rest]; rfl

theorem aborted_leaveFlight (f : Flight) (s : State) : Aborted [] s (s.leaveFlight f) := by
  unfold State.leaveFlight; dsimp only; split <;> exact .of_eq rfl rfl rfl rfl

theorem aborted_waiting (m : Moment) (l : List WaitingProbe) (s : State) :
    Aborted (l.map (·.port)) s (l.foldl (fun t w => t.concludeProbe m w.number w.port (.bare .aborted)) s) := by
  induction l generalizing s with
  | nil => exact .of_eq rfl rfl rfl rfl
  | cons w l ih => exact (aborted_concludeProbe m w.number w.port s).trans (ih _)

/-- RESTART ends the probe in flight, then the waiting ones from the head back. -/
theorem aborted_abortAll (m : Moment) (s : State) : Aborted s.probedPorts s (s.abortAll m) := by
  have clear : Aborted [] s { s with probeWaiting := [] } := .of_eq rfl rfl rfl rfl
  unfold State.abortAll
  dsimp only
  split
  · next f h =>
    have ports : s.probedPorts = [f.port] ++ s.probeWaiting.map (·.port) := by simp [State.probedPorts, h]
    rw [ports]
    exact ((clear.trans (aborted_concludeProbe m f.number f.port _)).trans (aborted_leaveFlight f _)).trans
      (aborted_waiting m s.probeWaiting _)
  · next h =>
    have ports : s.probedPorts = s.probeWaiting.map (·.port) := by simp [State.probedPorts, h]
    rw [ports]
    exact clear.trans (aborted_waiting m s.probeWaiting _)

theorem waiting_probes (m : Moment) (l : List WaitingProbe) (s : State) (flight : s.flight = none)
    (waits : s.probeWaiting = []) :
    let t := l.foldl (fun t w => t.concludeProbe m w.number w.port (.bare .aborted)) s
    t.flight = none ∧ t.probeWaiting = [] := by
  induction l generalizing s with
  | nil => exact ⟨flight, waits⟩
  | cons w l ih =>
    obtain ⟨e1, e2⟩ := concludeProbe_probes m w.number w.port (.bare .aborted) s
    exact ih _ (e1.trans flight) (e2.trans waits)

/-- The engine is left idle with an empty queue. -/
theorem abortAll_probes (m : Moment) (s : State) :
    (s.abortAll m).flight = none ∧ (s.abortAll m).probeWaiting = [] := by
  unfold State.abortAll
  dsimp only
  refine waiting_probes m _ _ ?_ ?_
  · split
    · unfold State.leaveFlight; dsimp only; split <;> rfl
    · next h => exact h
  · split
    · next f h =>
      have e := (concludeProbe_probes m f.number f.port (.bare .aborted) { s with probeWaiting := [] }).2
      unfold State.leaveFlight; dsimp only; split <;> exact e
    · rfl

/-! ## RESTART (R23) -/

theorem OnlyAnswers.calm (h : OnlyAnswers s t) : Calm s t := by
  have faces : t.ports.map Port.face = s.ports.map Port.face := by
    refine Vector.ext fun i hi => ?_
    simp only [Vector.getElem_map]
    have e := congrArg Port.face (h.ports ⟨i, hi⟩)
    exact e
  unfold Calm State.calm State.still
  rw [h.rest]
  simp only [faces]

theorem AnsweredOnly.calm {code : Nat} {res : Result} {body : List Byte} (h : AnsweredOnly s t r code res body) :
    Calm s t := by
  obtain ⟨before, after, u, -, hu, -, rfl⟩ := h
  exact ((onlyAnswers_takeRaises before s).calm.trans hu.calm).trans (onlyAnswers_takeRaises after u).calm

theorem KeepsSettings.trans (h : KeepsSettings s t) (k : KeepsSettings t u) : KeepsSettings s u :=
  ⟨k.pending.trans h.pending, fun p => (k.ports p).trans (h.ports p), k.patterns.trans h.patterns,
    k.silenceMs.trans h.silenceMs, k.identTimeout.trans h.identTimeout, k.probeConfig.trans h.probeConfig,
    k.masks.trans h.masks, k.tariffs.trans h.tariffs, k.noticePort.trans h.noticePort, k.straps.trans h.straps,
    k.timeSet.trans h.timeSet, k.idleClose.trans h.idleClose⟩

theorem keepsSettings_advance (m : Moment) (s : State) : KeepsSettings s (s.advance m) := by
  constructor <;> simp

theorem keepsSettings_markRestart (s : State) : KeepsSettings s s.markRestart :=
  ⟨rfl, fun _ => rfl, rfl, rfl, rfl, rfl, rfl, rfl, rfl, rfl, rfl, rfl⟩

theorem markRestart_booking (b : BookingIx) (s : State) : s.markRestart.booking b =
    (s.booking b).map fun r => if r.carrying then { r with restartClose := true } else r := by
  simp [State.markRestart, State.booking]

theorem checkRestart_eq (s : State) : checkRestart s = if s.restart then some .state
    else if 64 - s.bills.length < s.countBookings (fun x => decide (x.state ∈ [.armed, .live, .overrun, .closing]))
      then some .noRoom else none := by
  have holds : (fun x : Booking => x.carrying || decide (x.state = .closing)) =
      fun x => decide (x.state ∈ [.armed, .live, .overrun, .closing]) := by
    funext x; cases k : x.state <;> simp [Booking.carrying, k]
  simp [checkRestart, holds, billQueueDepth]

/-- The record behind an accepted RESTART: its mark, its terms and, but for a CLOSING one, its state. -/
theorem restarted_booking {b : BookingIx} {x : Booking} (m : Moment) (hx : s.booking b = some x) :
    ∃ y, (s.markRestart.abortAll m).booking b = some y ∧ y.fixedTerms = x.fixedTerms ∧
      y.restartClose = (x.restartClose || decide (x.state ∈ [.armed, .live, .overrun])) ∧
      (x.state ≠ .closing → y.state = x.state) := by
  have marked : s.markRestart.booking b = some (if x.carrying then { x with restartClose := true } else x) := by
    rw [markRestart_booking, hx]; rfl
  have bare := (later_abortAll m s.markRestart).bare b
  have states := (settles_abortAll m s.markRestart).states b
  rw [marked] at bare
  obtain ⟨y, hy, hb⟩ := Option.map_eq_some_iff.1 bare
  rw [stateOf_of_booking marked, stateOf_of_booking hy] at states
  have carrying : x.carrying = decide (x.state ∈ [.armed, .live, .overrun]) := by
    cases k : x.state <;> simp [Booking.carrying, k]
  refine ⟨y, hy, ?_, ?_, fun open_ => ?_⟩
  · rw [fixedTerms_of_bare hb]; split <;> rfl
  · rw [show y.restartClose = y.bare.restartClose from rfl, hb, ← carrying]
    cases h : x.carrying <;> simp [Booking.bare]
  · cases h : x.carrying <;> simp_all

/-- Settles O20. -/
theorem restartIsAccepted : Obligations.RestartIsAccepted := by
  intro r s h
  have h' := h.advance r.m
  have refused : ∀ res, checkRestart (s.advance r.m) = some res →
      ∃ t, exec (.restart r (some ())) s = .next t ∧ AnsweredOnly (s.advance r.m) t r 2 res [] :=
    fun res k => ⟨_, rfl, takeRequest_answered h' (checked_some k)⟩
  have check : checkRestart (s.advance r.m) = _ := checkRestart_eq _
  rw [State.advance_restart, State.advance_bills, advance_countBookings] at check
  refine ⟨fun k => refused _ ?_, fun k room => refused _ ?_, fun k room => ?_⟩
  · rw [check, k]; rfl
  · rw [check, k, if_pos room]; rfl
  · have passed : checkRestart (s.advance r.m) = none := by rw [check, k, if_neg (Nat.not_lt.2 room)]; rfl
    let v := (s.advance r.m).markRestart
    have ends := aborted_abortAll r.m v
    obtain ⟨flight, waits⟩ := abortAll_probes r.m v
    have answered : AnsweredOnly (v.abortAll r.m) (reqRestart r (some ()) (s.advance r.m)) r 2 .ok [] :=
      takeRequest_answered h' (checked_none passed)
    have calm := (later_abortAll r.m v).calm.trans answered.calm
    have keeps := ((keepsSettings_advance r.m s).trans (keepsSettings_markRestart _)).trans calm.keepsSettings
    refine ⟨_, v.abortAll r.m, rfl, answered, keeps, calm.restart, ?_⟩
    generalize reqRestart r (some ()) (s.advance r.m) = t at answered
    have same := answered.rest
    have sec := (later_abortAll r.m v).calm.sec.trans (State.advance_sec ..)
    have cause := (later_abortAll r.m v).calm.startCause.trans (State.advance_startCause ..)
    have ports : v.probedPorts = s.probedPorts := by simp [v, State.probedPorts, State.markRestart]
    have counter : v.probeCounter = s.probeCounter := by simp [v, State.markRestart]
    have flows : v.flows = s.flows := by simp [v, State.markRestart]
    have results : v.lastResults = s.lastResults := by simp [v, State.markRestart]
    have fresh : v.raised = [] := by dsimp only [v, State.markRestart]; rw [advance_eq]; rfl
    obtain ⟨done, ended, others, flows', counter'⟩ := ends
    rw [ports] at done ended others
    rw [fresh] at done
    rw [results] at others
    have table : ∀ b x, s.booking b = some x → _ := fun b x hx =>
      restarted_booking (s := s.advance r.m) r.m ((State.advance_booking ..).trans hx)
    rw [same]
    exact ⟨flight, waits, counter'.trans counter, done, sec, cause, flows'.trans flows, ended, others, table⟩

end Sys2Proof.Machine
end

section
/-! Each setting has one writer: what a command may do to the settings. -/

namespace Sys2Proof.Machine
open Sys2Proof.Config

variable {s t u : State}

/-! ## The settings and their writers -/

/-- The settings, grouped by what writes them; the second count moves at a boundary too. -/
inductive Setting where
  | time | second | ports | patterns | probeConfig | tariffs | masks | noticePort

/-- The setting a command writes. -/
def settingOf : Instr → Option Setting
  | .timeSet _ _ => some .time
  | .secondBoundary _ => some .second
  | .portSet _ _ => some .ports
  | .patternSet _ _ => some .patterns
  | .probeConfig _ _ => some .probeConfig
  | .tariffSet _ _ => some .tariffs
  | .faultMask _ _ => some .masks
  | .noticeSet _ _ => some .noticePort
  | _ => none

/-- The command that writes a setting. -/
def Setting.WrittenBy : Setting → Instr → Prop
  | .time, c => ∃ r a, c = .timeSet r a
  | .second, c => ∃ m, c = .secondBoundary m
  | .ports, c => ∃ r a, c = .portSet r a
  | .patterns, c => ∃ r a, c = .patternSet r a
  | .probeConfig, c => ∃ r a, c = .probeConfig r a
  | .tariffs, c => ∃ r a, c = .tariffSet r a
  | .masks, c => ∃ r a, c = .faultMask r a
  | .noticePort, c => ∃ r a, c = .noticeSet r a

theorem writtenBy_of_settingOf {c : Instr} {w : Setting} (h : settingOf c = some w) : w.WrittenBy c := by
  cases c <;> cases h <;> simp [Setting.WrittenBy]

/-- Between the two states no setting but `w` differs. -/
structure Writes (w : Option Setting) (s t : State) : Prop where
  time : w ≠ some .time → t.timeSet = s.timeSet ∧ t.idleClose = s.idleClose
  second : w ≠ some .time → w ≠ some .second → t.sec = s.sec
  ports : w ≠ some .ports → ∀ p, (t.port p).settings = (s.port p).settings
  patterns : w ≠ some .patterns →
    t.patterns = s.patterns ∧ t.silenceMs = s.silenceMs ∧ t.identTimeout = s.identTimeout
  probeConfig : w ≠ some .probeConfig → t.probeConfig = s.probeConfig
  tariffs : w ≠ some .tariffs → t.tariffs = s.tariffs
  masks : w ≠ some .masks → t.masks = s.masks
  noticePort : w ≠ some .noticePort → t.noticePort = s.noticePort

variable {w : Option Setting}

theorem Writes.of_ports (ports : ∀ p, (t.port p).settings = (s.port p).settings)
    (h : t = { s with pending := t.pending, clock := t.clock, sub := t.sub, restart := t.restart, bookings := t.bookings,
                      scan := t.scan, waiting := t.waiting, ports := t.ports, flows := t.flows, deferred := t.deferred,
                      flight := t.flight, probeWaiting := t.probeWaiting, probeCounter := t.probeCounter,
                      lastResults := t.lastResults, counters := t.counters, frozen := t.frozen, flags := t.flags,
                      capture := t.capture, raised := t.raised, bills := t.bills, billWaiting := t.billWaiting,
                      startCause := t.startCause, straps := t.straps }) : Writes w s t := by
  rw [h]
  refine ⟨fun _ => ⟨rfl, rfl⟩, fun _ _ => rfl, fun _ p => ?_, fun _ => ⟨rfl, rfl, rfl⟩, fun _ => rfl, fun _ => rfl,
    fun _ => rfl, fun _ => rfl⟩
  exact ports p

theorem Writes.refl (s : State) : Writes w s s := .of_ports (fun _ => rfl) rfl

theorem Writes.trans (h : Writes w s t) (k : Writes w t u) : Writes w s u where
  time e := ⟨(k.time e).1.trans (h.time e).1, (k.time e).2.trans (h.time e).2⟩
  second e e' := (k.second e e').trans (h.second e e')
  ports e p := (k.ports e p).trans (h.ports e p)
  patterns e := by
    obtain ⟨h1, h2, h3⟩ := h.patterns e
    obtain ⟨k1, k2, k3⟩ := k.patterns e
    exact ⟨k1.trans h1, k2.trans h2, k3.trans h3⟩
  probeConfig e := (k.probeConfig e).trans (h.probeConfig e)
  tariffs e := (k.tariffs e).trans (h.tariffs e)
  masks e := (k.masks e).trans (h.masks e)
  noticePort e := (k.noticePort e).trans (h.noticePort e)

theorem KeepsSettings.writes (h : KeepsSettings s t) (sec : t.sec = s.sec) : Writes w s t :=
  ⟨fun _ => ⟨h.timeSet, h.idleClose⟩, fun _ _ => sec, fun _ => h.ports, fun _ => ⟨h.patterns, h.silenceMs, h.identTimeout⟩,
    fun _ => h.probeConfig, fun _ => h.tariffs, fun _ => h.masks, fun _ => h.noticePort⟩

theorem Calm.writes (h : Calm s t) : Writes w s t := h.keepsSettings.writes h.sec

theorem Later.writes (h : Later s t) : Writes w s t := h.calm.writes

theorem Work.writes {R : Reach} (h : Work R s t) : Writes w s t := h.calm.writes

theorem writes_advance (m : Moment) (s : State) : Writes w s (s.advance m) := (keepsSettings_advance m s).writes (by simp)

theorem writes_setPort {p : PortIx} {x : Port} (h : x.settings = (s.port p).settings) : Writes w s (s.setPort p x) := by
  refine .of_ports (fun q => ?_) rfl
  by_cases e : q = p
  · subst e; simpa using h
  · simp [e]

/-! ## One request -/

theorem writes_checked {c : Option Result} {a : Answer} (h : Writes w s a.state) : Writes w s (checked c s a).state := by
  cases c with
  | none => exact h
  | some res => exact .refl s

theorem writes_takeRequest {α : Type} {act : α → State → Answer} (h : ∀ a, Writes w s (act a s).state) (r : Req)
    (code : Nat) (body : Body α) : Writes w s (s.takeRequest r code body act) := by
  have answered : ∀ (res : Result) (l : List Byte) (t : State), Writes w t (t.respond r code res l) :=
    fun _ _ _ => (later_respond ..).writes
  unfold State.takeRequest
  split
  · exact .refl s
  · split
    · exact answered ..
    · split
      · exact answered ..
      · exact (h _).trans (answered ..)

theorem writes_handEntry (e : AdmissionEntry) (s : State) : Writes w s (s.handEntry e) := by
  rw [handEntry_rest]; exact .of_ports (fun _ => rfl) rfl

theorem writes_setBooking (b : BookingIx) (x : Option Booking) (s : State) : Writes w s (s.setBooking b x) :=
  (calm_setBooking b x s).writes

theorem writes_updBooking (b : BookingIx) (f : Booking → Booking) (s : State) : Writes w s (s.updBooking b f) := by
  unfold State.updBooking
  split
  · exact .refl s
  · exact writes_setBooking ..

theorem writes_settleBooking (b : BookingIx) (s : State) : Writes w s (s.settleBooking b) :=
  (later_settleBooking b s).writes

theorem writes_freeBooking (b : BookingIx) (s : State) : Writes w s (s.freeBooking b) := .of_ports (fun _ => rfl) rfl

theorem writes_actRestart (m : Moment) (s : State) : Writes w s (actRestart m s).state :=
  writes_checked (((keepsSettings_markRestart s).writes rfl).trans (later_abortAll m _).writes)

theorem writes_actPortSet (m : Moment) (a : PortSetArgs) (s : State) :
    Writes (some .ports) s (actPortSet m a s).state := by
  refine writes_checked ?_
  have off : ∀ (p : PortIx) (t : State), Writes (some .ports) t (t.switchOff m p) := fun p t =>
    ((later_emptyMedia m p t).trans (later_endProbeOf m p .aborted _)).writes
  have written : ∀ (p : PortIx) (x : Port), Writes (some .ports) s (s.setPort p x) := fun p x =>
    ⟨fun _ => ⟨rfl, rfl⟩, fun _ _ => rfl, fun e => absurd rfl e, fun _ => ⟨rfl, rfl, rfl⟩, fun _ => rfl, fun _ => rfl,
      fun _ => rfl, fun _ => rfl⟩
  show Writes _ s (s.writePort m (portIx a.port) a)
  dsimp only [State.writePort]
  split
  · exact (written ..).trans (off ..)
  · exact written ..

theorem writes_actCancel (n : Nat) (s : State) : Writes w s (actCancel n s).state := by
  refine writes_checked ?_
  split
  · unfold State.cancelBooking
    split
    case h_2 =>
      split
      · exact (writes_setBooking ..).trans (writes_settleBooking ..)
      · exact writes_freeBooking ..
    case h_1 | h_3 | h_4 => exact writes_setBooking ..
    all_goals exact .refl s
  · exact .refl s

theorem writes_actExtend (a : ExtendArgs) (s : State) : Writes w s (actExtend a s).state := by
  refine writes_checked ?_
  split
  · exact (writes_setBooking ..).trans (writes_handEntry ..)
  · exact .refl s

theorem writes_actMode (m : Moment) (a : ModeArgs) (s : State) : Writes w s (actMode m a s).state := by
  refine writes_checked ?_
  split
  · exact (writes_setBooking ..).trans (later_judge ..).writes
  · exact .refl s

theorem writes_actBookingRead (n : Nat) (s : State) : Writes w s (actBookingRead n s).state := by
  refine writes_checked ?_
  show Writes w s (if _ then _ else _ : State)
  split
  · exact writes_freeBooking ..
  · exact .refl s

theorem writes_promoteBill (s : State) : Writes w s s.promoteBill := by
  unfold State.promoteBill
  split
  · exact .refl s
  · next x rest _ =>
    have moved : Writes w s { s with bills := s.bills ++ [x], billWaiting := rest } := .of_ports (fun _ => rfl) rfl
    exact moved.trans (later_closeBooking ..).writes

theorem writes_actBillRelease (n : Nat) (s : State) : Writes w s (actBillRelease n s).state := by
  refine writes_checked ?_
  have freed : Writes w s (State.freeBooking (bookingIx n) { s with bills := s.bills.tail }) :=
    .of_ports (fun _ => rfl) rfl
  exact freed.trans (writes_promoteBill _)

/-- A request writes its own setting alone. -/
theorem writes_takeCommand (c : Instr) (s : State) : Writes (settingOf c) s (s.takeCommand c) := by
  have same : ∀ {w : Option Setting} {t : State}, (∀ p, (t.port p).settings = (s.port p).settings) → _ → Writes w s t :=
    fun h k => Writes.of_ports h k
  cases c with
  | unknownRequestCode r code =>
    dsimp only [State.takeCommand, reqUnknownRequestCode]
    split
    · exact .refl s
    · exact writes_takeRequest (fun _ => .refl s) ..
  | identify r b => exact writes_takeRequest (fun _ => same (fun _ => rfl) rfl) ..
  | restart r b => exact writes_takeRequest (fun _ => writes_actRestart r.m s) ..
  | noticeSet r b =>
    refine writes_takeRequest (fun _ => writes_checked ?_) ..
    exact ⟨fun _ => ⟨rfl, rfl⟩, fun _ _ => rfl, fun _ _ => rfl, fun _ => ⟨rfl, rfl, rfl⟩, fun _ => rfl, fun _ => rfl,
      fun _ => rfl, fun e => absurd rfl e⟩
  | timeSet r b =>
    refine writes_takeRequest (fun _ => writes_checked ?_) ..
    exact ⟨fun e => absurd rfl e, fun e => absurd rfl e, fun _ _ => rfl, fun _ => ⟨rfl, rfl, rfl⟩, fun _ => rfl,
      fun _ => rfl, fun _ => rfl, fun _ => rfl⟩
  | timeRead r b => exact writes_takeRequest (fun _ => .refl s) ..
  | portSet r b => exact writes_takeRequest (fun a => writes_actPortSet r.m a s) ..
  | portRead r b => exact writes_takeRequest (fun _ => writes_checked (.refl s)) ..
  | book r b =>
    exact writes_takeRequest (fun _ => writes_checked ((writes_setBooking ..).trans (writes_handEntry ..))) ..
  | cancel r b => exact writes_takeRequest (fun a => writes_actCancel a s) ..
  | close r b => exact writes_takeRequest (fun _ => writes_checked (writes_updBooking ..)) ..
  | extend r b => exact writes_takeRequest (fun a => writes_actExtend a s) ..
  | mode r b => exact writes_takeRequest (fun a => writes_actMode r.m a s) ..
  | bookingRead r b => exact writes_takeRequest (fun a => writes_actBookingRead a s) ..
  | patternSet r b =>
    refine writes_takeRequest (fun _ => writes_checked ?_) ..
    exact ⟨fun _ => ⟨rfl, rfl⟩, fun _ _ => rfl, fun _ _ => rfl, fun e => absurd rfl e, fun _ => rfl, fun _ => rfl,
      fun _ => rfl, fun _ => rfl⟩
  | patternRead r b => exact writes_takeRequest (fun _ => writes_checked (.refl s)) ..
  | tariffSet r b =>
    refine writes_takeRequest (fun _ => writes_checked ?_) ..
    exact ⟨fun _ => ⟨rfl, rfl⟩, fun _ _ => rfl, fun _ _ => rfl, fun _ => ⟨rfl, rfl, rfl⟩, fun _ => rfl,
      fun e => absurd rfl e, fun _ => rfl, fun _ => rfl⟩
  | tariffRead r b => exact writes_takeRequest (fun _ => writes_checked (.refl s)) ..
  | probe r b => exact writes_takeRequest (fun a => writes_checked (later_probeRequest (portIx a) s).writes) ..
  | probeRead r b => exact writes_takeRequest (fun _ => writes_checked (.refl s)) ..
  | probeConfig r b =>
    refine writes_takeRequest (fun _ => writes_checked ?_) ..
    exact ⟨fun _ => ⟨rfl, rfl⟩, fun _ _ => rfl, fun _ _ => rfl, fun _ => ⟨rfl, rfl, rfl⟩, fun e => absurd rfl e,
      fun _ => rfl, fun _ => rfl, fun _ => rfl⟩
  | watchSet r b => exact writes_takeRequest (fun _ => writes_checked (later_setCounter ..).writes) ..
  | watchRead r b => exact writes_takeRequest (fun _ => writes_checked (.refl s)) ..
  | watchUnfreeze r b => exact writes_takeRequest (fun _ => writes_checked (same (fun _ => rfl) rfl)) ..
  | faultRead r b => exact writes_takeRequest (fun _ => same (fun _ => rfl) rfl) ..
  | faultClear r b => exact writes_takeRequest (fun _ => writes_checked (same (fun _ => rfl) rfl)) ..
  | faultMask r b =>
    refine writes_takeRequest (fun _ => writes_checked ?_) ..
    exact ⟨fun _ => ⟨rfl, rfl⟩, fun _ _ => rfl, fun _ _ => rfl, fun _ => ⟨rfl, rfl, rfl⟩, fun _ => rfl, fun _ => rfl,
      fun e => absurd rfl e, fun _ => rfl⟩
  | billRead r b => exact writes_takeRequest (fun _ => .refl s) ..
  | billRelease r b => exact writes_takeRequest (fun a => writes_actBillRelease a s) ..
  | _ => exact .refl s

/-! ## Light, timers, scans and the boundary -/

theorem writes_elapseTo (i : Nat) (s : State) : Writes w s (s.elapseTo i) := .of_ports (fun _ => rfl) rfl

theorem writes_flush (m : Moment) (s : State) : Writes w s (s.flush m) := (later_flush m s).writes

theorem writes_loseLight (m : Moment) (p : PortIx) (s : State) : Writes w s (s.loseLight m p) := by
  dsimp only [State.loseLight]
  have dark : Writes w s ((s.setLink p .down).raise .los (.ofPort p) none) :=
    (writes_setPort (p := p) (x := { s.port p with link := .down, upWhole := false }) rfl).trans (later_raise ..).writes
  have probed := fun t : State => (later_autoProbe p t).writes (w := w)
  have left : ∀ (x : Bool) (t : State), Writes w t (if x = true then t.leaveUp m p else t) := fun x t => by
    split
    · exact (later_leaveUp m p t).writes
    · exact .refl t
  have captured := fun t : State => (later_recapturePort m p t).writes (w := w)
  cases m.autoFirst
  · exact ((dark.trans (left ..)).trans (captured _)).trans (probed _)
  · exact ((dark.trans (probed _)).trans (left ..)).trans (captured _)

theorem beginSlot_settings (x : Port) (now : Nat) : (x.beginSlot now).settings = x.settings := by
  unfold Port.beginSlot
  cases x.choose now <;> rfl

theorem writes_beginSlot (p : PortIx) (s : State) : Writes w s (s.setPort p ((s.port p).beginSlot s.clock)) :=
  writes_setPort (beginSlot_settings (s.port p) s.clock)

theorem writes_deliver (m : Moment) (f : Flight) (x : Measured) (s : State) : Writes w s (s.deliver m f x) := by
  have next : ∀ g, Writes w s { s with flight := g } := fun _ => .of_ports (fun _ => rfl) rfl
  unfold State.deliver
  split
  · split
    · exact (later_endFlight ..).writes
    · exact next _
  · split
    · split
      · exact next _
      · exact .refl s
    · exact .refl s
  · split <;> exact (later_endFlight ..).writes
  · exact .refl s

theorem writes_completeEntry (e : AdmissionEntry) (v : Option Verdict) (s : State) :
    Writes w s (s.completeEntry e v) := by
  unfold State.completeEntry
  split
  · exact .of_ports (fun _ => rfl) rfl
  · split
    · unfold State.completeBook
      split
      · exact .of_ports (fun _ => rfl) rfl
      · split
        · exact .of_ports (fun _ => rfl) rfl
        · split <;> exact .of_ports (fun _ => rfl) rfl
    · unfold State.completeExtend
      split
      · exact .of_ports (fun _ => rfl) rfl
      · dsimp only
        split
        · split <;> exact .of_ports (fun _ => rfl) rfl
        · exact .of_ports (fun _ => rfl) rfl

theorem writes_startWaiting (l : List AdmissionEntry) (s : State) : Writes w s (s.startWaiting l) := by
  induction l generalizing s with
  | nil => exact .of_ports (fun _ => rfl) rfl
  | cons e l ih =>
    unfold State.startWaiting
    split
    · have void : Writes w s (State.completeVoid e.booking { s with waiting := l }) := .of_ports (fun _ => rfl) rfl
      exact void.trans (ih _)
    · unfold State.beginScan; split <;> exact .of_ports (fun _ => rfl) rfl

theorem writes_completeScan (sc : Scan) (s : State) : Writes w s (s.completeScan sc) := by
  have idle : Writes w s { s with scan := none } := .of_ports (fun _ => rfl) rfl
  exact (idle.trans (writes_completeEntry ..)).trans (writes_startWaiting ..)

theorem writes_finishRestart (s : State) : Writes w s s.finishRestart := .of_ports (fun _ => rfl) rfl

theorem writes_boundary (m : Moment) (s : State) : Writes (some .second) s (s.boundary m) := by
  have start : Writes (some .second) s s.stepSecond.portsBoundary :=
    ⟨fun _ => ⟨rfl, rfl⟩, fun _ e => absurd rfl e, fun _ p => by simp [State.portsBoundary, State.port]; rfl,
      fun _ => ⟨rfl, rfl, rfl⟩, fun _ => rfl, fun _ => rfl, fun _ => rfl, fun _ => rfl⟩
  have finish : ∀ t : State, Writes (some .second) t (t.tryFinishRestart m) := fun t => by
    unfold State.tryFinishRestart
    split
    · exact (writes_flush ..).trans (writes_finishRestart _)
    · exact .refl t
  have watches := fun (o : List BookingIx) (l : List (BookingIx × Booking)) (t : State) =>
    (later_watchBoundary m o l t).writes (w := some .second)
  have classified := start.trans (later_classify s.sec _).writes
  have schedules := fun t : State => (calm_schedule m t).writes (w := some .second)
  dsimp only [State.boundary]
  split
  · exact ((classified.trans (watches ..)).trans (schedules _)).trans (finish _)
  · exact ((classified.trans (schedules _)).trans (finish _)).trans (watches ..)

/-- Every command but power-on and a frame, which may carry any request. -/
theorem writes_exec {c : Instr} (hc : ∀ st, c ≠ .powerOn st) (hf : ∀ m p bytes, c ≠ .frameReceived m p bytes)
    (h : exec c s = .next t) :
    Writes (settingOf c) s t := by
  have now := fun m => writes_advance (w := (settingOf c)) m s
  cases hs : c.sender with
  | some r =>
    rw [exec_request hs] at h
    cases h
    exact (now r.m).trans (writes_takeCommand ..)
  | none =>
    cases c with
    | powerOn st => exact absurd rfl (hc st)
    | frameReceived m p bytes => exact absurd rfl (hf m p bytes)
    | secondBoundary m =>
      cases h
      exact (now m).trans ((writes_boundary m _).trans (writes_flush ..))
    | lightLost m p =>
      dsimp only [exec, execLightLost] at h
      split at h <;> cases h
      · exact (now m).trans ((writes_loseLight m p _).trans (writes_flush ..))
      · exact now m
    | lightReturns m p =>
      dsimp only [exec, execLightReturns] at h
      split at h <;> cases h
      · exact now m
      · have lit : ∀ u : State, Writes none u
            (u.setPort p { u.port p with link := .acquiring, goodRun := 0, upWhole := false }) := fun _ => writes_setPort rfl
        exact ((now m).trans (lit _)).trans ((later_endProbeOf ..).writes.trans (writes_flush ..))
    | slotStart m p =>
      dsimp only [exec, execSlotStart] at h
      split at h
      · cases h; exact now m
      · split at h <;> cases h
        · exact (now m).trans ((writes_elapseTo ..).trans (writes_beginSlot ..))
        · exact (now m).trans (writes_beginSlot ..)
    | transmitterPasses m =>
      dsimp only [exec, execTransmitterPasses] at h
      split at h
      · split at h <;> cases h
        · have idle : ∀ (p : PortIx) (g : Option Flight) (t : State), Writes none t
              { t.setPort p { t.port p with sending := none } with flight := g } := fun p g t =>
            (writes_setPort (p := p) (x := { t.port p with sending := none }) rfl).trans (.of_ports (fun _ => rfl) rfl)
          exact (now m).trans ((writes_elapseTo ..).trans (idle ..))
        · exact now m
      · cases h; exact now m
    | silenceTimerExpiry m b l =>
      dsimp only [exec, execSilenceTimerExpiry] at h
      split at h <;> cases h
      · exact ((now m).trans (writes_elapseTo ..)).trans ((later_legSilent ..).writes.trans (writes_flush ..))
      · exact now m
    | identTimeoutExpiry m b l =>
      dsimp only [exec, execIdentTimeoutExpiry] at h
      split at h <;> cases h
      · exact ((now m).trans (writes_elapseTo ..)).trans ((later_identExpire ..).writes.trans (writes_flush ..))
      · exact now m
    | phaseTimerExpiry m =>
      dsimp only [exec, execPhaseTimerExpiry] at h
      split at h
      · split at h <;> cases h
        · exact ((now m).trans (writes_elapseTo ..)).trans ((later_endFlight ..).writes.trans (writes_flush ..))
        · exact now m
      · cases h; exact now m
    | traceDelivered m x =>
      dsimp only [exec, execTraceDelivered] at h
      split at h
      · split at h
        · split at h <;> cases h
          · exact ((now m).trans (writes_elapseTo ..)).trans ((writes_deliver ..).trans (writes_flush ..))
          · exact now m
        · cases h; exact now m
      · cases h; exact now m
    | admissionCompletion m =>
      have begun : Writes none s (s.beginEvent m.dt) := .of_ports (fun _ => rfl) rfl
      dsimp only [exec, execAdmissionCompletion] at h
      split at h <;> cases h
      · exact begun.trans ((writes_completeScan ..).trans (writes_flush ..))
      · exact begun
    | _ => cases hs

/-- Settles O11. -/
theorem settingsHaveOneWriter : Obligations.SettingsHaveOneWriter := by
  intro c s t hc hf h
  have k := writes_exec hc hf h
  have own : ∀ w, ¬ w.WrittenBy c → settingOf c ≠ some w := fun w e k => e (writtenBy_of_settingOf k)
  refine ⟨fun e => ?_, fun e => k.ports (own _ ?_), fun e => ?_, fun e => k.probeConfig (own _ ?_),
    fun e => k.tariffs (own _ ?_), fun e => k.masks (own _ ?_), fun e => k.noticePort (own _ ?_)⟩
  · have notTime : settingOf c ≠ some .time := own _ fun ⟨r, a, h⟩ => e r a h
    obtain ⟨h1, h2⟩ := k.time notTime
    exact ⟨by rw [h1, h2], fun e' => k.second notTime (own _ fun ⟨m, h⟩ => e' m h)⟩
  · exact fun ⟨r, a, h⟩ => e r a h
  · obtain ⟨h1, h2, h3⟩ := k.patterns (own _ fun ⟨r, a, h⟩ => e r a h)
    rw [h1, h2, h3]
  all_goals exact fun ⟨r, a, h⟩ => e r a h

end Sys2Proof.Machine
end

section
/-! The completion of a scan (R11, R21, R27, R33 to R36). -/

namespace Sys2Proof.Machine
open Sys2Proof.Config

variable {s t u : State}

/-! ## The entry of the scan -/

/-- The record a completed BOOK leaves (R11, R33). -/
def Booking.afterBook (x : Booking) (v : Option Verdict) : Booking :=
  if x.cancelReq then { x with state := .cancelled }
  else match v with
    | none => { x with state := .confirmed }
    | some why => { x with state := .refused, detail := some why }

/-- The record an entry leaves, by its kind. -/
def AdmissionEntry.settledRecord (e : AdmissionEntry) (x : Booking) (v : Option Verdict) : Booking :=
  match e.kind with
  | .book => x.afterBook v
  | .extend total clamped => x.afterExtend total clamped v

/-- `t` is `s` with record `b` written and ADMISSION raised. -/
def SettledAs (s t : State) (b : BookingIx) (y : Booking) : Prop :=
  ∃ a : Raise, a.cls = .admission ∧ t = { s.setBooking b (some y) with raised := s.raised ++ [a] }

theorem completeBook_settledAs {b : BookingIx} {x : Booking} (hx : s.booking b = some x) (v : Option Verdict) :
    SettledAs s (s.completeBook b v) b (x.afterBook v) := by
  unfold State.completeBook
  rw [hx]
  by_cases hc : x.cancelReq = true
  · exact ⟨_, rfl, by simp only [hc, if_true, Booking.afterBook]; rfl⟩
  · cases v <;> exact ⟨_, rfl, by simp only [hc, Booking.afterBook]; rfl⟩

theorem completeExtend_settledAs {b : BookingIx} {x : Booking} (hx : s.booking b = some x) (total : Nat) (clamped : Bool)
    (v : Option Verdict) : SettledAs s (s.completeExtend b total clamped v) b (x.afterExtend total clamped v) := by
  unfold State.completeExtend
  rw [hx]
  dsimp only
  split
  · split <;> exact ⟨_, rfl, rfl⟩
  · exact ⟨_, rfl, rfl⟩

/-- The entry of a record in the table, not void. -/
theorem completeEntry_settledAs {e : AdmissionEntry} {x : Booking} (void : e.void = false)
    (hx : s.booking e.booking = some x) (v : Option Verdict) :
    SettledAs s (s.completeEntry e v) e.booking (e.settledRecord x v) := by
  obtain ⟨kind, b, _⟩ := e
  obtain rfl := void
  cases kind with
  | book => exact completeBook_settledAs hx v
  | extend total clamped => exact completeExtend_settledAs hx total clamped v

/-- A void entry writes nothing, and neither does one of a FREE record. -/
theorem completeEntry_empty {e : AdmissionEntry} (h : e.void = true ∨ s.booking e.booking = none) (v : Option Verdict) :
    ∃ l, s.completeEntry e v = { s with raised := s.raised ++ l } ∧ (e.void = true → ∃ a ∈ l, a.cls = .admission) := by
  unfold State.completeEntry
  split
  · exact ⟨[_], rfl, fun _ => ⟨_, List.mem_singleton_self _, rfl⟩⟩
  · next hv =>
    have free := h.resolve_left hv
    split
    · exact ⟨[], by simp [State.completeBook, free], fun k => absurd k hv⟩
    · exact ⟨[_], by simp only [State.completeExtend, free]; rfl, fun k => absurd k hv⟩

/-- An entry settled, its scan over. -/
structure EntrySettled (s t : State) (e : AdmissionEntry) (v : Option Verdict) : Prop where
  rest : t = { s with bookings := t.bookings, scan := none, raised := t.raised }
  raised : s.booking e.booking ≠ none ∨ e.void = true → ∃ a ∈ t.raised, a.cls = .admission
  others : ∀ i, i ≠ e.booking → t.booking i = s.booking i
  void : e.void = true → t.bookings = s.bookings
  record : ∀ x, e.void = false → s.booking e.booking = some x → t.booking e.booking = some (e.settledRecord x v)

theorem completeEntry_settled (e : AdmissionEntry) (v : Option Verdict) (s : State) :
    EntrySettled s (State.completeEntry e v { s with scan := none }) e v := by
  let u : State := { s with scan := none }
  show EntrySettled s (u.completeEntry e v) e v
  have bare : ∀ l, (e.void = true ∨ s.booking e.booking = none) →
      (s.booking e.booking ≠ none ∨ e.void = true → ∃ a ∈ l, a.cls = FaultClass.admission) →
      EntrySettled s { u with raised := u.raised ++ l } e v := by
    intro l empty raised
    refine ⟨rfl, fun h => ?_, fun _ _ => rfl, fun _ => rfl, fun x void hx => ?_⟩
    · obtain ⟨a, ha, k⟩ := raised h
      exact ⟨a, List.mem_append_right _ ha, k⟩
    · rw [void, hx] at empty
      simp at empty
  by_cases void : e.void = true
  · obtain ⟨l, e1, e2⟩ := completeEntry_empty (s := u) (.inl void) v
    rw [e1]
    exact bare l (.inl void) fun _ => e2 void
  · cases hx : s.booking e.booking with
    | none =>
      obtain ⟨l, e1, -⟩ := completeEntry_empty (s := u) (e := e) (.inr hx) v
      rw [e1]
      exact bare l (.inr hx) fun h => absurd (h.resolve_left fun k => k hx) void
    | some x =>
      obtain ⟨a, ha, e1⟩ := completeEntry_settledAs (s := u) (by simpa using void) hx v
      rw [e1]
      refine ⟨rfl, fun _ => ⟨a, by simp, ha⟩, fun i hi => ?_, fun k => absurd k void, fun y _ hy => ?_⟩
      · exact (State.setBooking_booking ..).trans (if_neg hi)
      · rw [hx] at hy
        cases hy
        exact (State.setBooking_booking ..).trans (if_pos rfl)

/-! ## The entries behind it (R27, R36) -/

/-- The scan that begins for an entry, with the record it reads. -/
structure Begun (s : State) (e : AdmissionEntry) (k : Scan) : Prop where
  entry : k.entry = e
  visited : k.visited = 0
  seen : k.seen = []
  candidate : ∀ y, s.booking e.booking = some y → k.candidate = y.claim (e.allowance y)

theorem Begun.congr {e : AdmissionEntry} {k : Scan} (h : Begun s e k) (bookings : t.bookings = s.bookings) :
    Begun t e k :=
  ⟨h.entry, h.visited, h.seen, fun y hy => h.candidate y (by rw [← State.booking_congr bookings]; exact hy)⟩

/-- The scan that stands when the entries `l`, the first of them not void, have been looked at. -/
def Starts (s : State) (l : List AdmissionEntry) (scan : Option Scan) : Prop :=
  match l with
  | [] => scan = s.scan
  | e :: _ => ∃ k, scan = some k ∧ Begun s e k

theorem Starts.congr {l : List AdmissionEntry} {k : Option Scan} (h : Starts s l k) (bookings : t.bookings = s.bookings)
    (scan : t.scan = s.scan) : Starts t l k := by
  cases l with
  | nil => exact h.trans scan.symm
  | cons e _ =>
    obtain ⟨k, rfl, begun⟩ := h
    exact ⟨k, rfl, begun.congr bookings⟩

theorem beginScan_begun (e : AdmissionEntry) (s : State) :
    ∃ k, s.beginScan e = { s with scan := some k } ∧ Begun s e k := by
  unfold State.beginScan
  split
  · next r hr => exact ⟨_, rfl, rfl, rfl, rfl, fun y hy => by rw [hr] at hy; cases hy; rfl⟩
  · next hr => exact ⟨_, rfl, rfl, rfl, rfl, fun y hy => by rw [hr] at hy; cases hy⟩

/-- The ADMISSION of a void entry (R36). -/
def voidRaise (b : BookingIx) : Raise :=
  { cls := .admission, items := { port := none, booking := some b, leg := none }, detail := some (.admission true 20 0 0) }

theorem completeVoid_eq (b : BookingIx) (s : State) :
    s.completeVoid b = { s with raised := s.raised ++ [voidRaise b] } := rfl

/-- Void entries at the head complete, and the first other one begins its scan. -/
theorem startWaiting_cases (l : List AdmissionEntry) (s : State) : ∃ (raised : List Raise) (scan : Option Scan),
    s.startWaiting l = { s with scan := scan, waiting := (l.dropWhile (·.void)).tail, raised := s.raised ++ raised } ∧
      Starts s (l.dropWhile (·.void)) scan := by
  induction l generalizing s with
  | nil => exact ⟨[], s.scan, by simp [State.startWaiting], rfl⟩
  | cons e l ih =>
    unfold State.startWaiting
    split
    · next h =>
      obtain ⟨raised, scan, e1, e2⟩ := ih (State.completeVoid e.booking { s with waiting := l })
      rw [List.dropWhile_cons_of_pos h]
      refine ⟨voidRaise e.booking :: raised, scan, ?_, e2.congr rfl rfl⟩
      rw [e1, completeVoid_eq]
      simp only [List.append_assoc, List.singleton_append]
    · next h =>
      obtain ⟨k, e1, e2⟩ := beginScan_begun e { s with waiting := l }
      rw [List.dropWhile_cons_of_neg h]
      exact ⟨[], some k, by rw [e1]; simp, k, rfl, e2.congr rfl⟩

/-! ## The scan in flight -/

/-- A scan settled, between the two states. -/
structure ScanSettled (s t : State) (sc : Scan) (v : Option Verdict) : Prop where
  rest : t = { s with bookings := t.bookings, scan := t.scan, waiting := t.waiting, raised := t.raised }
  raised : s.booking sc.entry.booking ≠ none ∨ sc.entry.void = true → ∃ a ∈ t.raised, a.cls = .admission
  others : ∀ i, i ≠ sc.entry.booking → t.booking i = s.booking i
  void : sc.entry.void = true → t.bookings = s.bookings
  record : ∀ x, sc.entry.void = false → s.booking sc.entry.booking = some x →
    t.booking sc.entry.booking = some (sc.entry.settledRecord x v)
  waiting : t.waiting = (s.waiting.dropWhile (·.void)).tail
  scan : match s.waiting.dropWhile (·.void) with
    | [] => t.scan = none
    | e :: _ => ∃ k, t.scan = some k ∧ Begun t e k

theorem completeScan_settled (sc : Scan) (s : State) : ScanSettled s (s.completeScan sc) sc
    ((sc.visitTo s.bookings 256).verdict fun p => (s.port p).bookable) := by
  generalize hv : (sc.visitTo s.bookings 256).verdict (fun p => (s.port p).bookable) = v
  let u := State.completeEntry sc.entry v { s with scan := none }
  have e : s.completeScan sc = u.startWaiting u.waiting := by subst hv; rfl
  have entry : EntrySettled s u sc.entry v := completeEntry_settled sc.entry v s
  obtain ⟨l, k, e1, e2⟩ := startWaiting_cases u.waiting u
  have waiting : u.waiting = s.waiting := by rw [entry.rest]
  have scan : u.scan = none := by rw [entry.rest]
  rw [waiting] at e1 e2
  rw [e, waiting, e1]
  refine ⟨?_, fun h => ?_, entry.others, entry.void, entry.record, rfl, ?_⟩
  · conv_lhs => rw [entry.rest]
  · obtain ⟨a, ha, hc⟩ := entry.raised h
    exact ⟨a, List.mem_append_left _ ha, hc⟩
  · cases hw : s.waiting.dropWhile (·.void) with
    | nil => rw [hw] at e2; exact e2.trans scan
    | cons x _ =>
      rw [hw] at e2
      obtain ⟨k, hk, begun⟩ := e2
      exact ⟨k, hk, begun.congr rfl⟩

theorem extendable_iff (x : Booking) : x.extendable = true ↔
    x.state ∈ [.confirmed, .armed, .live, .overrun] ∧ x.closeReq = none ∧ x.restartClose = false := by
  simp [Booking.extendable, Booking.carrying, and_assoc]

/-- Settles O55. -/
theorem admissionCompletes : Obligations.AdmissionCompletes := by
  refine fun m s => ⟨fun h => ?_, fun sc h => ?_⟩
  · have idle : s.advance m = s.beginEvent m.dt := by
      unfold State.advance
      simp [h]
    show execAdmissionCompletion m s = _
    simp [execAdmissionCompletion, h, idle]
  · intro v b
    have run : exec (.admissionCompletion m) s = .next (((s.beginEvent m.dt).completeScan sc).flush m) := by
      show execAdmissionCompletion m s = _
      simp [execAdmissionCompletion, h]
    have settled : ScanSettled (s.beginEvent m.dt) _ sc v := completeScan_settled sc (s.beginEvent m.dt)
    generalize (s.beginEvent m.dt).completeScan sc = u at run settled
    have scanned : KeepsSettings s u := by
      rw [settled.rest]
      exact ⟨rfl, fun _ => rfl, rfl, rfl, rfl, rfl, rfl, rfl, rfl, rfl, rfl, rfl⟩
    have keeps := scanned.trans (later_flush m u).calm.keepsSettings
    have flag : ∀ c : FaultClass, (∃ a ∈ u.raised, a.cls = c) → (u.flush m).flags[c.ix] = true := by
      rintro _ ⟨a, ha, rfl⟩; exact flush_flag m ha
    have rest := flush_rest m u
    generalize u.flush m = t at run rest flag keeps
    have bookings : t.bookings = u.bookings := by rw [rest]
    have scan : t.scan = u.scan := by rw [rest]
    have waiting : t.waiting = u.waiting := by rw [rest]
    have booking := fun i => State.booking_congr bookings (b := i)
    refine ⟨t, run, keeps, fun raises => flag _ (settled.raised raises),
      fun i hi => (booking i).trans (settled.others i hi), fun void => bookings.trans (settled.void void),
      fun x void book hx => ?_, fun x total clamped void extend hx => ?_, ?_⟩
    · have record := (booking b).trans (settled.record x void hx)
      rw [AdmissionEntry.settledRecord, book] at record
      exact record
    · have record := (booking b).trans (settled.record x void hx)
      rw [AdmissionEntry.settledRecord, extend] at record
      rw [record]
      by_cases open_ : x.extendable = true
      · exact congrArg some ((if_pos open_).trans (if_pos ((extendable_iff x).1 open_)).symm)
      · exact congrArg some ((if_neg open_).trans (if_neg fun k => open_ ((extendable_iff x).2 k)).symm)
    · have left := waiting.trans settled.waiting
      have next := settled.scan
      show match s.waiting.dropWhile (·.void) with
         | [] => t.scan = none ∧ t.waiting = []
         | e :: rest => t.waiting = rest ∧ ∃ k, t.scan = some k ∧ k.entry = e ∧ k.visited = 0 ∧ k.seen = [] ∧
             ∀ y, t.booking e.booking = some y → k.candidate = y.claim (e.allowance y)
      have same : (s.beginEvent m.dt).waiting = s.waiting := rfl
      rw [same] at left next
      cases hw : s.waiting.dropWhile (·.void) with
      | nil =>
        rw [hw] at left next
        exact ⟨scan.trans next, left⟩
      | cons e l =>
        rw [hw] at left next
        obtain ⟨k, hk, begun⟩ := next
        obtain ⟨entry, visited, seen, candidate⟩ := begun.congr bookings
        exact ⟨left, k, scan.trans hk, entry, visited, seen, candidate⟩

end Sys2Proof.Machine
end

section
/-! A second boundary in its parts (R7, section 1.4): the second that ended, the watch counters, the scheduler, the
completion of a restart. -/

namespace Sys2Proof.Machine
open Sys2Proof.Config

variable {s t u : State} {b c : BookingIx} {m : Moment}

/-! ## The second that has ended -/

/-- The state after time, ports and records have taken the second that ends, before the scheduler acts. -/
def State.secondEnded (m : Moment) (s : State) : State := (s.advance m).stepSecond.portsBoundary.classify s.sec

theorem secondEnded_rest (m : Moment) (s : State) : s.secondEnded m =
    { s with clock := s.clock + m.dt + (10000000000 - (s.sub + m.dt)), sec := s.nextSecond, sub := 0,
             bookings := (s.secondEnded m).bookings, scan := (s.secondEnded m).scan,
             ports := s.ports.map Port.boundary, raised := [] } := by
  unfold State.secondEnded
  rw [advance_eq]
  rfl

theorem classify_booking (n : Nat) (b : BookingIx) (s : State) : (s.classify n).booking b = (s.booking b).map fun r =>
    if r.takes n then r.takeSecond n (s.ports.map (·.upLast)) (s.tariff r.tariff) else r := by
  simp [State.booking, State.classify]

theorem secondEnded_booking (m : Moment) (b : BookingIx) (s : State) :
    (s.secondEnded m).booking b = (s.booking b).map (·.classified s) := by
  let v := (s.advance m).stepSecond.portsBoundary
  have up : v.ports.map (·.upLast) = s.ports.map (·.upWhole) := by
    refine Vector.ext fun i hi => ?_
    simp [v, State.portsBoundary, State.stepSecond, State.elapse, Port.boundary]
  have table : v.booking b = s.booking b := State.advance_booking ..
  have tariff : ∀ x, v.tariff x = s.tariff x := State.advance_tariff s m
  show (v.classify s.sec).booking b = _
  rw [classify_booking, up, table]
  simp only [tariff]
  rfl

/-- A record that runs no second is what it was. -/
theorem classified_of_state {x : Booking} (h : x.state ≠ .live) (h' : x.state ≠ .overrun) (s : State) :
    x.classified s = x := by
  have : x.takes s.sec = false := by simp [Booking.takes, Booking.forwarding, h, h']
  simp [Booking.classified, this]

/-! ## The watch counters at a boundary -/

/-- What the counters may touch: the carrying records and themselves. -/
def Reach.watching : Reach := ⟨fun _ x => x ∈ [.armed, .live, .overrun], fun _ => False, True⟩

/-- The same without actions: the counters alone. -/
def Reach.counting : Reach := ⟨fun _ _ => False, fun _ => False, True⟩

theorem watching_watches : Reach.watching.Watches := by
  refine ⟨fun _ r h => ?_, trivial⟩
  simpa [Booking.carrying, Reach.watching] using h

theorem Work.mono {R R' : Reach} (h : Work R s t) (record : ∀ b x, R.record b x → R'.record b x)
    (media : ∀ p, R.media p → R'.media p) (counters : R.counters → R'.counters) : Work R' s t := by
  refine h.chain (P := Work R') .refl .trans fun k => .of ?_
  cases k with
  | record h reach bare state => exact .record h (record _ _ reach) bare state
  | counters reach v f => exact .counters (counters reach) v f
  | raise h it d => exact .raise h it d
  | probe h p => exact .probe h p
  | media reach same ok => exact .media (media _ reach) same ok

theorem Work.flags {R : Reach} (h : Work R s t) : t.flags = s.flags := by
  refine h.chain (P := fun s t => t.flags = s.flags) (fun _ => rfl) (fun h k => k.trans h) fun {s t} k => ?_
  cases k with
  | probe _ p => rw [probeRequest_rest]
  | record => rfl
  | counters => rfl
  | raise => rfl
  | media => rfl

theorem Work.watching (h : Work .counting s t) : Work .watching s t := h.mono (fun _ _ => False.elim) (fun _ => id) id

/-- Counting without actions, and none set by it. -/
def Counted (s t : State) : Prop := Work .counting s t ∧ t.NoActions

theorem Counted.after (k : t.NoActions → Counted t u) (h : Counted s t) : Counted s u :=
  ⟨h.1.trans (k h.2).1, (k h.2).2⟩

theorem State.NoActions.congr (h : s.NoActions) (e : t.counters = s.counters) : t.NoActions := fun i => by
  have := h i
  rwa [State.counter, ← e] at this

theorem noActions_setCounter (h : s.NoActions) (i : CounterIx) {x : Counter} (hx : x.action = .none) :
    (s.setCounter i x).NoActions := fun j => by
  by_cases e : j = i
  · subst e; simpa [State.setCounter, State.counter] using hx
  · have e' : i.val ≠ j.val := fun k => e (Fin.ext k.symm)
    simpa [State.setCounter, State.counter, e'] using h j

theorem counted_setCounter (h : s.NoActions) (i : CounterIx) {x : Counter} (hx : x.action = .none) :
    Counted s (s.setCounter i x) := ⟨work_setCounter trivial i x s, noActions_setCounter h i hx⟩

theorem noActions_freezeGroup (h : s.NoActions) : s.freezeGroup.NoActions := fun i => by
  have k := h i
  simp only [State.counter, State.freezeGroup, Fin.getElem_fin, Vector.getElem_map] at k ⊢
  split <;> simpa using k

theorem counted_addValue (h : s.NoActions) (m : Moment) (i : CounterIx) (w : Nat) : Counted s (s.addValue m i w) := by
  have none_ := h i
  dsimp only [State.addValue]
  split
  · have work := work_overflow (R := .counting) trivial i ((s.counter i).value + w - wrap32) s
    have set := noActions_setCounter h i (x := { s.counter i with value := (s.counter i).value + w - wrap32,
                                                                  overflow := true }) none_
    unfold State.overflowAt
    dsimp only
    have quiet : ∀ t : State, t.runAction m (s.counter i) = t := fun t => by
      unfold State.runAction
      rw [none_]
    rw [quiet]
    refine ⟨work, ?_⟩
    split
    · refine noActions_freezeGroup ?_
      split
      · exact set
      · exact set
    · split
      · exact set
      · exact set
  · exact counted_setCounter h i none_

theorem counted_foldl {α : Type} {f : State → α → State} (h : ∀ s x, s.NoActions → Counted s (f s x)) (l : List α)
    (hs : s.NoActions) : Counted s (l.foldl f s) := by
  induction l generalizing s with
  | nil => exact ⟨.refl s, hs⟩
  | cons x l ih => exact (h s x hs).after fun k => ih k

theorem evaluate_action (c : Counter) (total : Nat) : (c.evaluate total).2.action = c.action := by
  unfold Counter.evaluate; split <;> rfl

theorem counted_boundaryCount (h : s.NoActions) (m : Moment) (o : List BookingIx) (l : List (BookingIx × Booking))
    (i : CounterIx) : Counted s (s.boundaryCount m o l i) := by
  dsimp only [State.boundaryCount]
  split
  · exact ⟨.refl s, h⟩
  · split
    · split
      · refine counted_foldl (fun s _ h => ?_) _ h
        split
        · exact ⟨.refl s, h⟩
        · exact counted_addValue h ..
      · exact counted_addValue h ..
      · exact ⟨.refl s, h⟩
    · exact (counted_setCounter h i ((evaluate_action ..).trans (h i))).after fun k => counted_addValue k ..

/-- Without actions the counters of a boundary touch themselves alone. -/
theorem counted_watchBoundary (h : s.NoActions) (m : Moment) (o : List BookingIx) (l : List (BookingIx × Booking)) :
    Counted s (s.watchBoundary m o l) :=
  counted_foldl (fun _ i h => counted_boundaryCount h m o l i) _ h

/-- Counters in their power-on state take nothing at a boundary. -/
theorem watchBoundary_initial (h : ∀ i : CounterIx, s.counter i = .initial) (m : Moment) (o : List BookingIx)
    (l : List (BookingIx × Booking)) : s.watchBoundary m o l = s := by
  have one : ∀ i, s.boundaryCount m o l i = s := fun i => by
    dsimp only [State.boundaryCount]
    rw [h i]
    split <;> rfl
  unfold State.watchBoundary
  generalize counterOrder m = order
  induction order with
  | nil => rfl
  | cons i order ih => rw [List.foldl_cons, one, ih]

/-! ## The boundary -/

/-- The state behind the scheduler and the restart. -/
def State.scheduled (m : Moment) (s : State) : State := (s.schedule m).tryFinishRestart m

/-- The boundary by whether the counters are evaluated before the scheduler. -/
theorem secondBoundary_eq (m : Moment) (s : State) : ∃ o l, exec (.secondBoundary m) s = .next (State.flush m
    (if m.watchFirst then ((s.secondEnded m).watchBoundary m o l).scheduled m
      else ((s.secondEnded m).scheduled m).watchBoundary m o l)) := by
  refine ⟨(s.advance m).stepSecond.portsBoundary.outagesOf m s.sec, (s.advance m).stepSecond.portsBoundary.livedOf m s.sec,
    congrArg (fun t => Host.Outcome.next (State.flush m t)) ?_⟩
  dsimp only [State.boundary, State.secondEnded, State.scheduled]
  rw [State.advance_sec]
  cases m.watchFirst <;> rfl

/-- A boundary is the second ended, then the scheduler, with the work of the watch counters before it or behind it. -/
theorem secondBoundary_parts (m : Moment) (s : State) : ∃ v w, Work .watching (s.secondEnded m) v ∧
    Work .watching (v.scheduled m) w ∧ ((∀ i : CounterIx, (v.scheduled m).counter i = .initial) → w = v.scheduled m) ∧
    exec (.secondBoundary m) s = .next (w.flush m) := by
  obtain ⟨o, l, e⟩ := secondBoundary_eq m s
  cases h : m.watchFirst with
  | true =>
    rw [h] at e
    exact ⟨_, _, work_watchBoundary watching_watches m o l _, .refl _, fun _ => rfl, e⟩
  | false =>
    rw [h] at e
    exact ⟨_, _, .refl _, work_watchBoundary watching_watches m o l _, fun k => watchBoundary_initial k m o l, e⟩

/-! ## What the scheduler keeps -/

/-- What the scheduler leaves alone, whichever records it takes: bills and raises are only added, and during a restart no
MISSED is raised and no probe begins. -/
structure SchedulerKeeps (s t : State) : Prop where
  calm : Calm s t
  counters : t.counters = s.counters
  lastResults : t.lastResults = s.lastResults
  media : ∀ p, SameMedia (s.port p) (t.port p)
  probes : s.restart = true → t.flight = s.flight ∧ t.probeWaiting = s.probeWaiting
  bills : s.bills <+: t.bills
  billWaiting : s.billWaiting <+: t.billWaiting
  raised : ∃ l, t.raised = s.raised ++ l ∧ (s.restart = true → ∀ x ∈ l, x.cls ≠ .missed)
  flags : t.flags = s.flags

theorem SchedulerKeeps.refl (s : State) : SchedulerKeeps s s :=
  ⟨.refl s, rfl, rfl, fun _ => ⟨rfl, rfl⟩, fun _ => ⟨rfl, rfl⟩, List.prefix_refl _, List.prefix_refl _,
    ⟨[], by simp⟩, rfl⟩

theorem SchedulerKeeps.trans (h : SchedulerKeeps s t) (k : SchedulerKeeps t u) : SchedulerKeeps s u where
  calm := h.calm.trans k.calm
  counters := k.counters.trans h.counters
  lastResults := k.lastResults.trans h.lastResults
  media p := ⟨(k.media p).1.trans (h.media p).1, (k.media p).2.trans (h.media p).2⟩
  probes r := by
    obtain ⟨h1, h2⟩ := h.probes r
    obtain ⟨k1, k2⟩ := k.probes (h.calm.restart.trans r)
    exact ⟨k1.trans h1, k2.trans h2⟩
  bills := h.bills.trans k.bills
  billWaiting := h.billWaiting.trans k.billWaiting
  raised := by
    obtain ⟨l, e, hl⟩ := h.raised
    obtain ⟨l', e', hl'⟩ := k.raised
    refine ⟨l ++ l', by rw [e', e, List.append_assoc], fun r x hx => ?_⟩
    exact (List.mem_append.1 hx).elim (hl r x) (hl' (h.calm.restart.trans r) x)
  flags := k.flags.trans h.flags

/-- The records, the flow table and the deferred list apart, nothing but added raises. -/
theorem SchedulerKeeps.of_raised {l : List Raise}
    (rest : t = { s with bookings := t.bookings, flows := t.flows, deferred := t.deferred, raised := s.raised ++ l })
    (classes : s.restart = true → ∀ x ∈ l, x.cls ≠ .missed) : SchedulerKeeps s t := by
  have raised : t.raised = s.raised ++ l := by have := congrArg State.raised rest; exact this
  refine ⟨?_, ?_, ?_, fun p => ?_, fun _ => ?_, ?_, ?_, ⟨l, raised, classes⟩, ?_⟩
  · rw [rest]; rfl
  all_goals rw [rest]
  · exact ⟨rfl, rfl⟩
  · exact ⟨rfl, rfl⟩

theorem ofWork_ne_missed {x : FaultClass} (h : x.ofWork) : x ≠ .missed := by rintro rfl; simp [FaultClass.ofWork] at h

theorem schedulerKeeps_judge (m : Moment) (b : BookingIx) (s : State) : SchedulerKeeps s (s.judge m b []) := by
  have work := work_judged m b [] s
  obtain ⟨l, e, hl⟩ := work.raised
  refine ⟨work.calm, work.counters id, work.lastResults, fun p => work.sameMedia id, work.probes, ?_, ?_,
    ⟨l, e, fun _ x hx => ofWork_ne_missed (hl x hx)⟩, work.flags⟩
  · rw [work.bills]
  · rw [work.billWaiting]

theorem schedulerKeeps_settleBooking (b : BookingIx) (s : State) : SchedulerKeeps s (s.settleBooking b) := by
  obtain ⟨l, e, hl⟩ := settleBooking_raised b s
  have rest := settleBooking_rest b s
  have grown : s.bills <+: (s.settleBooking b).bills ∧ s.billWaiting <+: (s.settleBooking b).billWaiting := by
    unfold State.settleBooking
    split
    · exact ⟨List.prefix_refl _, List.prefix_refl _⟩
    · split
      · unfold State.billNow
        split
        · exact ⟨List.prefix_refl _, List.prefix_refl _⟩
        · dsimp only
          split
          · rw [closeBooking_rest]; exact ⟨List.prefix_append .., List.prefix_refl _⟩
          · exact ⟨List.prefix_refl _, List.prefix_append ..⟩
      · exact ⟨List.prefix_refl _, List.prefix_refl _⟩
  refine ⟨(later_settleBooking b s).calm, ?_, ?_, fun p => ?_, fun _ => ?_, grown.1, grown.2,
    ⟨l, e, fun _ x hx => by rw [hl x hx]; simp⟩, ?_⟩
  all_goals rw [rest]
  · exact ⟨rfl, rfl⟩
  · exact ⟨rfl, rfl⟩

theorem schedulerKeeps_closeRecord (b : BookingIx) (r : Booking) (cut : CutReason) (s : State) :
    SchedulerKeeps s (s.closeRecord b r cut) := by
  refine SchedulerKeeps.trans (t := (s.removeFlows b).setBooking b (some (r.atClosing cut s.sec))) ?_
    (schedulerKeeps_settleBooking ..)
  refine .of_raised (l := []) ?_ (by simp)
  rw [removeFlows_rest]
  simp only [List.append_nil]
  rfl

theorem schedulerKeeps_scheduleOne (m : Moment) (b : BookingIx) (s : State) : SchedulerKeeps s (s.scheduleOne m b) := by
  have one : ∀ (x : Raise) (t : State), t = { s with bookings := t.bookings, raised := s.raised ++ [x] } →
      (s.restart = true → x.cls ≠ .missed) → SchedulerKeeps s t := fun x t rest h =>
    .of_raised (l := [x]) (rest.trans (by rw [rest])) fun k y hy => by rw [List.mem_singleton.1 hy]; exact h k
  unfold State.scheduleOne
  split
  · exact .refl s
  · next r _ =>
    have missed : r.transition s.sec s.idleClose s.restart = .expire → s.restart = false := fun h => by
      have from_ := transition_from r s.sec s.idleClose s.restart
      rw [h] at from_
      have state : r.state = .confirmed := from_
      by_contra k
      rw [Bool.not_eq_false] at k
      simp [Booking.transition, state, Booking.confirmedStep, k] at h
    cases hx : r.transition s.sec s.idleClose s.restart with
    | stay => exact .refl s
    | expire => exact one _ _ rfl fun k => by rw [missed hx] at k; cases k
    | arm =>
      refine .of_raised (l := []) ?_ (by simp)
      dsimp only [State.applyTransition, State.armBooking]
      rw [installLegs_rest]
      simp only [List.append_nil]
      rfl
    | goLive =>
      have written : SchedulerKeeps s (s.setBooking b (some (r.atLive s.sec))) :=
        .of_raised (l := []) (by simp only [List.append_nil]; rfl) (by simp)
      exact written.trans (schedulerKeeps_judge m b _)
    | overrun => exact one _ _ rfl fun _ => by simp
    | close cut =>
      dsimp only [State.applyTransition]
      refine SchedulerKeeps.trans ?_ (schedulerKeeps_closeRecord ..)
      split
      · exact one _ _ rfl fun _ => by simp
      · exact .refl s

theorem schedulerKeeps_foldl (m : Moment) (l : List BookingIx) (s : State) :
    SchedulerKeeps s (l.foldl (fun s b => s.scheduleOne m b) s) := by
  induction l generalizing s with
  | nil => exact .refl s
  | cons b l ih => exact (schedulerKeeps_scheduleOne m b s).trans (ih _)

theorem schedulerKeeps_schedule (m : Moment) (s : State) : SchedulerKeeps s (s.schedule m) := schedulerKeeps_foldl m _ s

theorem noActions_scheduled (h : s.NoActions) (m : Moment) : (s.scheduled m).NoActions := by
  unfold State.scheduled State.tryFinishRestart
  split
  · intro i
    simp [State.counter, State.finishRestart, Counter.initial]
  · exact h.congr (schedulerKeeps_schedule m s).counters

/-- The same without actions. -/
theorem secondBoundary_counted (h : s.NoActions) (m : Moment) : ∃ v w, Work .counting (s.secondEnded m) v ∧
    Work .counting (v.scheduled m) w ∧ ((∀ i : CounterIx, (v.scheduled m).counter i = .initial) → w = v.scheduled m) ∧
    exec (.secondBoundary m) s = .next (w.flush m) := by
  have begun : (s.secondEnded m).NoActions := h.congr (by rw [secondEnded_rest])
  obtain ⟨o, l, e⟩ := secondBoundary_eq m s
  cases k : m.watchFirst with
  | true =>
    rw [k] at e
    exact ⟨_, _, (counted_watchBoundary begun m o l).1, .refl _, fun _ => rfl, e⟩
  | false =>
    rw [k] at e
    exact ⟨_, _, .refl _, (counted_watchBoundary (noActions_scheduled begun m) m o l).1,
      fun k => watchBoundary_initial k m o l, e⟩

/-! ## Time and ports (O42) -/

/-- What the scheduler, the completion of a restart, the counters and the fault unit leave alone. -/
structure Onward (s t : State) : Prop where
  keeps : KeepsSettings s t
  sec : t.sec = s.sec
  clock : t.clock = s.clock
  sub : t.sub = s.sub
  face : ∀ p, (t.port p).face = (s.port p).face
  media : ∀ p, SameMedia (s.port p) (t.port p)

theorem Onward.trans (h : Onward s t) (k : Onward t u) : Onward s u :=
  ⟨h.keeps.trans k.keeps, k.sec.trans h.sec, k.clock.trans h.clock, k.sub.trans h.sub,
    fun p => (k.face p).trans (h.face p), fun p => ⟨(k.media p).1.trans (h.media p).1, (k.media p).2.trans (h.media p).2⟩⟩

theorem Calm.onward (h : Calm s t) (media : ∀ p, SameMedia (s.port p) (t.port p)) : Onward s t :=
  ⟨h.keepsSettings, h.sec, h.clock, h.sub, h.face, media⟩

theorem Work.onward (h : Work .watching s t) : Onward s t := h.calm.onward fun _ => h.sameMedia id

theorem onward_flush (m : Moment) (s : State) : Onward s (s.flush m) := by
  have k := onlyAnswers_takeRaises (s.raiseOrder m) s
  refine (later_flush m s).calm.onward fun p => ?_
  have e : ({ (s.flush m).port p with control := (s.port p).control } : Port) = s.port p := k.ports p
  rw [← e]
  exact ⟨rfl, rfl⟩

theorem onward_scheduled (m : Moment) (s : State) : Onward s (s.scheduled m) := by
  have k := schedulerKeeps_schedule m s
  have scheduled := k.calm.onward k.media
  unfold State.scheduled State.tryFinishRestart
  split
  · have finished : Onward ((s.schedule m).flush m) ((s.schedule m).flush m).finishRestart :=
      ⟨⟨rfl, fun _ => rfl, rfl, rfl, rfl, rfl, rfl, rfl, rfl, rfl, rfl, rfl⟩, rfl, rfl, rfl, fun _ => rfl,
        fun _ => ⟨rfl, rfl⟩⟩
    exact (scheduled.trans (onward_flush ..)).trans finished
  · exact scheduled

/-- Settles O42. -/
theorem boundaryStepsTimeAndPorts : Obligations.BoundaryStepsTimeAndPorts := by
  intro m s
  obtain ⟨v, w, before, after, -, run⟩ := secondBoundary_parts m s
  have onward := ((before.onward.trans (onward_scheduled m v)).trans after.onward).trans (onward_flush m w)
  have rest := secondEnded_rest m s
  have port : ∀ p, (s.secondEnded m).port p = (s.port p).boundary := fun p => by
    rw [rest]; simp [State.port]
  have begun : KeepsSettings s (s.secondEnded m) := by
    refine ⟨?_, fun p => ?_, ?_, ?_, ?_, ?_, ?_, ?_, ?_, ?_, ?_, ?_⟩
    on_goal 2 => rw [port]; rfl
    all_goals rw [rest]
  generalize w.flush m = t at run onward
  refine ⟨t, run, begun.trans onward.keeps, ?_, ?_, fun h => ?_, fun p => ?_⟩
  · rw [onward.sec, rest]; rfl
  · rw [State.milli, onward.sub, rest]; simp
  · rw [onward.clock, rest]; show s.clock + m.dt + (10000000000 - (s.sub + m.dt)) = _; omega
  · have face := onward.face p
    have media := onward.media p
    rw [port] at face media
    have badChecks : (t.port p).badChecks = 0 := by have e := congrArg Port.badChecks face; exact e
    have upLast : (t.port p).upLast = (s.port p).upWhole := by have e := congrArg Port.upLast face; exact e
    have link : (t.port p).link = (s.port p).boundary.link := by have e := congrArg Port.link face; exact e
    have upWhole : (t.port p).upWhole = decide ((s.port p).boundary.link = .up) := by
      have e := congrArg Port.upWhole face; exact e
    exact ⟨badChecks, upLast, link, by rw [upWhole, link], media⟩

end Sys2Proof.Machine
end

section
/-! The flow table at a boundary (R60, R61), and what the scheduler's work on one record leaves of another. -/

namespace Sys2Proof.Machine
open Sys2Proof.Config

variable {s t u : State} {b c : BookingIx} {l k : LegId}

/-! ## Entries and deferred legs -/

/-- The key of a leg stands in the table for it with a full policer, or the leg is deferred and its key held (R60). -/
def State.CoversLeg (s : State) (b : BookingIx) (l : LegId) (p : PortIx) (label rate : Nat) : Prop :=
  (∃ e ∈ s.flows, e.port = p ∧ e.label = label ∧ e.booking = b ∧ e.leg = l ∧ e.rate = rate ∧ e.tokens = rate * 100000) ∨
    ((b, l) ∈ s.deferred ∧ s.flowOf p label ≠ none)

/-- No entry and no deferred leg is the booking's. -/
def State.FreeOf (s : State) (b : BookingIx) : Prop := (∀ e ∈ s.flows, e.booking ≠ b) ∧ ∀ x ∈ s.deferred, x.1 ≠ b

theorem State.FreeOf.congr (h : s.FreeOf b) (flows : t.flows = s.flows) (deferred : t.deferred = s.deferred) :
    t.FreeOf b := by
  rw [State.FreeOf, flows, deferred]; exact h

/-- Entries and deferred legs are only added. -/
structure Installs (s t : State) : Prop where
  bookings : t.bookings = s.bookings
  flows : s.flows <+: t.flows
  deferred : s.deferred <+: t.deferred

theorem Installs.refl (s : State) : Installs s s := ⟨rfl, List.prefix_refl _, List.prefix_refl _⟩

theorem Installs.trans (h : Installs s t) (k : Installs t u) : Installs s u :=
  ⟨k.bookings.trans h.bookings, h.flows.trans k.flows, h.deferred.trans k.deferred⟩

theorem flowOf_mono (h : s.flows <+: t.flows) {p : PortIx} {label : Nat} (held : s.flowOf p label ≠ none) :
    t.flowOf p label ≠ none := by
  rw [State.flowOf, ← Option.isSome_iff_ne_none, List.find?_isSome] at held ⊢
  obtain ⟨e, he, key⟩ := held
  exact ⟨e, h.subset he, key⟩

theorem State.CoversLeg.mono {p : PortIx} {label rate : Nat} (h : s.CoversLeg b l p label rate)
    (flows : s.flows <+: t.flows) (deferred : s.deferred <+: t.deferred) : t.CoversLeg b l p label rate := by
  rcases h with ⟨e, he, key⟩ | ⟨hd, held⟩
  · exact .inl ⟨e, flows.subset he, key⟩
  · exact .inr ⟨deferred.subset hd, flowOf_mono flows held⟩

theorem State.CoversLeg.congr {p : PortIx} {label rate : Nat} (h : s.CoversLeg b l p label rate)
    (flows : t.flows = s.flows) (deferred : t.deferred = s.deferred) : t.CoversLeg b l p label rate :=
  h.mono (by rw [flows]) (by rw [deferred])

/-! ## Installing (R60) -/

theorem installLeg_installs (c : BookingIx) (k : LegId) (s : State) : Installs s (s.installLeg c k) := by
  unfold State.installLeg
  split
  · exact .refl s
  · split
    · exact .refl s
    · split
      · exact ⟨rfl, List.prefix_refl _, List.prefix_append ..⟩
      · exact ⟨rfl, List.prefix_append .., List.prefix_refl _⟩

theorem installLeg_freeOf (h : s.FreeOf b) (e : c ≠ b) (k : LegId) : (s.installLeg c k).FreeOf b := by
  obtain ⟨flows, deferred⟩ := h
  unfold State.installLeg
  split
  · exact ⟨flows, deferred⟩
  · split
    · exact ⟨flows, deferred⟩
    · split
      · refine ⟨flows, fun x hx => ?_⟩
        rcases List.mem_append.1 hx with hx | hx
        · exact deferred x hx
        · rw [List.mem_singleton.1 hx]; exact e
      · refine ⟨fun x hx => ?_, deferred⟩
        rcases List.mem_append.1 hx with hx | hx
        · exact flows x hx
        · rw [List.mem_singleton.1 hx]; exact e

/-- A leg installed is covered. -/
theorem installLeg_covers {y : Booking} {lg : Leg} (hy : s.booking b = some y) (hl : y.leg l = some lg) :
    (s.installLeg b l).CoversLeg b l lg.port lg.label y.rate := by
  unfold State.installLeg
  simp only [hy, hl]
  split
  · next held => exact .inr ⟨by simp, Option.isSome_iff_ne_none.1 held⟩
  · exact .inl ⟨.install b l lg y.rate s.clock, by simp, rfl, rfl, rfl, rfl, rfl, rfl⟩

theorem installLegs_installs (c : BookingIx) (s : State) : Installs s (s.installLegs c) :=
  (installLeg_installs c .main s).trans (installLeg_installs c .backup _)

theorem installLegs_freeOf (h : s.FreeOf b) (e : c ≠ b) : (s.installLegs c).FreeOf b :=
  installLeg_freeOf (installLeg_freeOf h e .main) e .backup

/-- The legs of an arming booking are covered. -/
theorem installLegs_covers {y : Booking} {lg : Leg} (hy : s.booking b = some y) (hl : y.leg l = some lg) :
    (s.installLegs b).CoversLeg b l lg.port lg.label y.rate := by
  have first := installLeg_installs b .main s
  have second := installLeg_installs b .backup (s.installLeg b .main)
  cases l with
  | main => exact (installLeg_covers hy hl).mono second.flows second.deferred
  | backup => exact installLeg_covers ((State.booking_congr first.bookings b).trans hy) hl

theorem foldl_installLeg_installs (l : List (BookingIx × LegId)) (s : State) :
    Installs s (l.foldl (fun s x => s.installLeg x.1 x.2) s) := by
  induction l generalizing s with
  | nil => exact .refl s
  | cons x l ih => exact (installLeg_installs x.1 x.2 s).trans (ih _)

/-- Every deferred leg taken up again is covered. -/
theorem foldl_installLeg_covers {list : List (BookingIx × LegId)} {y : Booking} {lg : Leg} (h : (b, l) ∈ list)
    (hy : s.booking b = some y) (hl : y.leg l = some lg) :
    (list.foldl (fun s x => s.installLeg x.1 x.2) s).CoversLeg b l lg.port lg.label y.rate := by
  induction list generalizing s with
  | nil => cases h
  | cons x list ih =>
    rcases List.mem_cons.1 h with rfl | h
    · have rest := foldl_installLeg_installs list (s.installLeg b l)
      exact (installLeg_covers hy hl).mono rest.flows rest.deferred
    · exact ih h ((State.booking_congr (installLeg_installs x.1 x.2 s).bookings b).trans hy)

theorem foldl_installLeg_freeOf {list : List (BookingIx × LegId)} (h : s.FreeOf b) (others : ∀ x ∈ list, x.1 ≠ b) :
    (list.foldl (fun s x => s.installLeg x.1 x.2) s).FreeOf b := by
  induction list generalizing s with
  | nil => exact h
  | cons x list ih =>
    simp only [List.mem_cons, forall_eq_or_imp] at others
    exact ih (installLeg_freeOf h others.1 x.2) others.2

/-! ## Removing (R61) -/

/-- A closing booking leaves nothing of its own. -/
theorem removeFlows_freeOf (b : BookingIx) (s : State) : (s.removeFlows b).FreeOf b := by
  refine foldl_installLeg_freeOf ⟨fun e he => ?_, fun x hx => by cases hx⟩ fun x hx => ?_
  · exact of_decide_eq_true (List.mem_filter.1 he).2
  · exact of_decide_eq_true (List.mem_filter.1 hx).2

/-- Another booking gets nothing by it … -/
theorem removeFlows_freeOf_other (h : s.FreeOf b) (c : BookingIx) : (s.removeFlows c).FreeOf b := by
  refine foldl_installLeg_freeOf ⟨fun e he => ?_, fun x hx => by cases hx⟩ fun x hx => ?_
  · exact h.1 e (List.mem_filter.1 he).1
  · exact h.2 x (List.mem_filter.1 hx).1

/-- … and keeps the cover of its legs. -/
theorem removeFlows_covers {y : Booking} {lg : Leg} (e : b ≠ c) (hy : s.booking b = some y) (hl : y.leg l = some lg)
    (h : s.CoversLeg b l lg.port lg.label y.rate) : (s.removeFlows c).CoversLeg b l lg.port lg.label y.rate := by
  rcases h with ⟨x, hx, port, label, booking, rest⟩ | ⟨hd, -⟩
  · have kept : x ∈ s.flows.filter fun e => decide (e.booking ≠ c) := by
      simp [hx, booking, e]
    exact .inl ⟨x, (foldl_installLeg_installs _ _).flows.subset kept, port, label, booking, rest⟩
  · exact foldl_installLeg_covers (List.mem_filter.2 ⟨hd, decide_eq_true e⟩) hy hl

/-! ## One record taken, seen from another -/

/-- What the scheduler's work on other records leaves of record `b`: the record, whether its bill waits, and its place in
the flow table. -/
structure Elsewhere (b : BookingIx) (s t : State) : Prop where
  booking : t.booking b = s.booking b
  billWaits : t.billWaits b = s.billWaits b
  free : s.FreeOf b → t.FreeOf b
  covers : ∀ y l lg, s.booking b = some y → y.leg l = some lg → s.CoversLeg b l lg.port lg.label y.rate →
    t.CoversLeg b l lg.port lg.label y.rate

theorem Elsewhere.refl (s : State) : Elsewhere b s s := ⟨rfl, rfl, id, fun _ _ _ _ _ => id⟩

theorem Elsewhere.trans (h : Elsewhere b s t) (k : Elsewhere b t u) : Elsewhere b s u :=
  ⟨k.booking.trans h.booking, k.billWaits.trans h.billWaits, fun e => k.free (h.free e),
    fun y l lg hy hl e => k.covers y l lg (h.booking.trans hy) hl (h.covers y l lg hy hl e)⟩

/-- The record, the bill-waiting list and the flow table the same. -/
theorem Elsewhere.of_eq (booking : t.booking b = s.booking b) (waits : t.billWaiting = s.billWaiting)
    (flows : t.flows = s.flows) (deferred : t.deferred = s.deferred) : Elsewhere b s t :=
  ⟨booking, by rw [State.billWaits, waits]; rfl, fun h => h.congr flows deferred,
    fun _ _ _ _ _ h => h.congr flows deferred⟩

theorem settleBooking_billWaits (e : c ≠ b) (s : State) : (s.settleBooking c).billWaits b = s.billWaits b := by
  unfold State.settleBooking
  split
  · rfl
  · split
    · unfold State.billNow
      split
      · rfl
      · dsimp only
        split
        · rw [closeBooking_rest]; rfl
        · show List.any (s.billWaiting ++ [_]) _ = _
          rw [List.any_append]
          simp [State.billWaits, billOf, e]
    · rfl

theorem elsewhere_closeRecord (e : b ≠ c) (r : Booking) (cut : CutReason) (s : State) :
    Elsewhere b s (s.closeRecord c r cut) := by
  have removed : Elsewhere b s ((s.removeFlows c).setBooking c (some (r.atClosing cut s.sec))) := by
    refine ⟨?_, ?_, fun h => removeFlows_freeOf_other h c, fun y l lg hy hl h => removeFlows_covers e hy hl h⟩
    · rw [State.setBooking_booking, if_neg e, removeFlows_booking]
    · rw [removeFlows_rest]; rfl
  refine removed.trans ?_
  unfold State.closeRecord
  generalize (s.removeFlows c).setBooking c (some (r.atClosing cut s.sec)) = v
  have rest := settleBooking_rest c v
  have flows : (v.settleBooking c).flows = v.flows := by rw [rest]
  have deferred : (v.settleBooking c).deferred = v.deferred := by rw [rest]
  exact ⟨settleBooking_other e v, settleBooking_billWaits e.symm v, fun h => h.congr flows deferred,
    fun _ _ _ _ _ h => h.congr flows deferred⟩

theorem elsewhere_scheduleOne (m : Moment) (e : b ≠ c) (s : State) : Elsewhere b s (s.scheduleOne m c) := by
  unfold State.scheduleOne
  split
  · exact .refl s
  · next r _ =>
    have table := fun x => applyTransition_other m e r x s
    cases r.transition s.sec s.idleClose s.restart with
    | stay => exact .refl s
    | expire => exact .of_eq (table .expire) rfl rfl rfl
    | overrun => exact .of_eq (table .overrun) rfl rfl rfl
    | arm =>
      have k := installLegs_installs c (s.setBooking c (some { r.armLegs s.clock s.identTimeout with state := .armed }))
      refine ⟨table .arm, ?_, fun h => installLegs_freeOf h e.symm, fun y l lg hy hl h => h.mono k.flows k.deferred⟩
      dsimp only [State.applyTransition, State.armBooking]
      rw [installLegs_rest]; rfl
    | goLive =>
      have work := work_judged m c [] (s.setBooking c (some (r.atLive s.sec)))
      have deferred := congrArg State.deferred work.later.still
      exact .of_eq (table .goLive) work.billWaiting work.flows deferred
    | close cut =>
      dsimp only [State.applyTransition]
      refine Elsewhere.trans ?_ (elsewhere_closeRecord e ..)
      split
      · exact .of_eq rfl rfl rfl rfl
      · exact .refl s

theorem elsewhere_foldl (m : Moment) {l : List BookingIx} (h : b ∉ l) (s : State) :
    Elsewhere b s (l.foldl (fun s c => s.scheduleOne m c) s) := by
  induction l generalizing s with
  | nil => exact .refl s
  | cons c l ih =>
    simp only [List.mem_cons, not_or] at h
    exact (elsewhere_scheduleOne m h.1 s).trans (ih h.2 _)

/-- The scheduler, for record `b`: others before it, the record itself, others behind it. -/
theorem schedule_around (m : Moment) (b : BookingIx) (s : State) : ∃ v w, Elsewhere b s v ∧ SchedulerKeeps s v ∧
    w = v.scheduleOne m b ∧ Elsewhere b w (s.schedule m) ∧ SchedulerKeeps w (s.schedule m) := by
  obtain ⟨before, after, e, h1, h2⟩ := schedule_at m b s
  exact ⟨_, _, elsewhere_foldl m h1 s, schedulerKeeps_foldl m before s, rfl, e ▸ elsewhere_foldl m h2 _,
    e ▸ schedulerKeeps_foldl m after _⟩

end Sys2Proof.Machine
end

section
/-! What a boundary makes of one record (R12 to R17, R24). -/

namespace Sys2Proof.Machine
open Sys2Proof.Config

variable {s t u v w : State} {b : BookingIx} {m : Moment}

/-! ## Flags that no raise of the event sets -/

theorem recordRaise_flag_other {i : Fin 14} {c : FaultClass} (h : c.ix ≠ i) (it : RaiseItems) (s : State) :
    (s.recordRaise c it).flags[i] = s.flags[i] :=
  Vector.getElem_set_ne c.ix.isLt i.isLt fun k => h (Fin.ext k)

theorem offerControl_flag_other {i : Fin 14} (h : FaultClass.controlDrop.ix ≠ i) (p : PortIx) (payload : List Byte)
    (s : State) : (s.offerControl p payload).flags[i] = s.flags[i] := by
  unfold State.offerControl
  split
  · rfl
  · have e := (raiseControlDrop_spec p s).2.1
    simp only [e]
    exact Vector.getElem_set_ne FaultClass.controlDrop.ix.isLt i.isLt fun k => h (Fin.ext k)

theorem takeRaise_flag_other {i : Fin 14} {x : Raise} (h : x.cls.ix ≠ i) (drop : FaultClass.controlDrop.ix ≠ i)
    (s : State) : (s.takeRaise x).flags[i] = s.flags[i] := by
  dsimp only [State.takeRaise]
  split
  · exact recordRaise_flag_other h ..
  · exact (offerControl_flag_other drop ..).trans (recordRaise_flag_other h ..)

theorem takeRaises_flag_other {i : Fin 14} {l : List Raise} (h : ∀ x ∈ l, x.cls.ix ≠ i)
    (drop : FaultClass.controlDrop.ix ≠ i) (s : State) : (s.takeRaises l).flags[i] = s.flags[i] := by
  induction l generalizing s with
  | nil => rfl
  | cons x l ih =>
    simp only [List.mem_cons, forall_eq_or_imp] at h
    exact (ih h.2 _).trans (takeRaise_flag_other h.1 drop s)

/-- The fault unit sets the flags of the raised classes and CONTROL_DROP's alone. -/
theorem flush_flag_other {i : Fin 14} (h : ∀ x ∈ s.raised, x.cls.ix ≠ i) (drop : FaultClass.controlDrop.ix ≠ i)
    (m : Moment) : (s.flush m).flags[i] = s.flags[i] :=
  takeRaises_flag_other (fun x hx => h x ((raiseOrder_spec m s).1.mem_iff.1 hx)) drop s

/-! ## One record through a boundary -/

/-- What becomes of record `b` behind the scheduler while no restart completes. -/
structure StillRuns (b : BookingIx) (w t : State) : Prop where
  booking : t.booking b = w.booking b
  restart : t.restart = w.restart
  covers : ∀ y l lg, w.booking b = some y → y.leg l = some lg → w.CoversLeg b l lg.port lg.label y.rate →
    t.CoversLeg b l lg.port lg.label y.rate
  flags : ∀ x ∈ w.raised, t.flags[x.cls.ix] = true

/-- The same where a restart completes. -/
structure RestartOver (b : BookingIx) (w t : State) : Prop where
  restart : w.restart = true
  free : w.stateOf b ∉ [some .armed, some .live, some .overrun, some .closing]
  booking : t.booking b = (w.booking b).bind Booking.afterRestart
  flows : t.flows = []
  running : t.restart = false

/-- Record `b` at a boundary from `s` to `t`: the scheduler finds it in `v` and leaves it in `w`. -/
structure Through (m : Moment) (b : BookingIx) (s v w t : State) : Prop where
  found : v.booking b = (s.booking b).map (·.classified s)
  sec : v.sec = s.nextSecond
  clock : t.clock = v.clock
  restart : v.restart = s.restart
  idleClose : v.idleClose = s.idleClose
  identTimeout : v.identTimeout = s.identTimeout
  tariffBefore : ∀ x, v.tariff x = s.tariff x
  billsBefore : s.bills <+: v.bills
  waitsBefore : v.billWaits b = s.billWaits b
  taken : w = v.scheduleOne m b
  tariffAfter : ∀ x, t.tariff x = w.tariff x
  billsAfter : w.bills <+: t.bills
  waitingAfter : w.billWaiting <+: t.billWaiting
  free : w.FreeOf b → ∀ e ∈ t.flows, e.booking ≠ b
  ended : StillRuns b w t ∨ RestartOver b w t

/-- What neither the counters, without actions, nor the fault unit touch. -/
structure SameTables (s t : State) : Prop where
  booking : ∀ b, t.booking b = s.booking b
  flows : t.flows = s.flows
  deferred : t.deferred = s.deferred
  bills : t.bills = s.bills
  billWaiting : t.billWaiting = s.billWaiting
  calm : Calm s t

theorem SameTables.trans (h : SameTables s t) (k : SameTables t u) : SameTables s u :=
  ⟨fun b => (k.booking b).trans (h.booking b), k.flows.trans h.flows, k.deferred.trans h.deferred, k.bills.trans h.bills,
    k.billWaiting.trans h.billWaiting, h.calm.trans k.calm⟩

theorem Work.deferred {R : Reach} (h : Work R s t) : t.deferred = s.deferred := by
  have e := congrArg State.deferred h.later.still; exact e

theorem Work.sameTables (h : Work .counting s t) : SameTables s t :=
  ⟨fun _ => h.booking fun _ _ => id, h.flows, h.deferred, h.bills, h.billWaiting, h.calm⟩

theorem sameTables_flush (m : Moment) (s : State) : SameTables s (s.flush m) :=
  ⟨State.booking_congr (by rw [flush_rest]), by rw [flush_rest], by rw [flush_rest], by rw [flush_rest],
    by rw [flush_rest], (later_flush m s).calm⟩

/-- The scheduler either leaves a restart waiting, or there is none, or it completes. -/
theorem scheduled_cases (m : Moment) (s : State) : s.scheduled m = s.schedule m ∨
    (s.schedule m).restart = true ∧ (∀ b, (s.schedule m).stateOf b ∉ [some .armed, some .live, some .overrun, some .closing]) ∧
      s.scheduled m = ((s.schedule m).flush m).finishRestart := by
  unfold State.scheduled State.tryFinishRestart
  split
  · next h =>
    simp only [Bool.and_eq_true, Bool.not_eq_true'] at h
    exact .inr ⟨h.1, not_holdsRestart h.2, rfl⟩
  · exact .inl rfl

/-- The end of a boundary behind the record's turn. -/
theorem ended_of (m : Moment) (free : Elsewhere b w (v.schedule m)) (keeps : SchedulerKeeps w (v.schedule m))
    (after : Work .counting (v.scheduled m) u) : StillRuns b w (u.flush m) ∨ RestartOver b w (u.flush m) := by
  have same := after.sameTables.trans (sameTables_flush m u)
  rcases scheduled_cases m v with e | ⟨restart, open_, e⟩
  · rw [e] at after same
    obtain ⟨l, hl, -⟩ := keeps.raised
    obtain ⟨l', hl', -⟩ := after.raised
    refine .inl ⟨(same.booking b).trans free.booking, same.calm.restart.trans keeps.calm.restart,
      fun y l lg hy hlg k => (free.covers y l lg hy hlg k).congr same.flows same.deferred, fun x hx => flush_flag m ?_⟩
    rw [hl', hl]
    simp [hx]
  · rw [e] at same
    have flushed := sameTables_flush m (v.schedule m)
    refine .inr ⟨keeps.calm.restart.symm.trans restart, ?_, ?_, same.flows, same.calm.restart⟩
    · have := open_ b
      rwa [State.stateOf, free.booking] at this
    · rw [same.booking, finishRestart_booking, flushed.booking, free.booking]

theorem boundary_through (h : s.NoActions) (m : Moment) (b : BookingIx) : ∃ v w t,
    exec (.secondBoundary m) s = .next t ∧ Through m b s v w t := by
  obtain ⟨v0, w1, before, after, -, run⟩ := secondBoundary_counted h m
  obtain ⟨v, w, e1, k1, hw, e2, k2⟩ := schedule_around m b v0
  have rest := secondEnded_rest m s
  have head := before.sameTables
  have calm := head.calm.trans k1.calm
  have tail := after.sameTables.trans (sameTables_flush m w1)
  have last : (v0.scheduled m).bills = (v0.schedule m).bills ∧ (v0.scheduled m).billWaiting = (v0.schedule m).billWaiting ∧
      (v0.scheduled m).clock = (v0.schedule m).clock ∧ (v0.scheduled m).tariffs = (v0.schedule m).tariffs ∧
      (w.FreeOf b → ∀ e ∈ (v0.scheduled m).flows, e.booking ≠ b) := by
    rcases scheduled_cases m v0 with e | ⟨-, -, e⟩
    · rw [e]; exact ⟨rfl, rfl, rfl, rfl, fun k => (e2.free k).1⟩
    · have flushed := sameTables_flush m (v0.schedule m)
      rw [e]
      exact ⟨flushed.bills, flushed.billWaiting, flushed.calm.clock, flushed.calm.tariffs, fun _ e he => by cases he⟩
  obtain ⟨bills, waiting, clock, tariffs, free⟩ := last
  have sec : (s.secondEnded m).sec = s.nextSecond := by rw [rest]
  exact ⟨v, w, w1.flush m, run,
    { found := (e1.booking.trans (head.booking b)).trans (secondEnded_booking m b s)
      sec := calm.sec.trans sec
      clock := (tail.calm.clock.trans clock).trans (k2.calm.clock.trans (hw ▸ (calm_scheduleOne m b v).clock))
      restart := calm.restart.trans (by rw [rest])
      idleClose := calm.idleClose.trans (by rw [rest])
      identTimeout := calm.identTimeout.trans (by rw [rest])
      tariffBefore := fun x => (calm.tariff x).trans (by rw [rest]; rfl)
      billsBefore := by
        have e : v0.bills = s.bills := head.bills.trans (by rw [rest])
        exact e ▸ k1.bills
      waitsBefore := by
        have e : v0.billWaits b = s.billWaits b := by rw [State.billWaits, head.billWaiting, rest]; rfl
        exact e1.billWaits.trans e
      taken := hw
      tariffAfter := fun x => by
        have e : (v0.scheduled m).tariff x = w.tariff x := by
          rw [State.tariff, tariffs]; exact k2.calm.tariff x
        exact (tail.calm.tariff x).trans e
      billsAfter := by rw [tail.bills, bills]; exact k2.bills
      waitingAfter := by rw [tail.billWaiting, waiting]; exact k2.billWaiting
      free := fun k => by rw [tail.flows]; exact free k
      ended := ended_of m e2 k2 after }⟩

variable {x : Booking}

/-- The record's one transition, from the record as the second ended has classified it. -/
theorem Through.transition (h : Through m b s v w t) (hx : s.booking b = some x) {tr : Transition}
    (ht : (x.classified s).transition s.nextSecond s.idleClose s.restart = tr) :
    v.booking b = some (x.classified s) ∧ w = v.applyTransition m b (x.classified s) tr := by
  have found := h.found
  rw [hx, Option.map_some] at found
  refine ⟨found, ?_⟩
  rw [h.taken, State.scheduleOne, found, ← ht, h.sec, h.idleClose, h.restart]

/-- A record that runs on past a boundary holds a restart open. -/
theorem Through.stillRuns (h : Through m b s v w t)
    (k : s.restart = false ∨ w.stateOf b ∈ [some .armed, some .live, some .overrun, some .closing]) : StillRuns b w t := by
  refine h.ended.resolve_right fun finished => ?_
  rcases k with k | k
  · have : w.restart = false := by rw [h.taken, (calm_scheduleOne m b v).restart, h.restart, k]
    rw [finished.restart] at this
    cases this
  · exact finished.free k

/-! ## CONFIRMED and ARMED records (R12, R13) -/

/-- An outage record has been opened in the second `now`, with the booking just LIVE. -/
def OpenedIn (x : Booking) (now : Nat) (y : Booking) : Prop :=
  ∃ k : OutageRecord, k.start = now ∧ k.finish = none ∧ k.seconds = 0 ∧
    y = { x with outage := some { flag := true, touched := true, run := 0, records := [k] } }

theorem updLegCause_kept (k : OutageRecord) (l : LegId) (f : LegCause → LegCause) :
    (k.updLegCause l f).start = k.start ∧ (k.updLegCause l f).finish = k.finish ∧
      (k.updLegCause l f).seconds = k.seconds := by cases l <;> exact ⟨rfl, rfl, rfl⟩

/-- A capture writes causes alone. -/
theorem capture1_openedIn {now : Nat} (h : ∃ y, s.booking b = some y ∧ OpenedIn x now y) (l : LegId) :
    ∃ y, (s.capture1 b l).booking b = some y ∧ OpenedIn x now y := by
  obtain ⟨y, hy, opened⟩ := h
  unfold State.capture1
  simp only [hy]
  split
  · split
    · exact ⟨y, hy, opened⟩
    · split
      · exact ⟨y, hy, opened⟩
      · split
        · exact ⟨y, hy, opened⟩
        · next sit _ _ =>
          have same := (work_causeFor (R := .counting) sit ‹Leg›.port s).booking (b := b) fun _ _ => id
          rw [hy] at same
          obtain ⟨k, start, finish, seconds, rfl⟩ := opened
          simp only [State.updBooking, same]
          exact ⟨_, (State.setBooking_booking ..).trans (if_pos rfl), k.updLegCause l _,
            (updLegCause_kept ..).1.trans start, (updLegCause_kept ..).2.1.trans finish,
            (updLegCause_kept ..).2.2.trans seconds, rfl⟩
  · exact ⟨y, hy, opened⟩

theorem captureLegs_openedIn {now : Nat} (h : ∃ y, s.booking b = some y ∧ OpenedIn x now y) (ls : List LegId) :
    ∃ y, (s.captureLegs b ls).booking b = some y ∧ OpenedIn x now y := by
  unfold State.captureLegs
  induction ls generalizing s with
  | nil => exact h
  | cons l ls ih => exact ih (capture1_openedIn h l)

theorem atLive_anyUsable (x : Booking) (now : Nat) : (x.atLive now).anyUsable = x.anyUsable := rfl

/-- A booking with a usable leg goes LIVE out of outage (R13, R93). -/
theorem goLive_usable (usable : x.anyUsable = true) (m : Moment) (b : BookingIx) (v : State) :
    (v.goLive m b x).booking b = some (x.atLive v.sec) := by
  have here : (v.setBooking b (some (x.atLive v.sec))).booking b = some (x.atLive v.sec) := by simp
  unfold State.goLive State.judge
  simp only [here, atLive_anyUsable, usable]
  simp [Booking.forwarding, Booking.atLive, OutageState.initial]

/-- One without enters outage in its first second, with FEED_LOST (R13, R92, R93). -/
theorem goLive_unusable (usable : x.anyUsable = false) (m : Moment) (b : BookingIx) (v : State) :
    (∃ y, (v.goLive m b x).booking b = some y ∧ OpenedIn (x.atLive v.sec) v.sec y) ∧
      { cls := .feedLost, items := .ofBooking b, detail := none } ∈ (v.goLive m b x).raised := by
  let u := v.setBooking b (some (x.atLive v.sec))
  have here : u.booking b = some (x.atLive v.sec) := by simp [u]
  have entered : v.goLive m b x = u.enterOutage m b := by
    show u.judge m b [] = _
    unfold State.judge
    simp only [here, atLive_anyUsable, usable]
    simp [Booking.forwarding, Booking.atLive, OutageState.initial]
  rw [entered]
  let raised := u.raise .feedLost (.ofBooking b) none
  constructor
  · refine captureLegs_openedIn ⟨_, ?_, .opened v.sec, rfl, rfl, rfl, rfl⟩ (legOrder m)
    have h : raised.booking b = some (x.atLive v.sec) := here
    show (raised.updBooking b _).booking b = _
    simp only [State.updBooking, h]
    exact (State.setBooking_booking ..).trans (if_pos rfl)
  · have work : Work .all raised (u.enterOutage m b) := work_trackEntry m (Reach.all_has _ b)
    obtain ⟨l, hl, -⟩ := work.raised
    rw [hl]
    exact List.mem_append_left _ (List.mem_append_right _ (List.mem_singleton_self _))

end Sys2Proof.Machine
end

section
/-! CONFIRMED and ARMED records at a boundary (R12, R13). -/

namespace Sys2Proof.Machine
open Sys2Proof.Config

variable {s t u v w : State} {b : BookingIx} {m : Moment} {x : Booking}

/-! ## The steps of a CONFIRMED record -/

theorem confirmedStep_expire {now : Nat} (past : x.finish ≤ now) : x.confirmedStep now false = .expire := by
  simp [Booking.confirmedStep, past]

theorem confirmedStep_arm {now : Nat} (open_ : now < x.finish) (lead : x.start ≤ now + x.armLead) :
    x.confirmedStep now false = .arm := by
  have window : x.windowStart ≤ now := by unfold Booking.windowStart; omega
  simp [Booking.confirmedStep, Nat.not_le.2 open_, window]

theorem confirmedStep_stay {now : Nat} (open_ : now < x.finish) (early : now + x.armLead < x.start) :
    x.confirmedStep now false = .stay := by
  have window : ¬ x.windowStart ≤ now := by unfold Booking.windowStart; omega
  simp [Booking.confirmedStep, Nat.not_le.2 open_, window]

theorem manualFor_main (mode : ProtectionMode) : manualFor mode .main = decide (mode = .backupOnly) := by
  cases mode <;> rfl

theorem manualFor_backup (mode : ProtectionMode) : manualFor mode .backup = decide (mode = .mainOnly) := by
  cases mode <;> rfl

theorem armLegs_leg {l : LegId} {lg : Leg} (h : x.leg l = some lg) (now timeout : Nat) :
    ∃ k, (x.armLegs now timeout).leg l = some k ∧ k.port = lg.port ∧ k.label = lg.label := by
  cases l with
  | main => cases h; exact ⟨_, rfl, rfl, rfl⟩
  | backup =>
    have h : x.backup = some lg := h
    refine ⟨lg.arm (manualFor x.mode .backup) now timeout, ?_, rfl, rfl⟩
    simp only [Booking.leg, Booking.armLegs, h, Option.map_some]

/-! ## An ARMED record -/

theorem armedStep_stay {now : Nat} (restart : x.restartClose = false) (close : x.closeReq = none) (early : now < x.start) :
    x.armedStep now = .stay := by
  simp [Booking.armedStep, restart, close, Nat.not_le.2 early]

theorem armedStep_goLive {now : Nat} (restart : x.restartClose = false) (close : x.closeReq = none) (due : x.start ≤ now) :
    x.armedStep now = .goLive := by
  simp [Booking.armedStep, restart, close, due]

/-! ## During a restart (R23, R24) -/

/-- A CONFIRMED record and a flow table that agrees with the bookings: no entry is the record's (R62). -/
theorem State.FlowsMatch.freeOf (h : s.FlowsMatch) (hx : s.booking b = some x) (idle : x.carrying = false) : s.FreeOf b := by
  constructor
  · rintro e he rfl
    obtain ⟨r, lg, hr, carrying, -⟩ := h.entry e he
    rw [hx] at hr
    cases hr
    rw [idle] at carrying
    cases carrying
  · rintro y hy rfl
    obtain ⟨r, lg, hr, carrying, -⟩ := h.deferred y hy
    rw [hx] at hr
    cases hr
    rw [idle] at carrying
    cases carrying

/-- A record that stays is left as it is. -/
theorem scheduleOne_stay (hx : s.booking b = some x) (h : x.transition s.sec s.idleClose s.restart = .stay) (m : Moment) :
    s.scheduleOne m b = s := by
  simp only [State.scheduleOne, hx, h]
  rfl

theorem ix_ne_missed {c : FaultClass} (h : c ≠ .missed) : c.ix ≠ FaultClass.missed.ix := by
  cases c <;> simp at h <;> decide

/-- A CONFIRMED record neither arms nor expires while a restart is in progress. -/
theorem confirmed_during_restart (m : Moment) (hx : s.booking b = some x) (restart : s.restart = true)
    (state : x.state = .confirmed) : ∃ t, exec (.secondBoundary m) s = .next t ∧
      (t.restart = true → t.booking b = some x ∧ t.flags[FaultClass.missed.ix] = s.flags[FaultClass.missed.ix] ∧
        (s.FlowsMatch → ∀ e ∈ t.flows, e.booking ≠ b)) ∧
      (t.restart = false → t.booking b = none ∧ t.flows = []) := by
  obtain ⟨v0, w1, before, after, -, run⟩ := secondBoundary_parts m s
  have rest := secondEnded_rest m s
  have begun : (s.secondEnded m).booking b = some x := by
    rw [secondEnded_booking, hx, Option.map_some, classified_of_state (by simp [state]) (by simp [state])]
  have found : v0.booking b = some x := by
    rw [before.booking, begun]
    intro r hr
    rw [begun] at hr
    cases hr
    simp [Reach.watching, state]
  have restarting : v0.restart = true := by rw [before.restart, rest]; exact restart
  have keeps := schedulerKeeps_schedule m v0
  have elsewhere : Elsewhere b v0 (v0.schedule m) := by
    obtain ⟨v, w, e1, k1, hw, e2, -⟩ := schedule_around m b v0
    have stays : x.transition v.sec v.idleClose v.restart = .stay := by
      rw [k1.calm.restart, restarting, Booking.transition, state]
      rfl
    rw [scheduleOne_stay (e1.booking.trans found) stays] at hw
    exact e1.trans (hw ▸ e2)
  have same := sameTables_flush m w1
  have now := (elsewhere.booking.trans found)
  refine ⟨w1.flush m, run, ?_⟩
  rcases scheduled_cases m v0 with e | ⟨-, -, e⟩ <;> rw [e] at after
  · have runs : (w1.flush m).restart = true :=
      same.calm.restart.trans (after.restart.trans (keeps.calm.restart.trans restarting))
    refine ⟨fun _ => ⟨?_, ?_, fun agrees y hy => ?_⟩, fun k => by rw [runs] at k; cases k⟩
    · rw [same.booking, after.booking, now]
      intro r hr
      rw [now] at hr
      cases hr
      simp [Reach.watching, state]
    · have flags : w1.flags = s.flags := by rw [after.flags, keeps.flags, before.flags, rest]
      rw [flush_flag_other (fun a ha => ?_) (by decide), flags]
      obtain ⟨l0, r0, h0⟩ := before.raised
      obtain ⟨l1, r1, h1⟩ := keeps.raised
      obtain ⟨l2, r2, h2⟩ := after.raised
      have fresh : (s.secondEnded m).raised = [] := by rw [rest]
      rw [r2, r1, r0, fresh, List.nil_append] at ha
      refine ix_ne_missed ?_
      rcases List.mem_append.1 ha with ha | ha
      · rcases List.mem_append.1 ha with ha | ha
        · exact ofWork_ne_missed (h0 a ha)
        · exact h1 restarting a ha
      · exact ofWork_ne_missed (h2 a ha)
    · rw [same.flows, after.flows] at hy
      have free : v0.FreeOf b := (agrees.freeOf hx (by simp [Booking.carrying, state])).congr
        (by rw [before.flows, rest]) (by rw [before.deferred, rest])
      exact (elsewhere.free free).1 y hy
  · have flushed := sameTables_flush m (v0.schedule m)
    have ended : (w1.flush m).restart = false := same.calm.restart.trans after.restart
    have gone : ((v0.schedule m).flush m).finishRestart.booking b = none := by
      rw [finishRestart_booking, flushed.booking, now]
      exact afterRestart_none (by simp [state])
    refine ⟨fun k => (by rw [ended] at k; cases k), fun _ => ⟨?_, ?_⟩⟩
    · rw [same.booking, after.booking, gone]
      intro r hr
      rw [gone] at hr
      cases hr
    · rw [same.flows, after.flows]; rfl

/-- Settles O43. -/
theorem boundaryArmsAndGoesLive : Obligations.BoundaryArmsAndGoesLive := by
  refine ⟨fun m b x s restart hx state => confirmed_during_restart m hx restart state,
    fun m b x s quiet restart hx => ?_⟩
  obtain ⟨v, w, t, run, through⟩ := boundary_through quiet m b
  have runs := through.stillRuns (.inl restart)
  have sec := through.sec
  have step : ∀ tr, (x.classified s).transition s.nextSecond s.idleClose false = tr → _ := fun tr ht =>
    through.transition hx (restart ▸ ht)
  have same : x.state = .confirmed ∨ x.state = .armed → x.classified s = x := fun k =>
    classified_of_state (by rcases k with k | k <;> simp [k]) (by rcases k with k | k <;> simp [k]) s
  refine ⟨t, run, fun state past => ?_, fun state open_ early => ?_, fun state open_ lead => ?_,
    fun state r c early => ?_, fun state r c due => ?_⟩
  · rw [same (.inl state)] at step
    obtain ⟨-, taken⟩ := step .expire (by simp only [Booking.transition, state, confirmedStep_expire past])
    constructor
    · rw [runs.booking, taken, ← sec]
      exact (State.setBooking_booking ..).trans (if_pos rfl)
    · refine runs.flags { cls := .missed, items := .ofBooking b, detail := none } ?_
      rw [taken]
      exact List.mem_append_right _ (List.mem_singleton_self _)
  · rw [same (.inl state)] at step
    obtain ⟨found, taken⟩ := step .stay (by simp only [Booking.transition, state, confirmedStep_stay open_ early])
    rw [runs.booking, taken]
    exact found
  · rw [same (.inl state)] at step
    obtain ⟨found, taken⟩ := step .arm (by simp only [Booking.transition, state, confirmedStep_arm open_ lead])
    let y : Booking := { x.armLegs v.clock v.identTimeout with state := .armed }
    have armed : w.booking b = some y := by
      rw [taken]
      exact (installLegs_booking ..).trans ((State.setBooking_booking ..).trans (if_pos rfl))
    intro arm
    constructor
    · rw [runs.booking, armed]
      have main := manualFor_main x.mode
      have backup := manualFor_backup x.mode
      simp only [arm, ← main, ← backup, through.clock, ← through.identTimeout]
      rfl
    · intro l lg hl
      obtain ⟨k, hk, port, label⟩ := armLegs_leg hl v.clock v.identTimeout
      have written : (v.setBooking b (some y)).booking b = some y := by simp
      have covered : w.CoversLeg b l k.port k.label y.rate := by
        rw [taken]
        exact installLegs_covers written hk
      have stays := runs.covers y l k armed hk covered
      rwa [port, label] at stays
  · rw [same (.inr state)] at step
    obtain ⟨found, taken⟩ := step .stay (by simp only [Booking.transition, state, armedStep_stay r c early])
    rw [runs.booking, taken]
    exact found
  · rw [same (.inr state)] at step
    obtain ⟨-, taken⟩ := step .goLive (by simp only [Booking.transition, state, armedStep_goLive r c due])
    have live : w = v.goLive m b x := taken
    rw [runs.booking, ← sec, live]
    cases usable : x.anyUsable with
    | true =>
      exact ⟨_, .initial, goLive_usable usable m b v, rfl, rfl, rfl, rfl, rfl, fun _ => rfl, nofun⟩
    | false =>
      obtain ⟨⟨y, hy, k, start, finish, seconds, rfl⟩, raised⟩ := goLive_unusable usable m b v
      have flag := runs.flags _ (live ▸ raised)
      exact ⟨_, _, hy, rfl, rfl, rfl, rfl, rfl, nofun, fun _ => ⟨flag, k, rfl, start, finish, seconds⟩⟩

end Sys2Proof.Machine
end

section
/-! Closings at a boundary, with their bills (R14 to R17, R129, R154 to R161). -/

namespace Sys2Proof.Machine
open Sys2Proof.Config

variable {s t u v w : State} {b : BookingIx} {m : Moment} {x y z : Booking}

/-! ## Settled records (R129) -/

theorem settled_eq (r : Booking) : r.settled =
    r.outage.all fun o => (o.records.map (·.attribution)).all fun a => decide (a ≠ .pending) := by
  simp [Booking.settled, Function.comp_def]

theorem updLast_map {α β : Type} {f : α → α} {g : α → β} (h : ∀ x, g (f x) = g x) (l : List α) :
    (updLast f l).map g = l.map g := by
  induction l using updLast.induct with
  | case1 => rfl
  | case2 x => simp [updLast, h]
  | case3 x y t ih => simpa [updLast] using ih

/-- The freezing of a record leaves its attribution. -/
theorem freeze_attributions (o : OutageState) (n : Nat) :
    (o.freeze n).records.map (·.attribution) = o.records.map (·.attribution) :=
  updLast_map (fun r => by split <;> rfl) o.records

theorem atClosing_settled (r : Booking) (cut : CutReason) (now : Nat) : (r.atClosing cut now).settled = r.settled := by
  have outage : (r.atClosing cut now).outage = r.outage.map (·.freeze now) := rfl
  rw [settled_eq, settled_eq, outage]
  cases r.outage with
  | none => rfl
  | some o => simp only [Option.map_some, Option.all_some, freeze_attributions]

/-! ## The bill of a closing -/

/-- The same record, but for its state and a resolved EXTEND. -/
def SameRun (z y : Booking) : Prop :=
  y = { z with state := y.state, extendPending := y.extendPending, lastExtend := y.lastExtend }

theorem SameRun.trans {z y y' : Booking} (h : SameRun z y) (k : SameRun y y') : SameRun z y' := by
  rw [SameRun, h] at k
  exact k

theorem BilledAs.sameRun {tf : Tariff} {k : Bill} (h : BilledAs b z tf k) (e : SameRun z y) : BilledAs b y tf k := by
  obtain ⟨terms, closed, lived, live, over_, outages, seconds, lines, total⟩ := h
  rw [e]
  exact ⟨terms, closed, lived, live, over_, outages, seconds, lines, total⟩

/-- What a closing record has become when it has entered CLOSING as `z`: it waits for its settlement, its bill waits, or it is
billed and CLOSED. -/
structure Closes (b : BookingIx) (z : Booking) (v w : State) : Prop where
  found : w.booking b = some z ∨ w.booking b = some { z with state := .closed }
  free : w.FreeOf b
  waits : z.settled = false → w.booking b = some z
  billed : w.stateOf b = some .closed → billOf b z (v.tariff z.tariff) ∈ w.bills
  held : z.settled = true → w.stateOf b = some .closing → v.billWaits b = true ∧ w.billWaiting = v.billWaiting ∨
    billOf b z (v.tariff z.tariff) ∈ w.billWaiting

theorem closeRecord_closes (why : CutReason) (v : State) (c : Booking) :
    Closes b (c.atClosing why v.sec) v (v.closeRecord b c why) := by
  let z := c.atClosing why v.sec
  let u := (v.removeFlows b).setBooking b (some z)
  have here : u.booking b = some z := by simp [u]
  have state : z.state = .closing := rfl
  have rest := removeFlows_rest b v
  have waits : u.billWaits b = v.billWaits b := by
    show List.any (v.removeFlows b).billWaiting _ = _
    rw [rest]; rfl
  have waiting : u.billWaiting = v.billWaiting := by
    show (v.removeFlows b).billWaiting = _
    rw [rest]
  have tariff : u.tariff z.tariff = v.tariff z.tariff := by
    show (v.removeFlows b).tariff _ = _
    rw [rest]; rfl
  have emptied : u.FreeOf b := (removeFlows_freeOf b v).congr rfl rfl
  have free : (u.settleBooking b).FreeOf b := by
    have settled := settleBooking_rest b u
    exact emptied.congr (by rw [settled]) (by rw [settled])
  show Closes b z v (u.settleBooking b)
  by_cases now : z.settled = true ∧ u.billWaits b = false
  · obtain ⟨settled, waits'⟩ := now
    by_cases room : u.bills.length < 64
    · obtain ⟨e, bills, waiting'⟩ := settleBooking_room here state settled waits' room
      refine ⟨.inr e, free, fun k => (by rw [settled] at k; cases k), fun _ => ?_, fun _ k => ?_⟩
      · rw [bills, tariff]; simp
      · rw [stateOf_of_booking e] at k; cases k
    · obtain ⟨e, bills, waiting', -⟩ := settleBooking_full here state settled waits' (Nat.not_lt.1 room)
      refine ⟨.inl e, free, fun k => (by rw [settled] at k; cases k), fun k => ?_, fun _ _ => .inr ?_⟩
      · rw [stateOf_of_booking e, state] at k; cases k
      · rw [waiting', tariff]; simp
  · have still : u.settleBooking b = u := by
      unfold State.settleBooking
      simp only [here]
      refine if_neg fun k => now ?_
      simp only [Bool.and_eq_true, Bool.not_eq_true'] at k
      exact ⟨k.1.2, k.2⟩
    rw [still] at free ⊢
    refine ⟨.inl here, free, fun _ => here, fun k => ?_, fun settled _ => .inl ⟨?_, waiting⟩⟩
    · rw [stateOf_of_booking here, state] at k; cases k
    · rw [← waits]
      by_contra k
      exact now ⟨settled, by simpa using k⟩

/-! ## A closing at a boundary -/

/-- The record behind the boundary is the one the scheduler left, an EXTEND resolved where a restart completed (R40). -/
theorem Through.ended_record (h : Through m b s v w t) (hy : w.booking b = some y)
    (state : y.state = .closing ∨ y.state = .closed) : ∃ y', t.booking b = some y' ∧ y'.state = y.state ∧ SameRun y y' := by
  rcases h.ended with runs | finished
  · exact ⟨y, runs.booking.trans hy, rfl, rfl⟩
  · have closed : y.state = .closed := state.resolve_left fun k => finished.free (by simp [stateOf_of_booking hy, k])
    refine ⟨_, by rw [finished.booking, hy, Option.bind_some, afterRestart_closed closed], ?_, ?_⟩
    · split <;> rfl
    · split <;> rfl

theorem Through.closes (h : Through m b s v w t) (hx : s.booking b = some x) {why : CutReason}
    (ht : (x.classified s).transition s.nextSecond s.idleClose s.restart = .close why) :
    Closes b ((x.classified s).atClosing why s.nextSecond) v w := by
  obtain ⟨-, taken⟩ := h.transition hx ht
  rw [taken, ← h.sec]
  dsimp only [State.applyTransition]
  split
  · have closes := closeRecord_closes (b := b) why (v.raise .overrunExhausted (.ofBooking b) none) (x.classified s)
    exact ⟨closes.found, closes.free, closes.waits, closes.billed, closes.held⟩
  · exact closeRecord_closes ..

/-- A record that closes at a boundary, and its bill. -/
theorem Through.closedAs (h : Through m b s v w t) (hx : s.booking b = some x) {why : CutReason}
    (ht : (x.classified s).transition s.nextSecond s.idleClose s.restart = .close why) :
    ∃ y, t.booking b = some y ∧ ClosedAs s t b (x.classified s) y why s.nextSecond := by
  have closes := h.closes hx ht
  have from_ : (x.classified s).state = .armed ∨ (x.classified s).state = .live ∨ (x.classified s).state = .overrun := by
    have k := transition_from (x.classified s) s.nextSecond s.idleClose s.restart
    rwa [ht] at k
  generalize x.classified s = c at closes from_ ⊢
  have settled := atClosing_settled c why s.nextSecond
  generalize hz : c.atClosing why s.nextSecond = z at closes settled
  obtain ⟨y0, hy0, same0, open_⟩ : ∃ y, w.booking b = some y ∧ SameRun z y ∧ (y.state = .closing ∨ y.state = .closed) := by
    rcases closes.found with k | k
    · exact ⟨z, k, rfl, .inl (hz ▸ rfl)⟩
    · exact ⟨_, k, rfl, .inr rfl⟩
  obtain ⟨y, hy, state, same1⟩ := h.ended_record hy0 open_
  have same := same0.trans same1
  have taken : w.stateOf b = some y.state := by rw [stateOf_of_booking hy0, state]
  have tariff : t.tariff y.tariff = v.tariff z.tariff := by
    have e : y.tariff = z.tariff := by rw [same]
    rw [e, h.tariffAfter, h.taken]
    exact (calm_scheduleOne m b v).tariff _
  have bill : y.state = .closed → billOf b z (v.tariff z.tariff) ∈ t.bills := fun k =>
    h.billsAfter.subset (closes.billed (by rw [taken, k]))
  have held : c.settled = true → y.state = .closing → v.billWaits b = true ∧ w.billWaiting = v.billWaiting ∨
      billOf b z (v.tariff z.tariff) ∈ t.billWaiting := fun k e =>
    (closes.held (settled.trans k) (by rw [taken, e])).imp_right fun k => h.waitingAfter.subset k
  have billedAs : why ≠ .lateCancel → BilledAs b y (t.tariff y.tariff) (billOf b z (v.tariff z.tariff)) := fun k => by
    rw [tariff]
    exact (billOf_billedAs b (by rw [← hz]; rfl) k (by rw [← hz]; rfl) _).sameRun same
  have liveTo : z.liveTo = if c.state = .armed then c.liveTo else some s.nextSecond := by
    rw [← hz]
    rcases from_ with k | k | k <;> simp [Booking.atClosing, Booking.forwarding, k]
  have fields : y.cut = some why ∧ y.closeSecond = some s.nextSecond ∧ y.liveTo = z.liveTo ∧
      (y.closeReq = none ∧ y.restartClose = false) ∧ (y.main = c.main.toIdle ∧ y.backup = c.backup.map Leg.toIdle) ∧
      y.outage = c.outage.map fun o => o.freeze s.nextSecond := by
    rw [same, ← hz]
    exact ⟨rfl, rfl, rfl, ⟨rfl, rfl⟩, ⟨rfl, rfl⟩, rfl⟩
  obtain ⟨cut, closeSecond, liveTo', flags, legs, outage⟩ := fields
  refine ⟨y, hy, ⟨state ▸ open_, cut, closeSecond, liveTo'.trans liveTo, flags, legs, outage, ?_, h.free closes.free,
    fun k => ?_, fun k => ⟨_, bill k, ?_⟩, fun k e => ?_, fun k why_ => ⟨_, bill k, billedAs why_⟩, fun k e why_ fresh => ?_⟩⟩
  · rw [cut, closeSecond, flags.1, flags.2, legs.1, legs.2, outage, liveTo']
    refine Eq.trans same ?_
    rw [← hz]
    rfl
  · have e := closes.waits (settled.trans k)
    rw [hy0, Option.some_inj] at e
    rw [state, e, ← hz]
    rfl
  · have kind : z.cut = some why := by rw [← hz]; rfl
    have second : z.closeSecond = some s.nextSecond := by rw [← hz]; rfl
    simp [billOf, kind, second]
  · rcases held k e with ⟨waits, same⟩ | listed
    · rw [State.billWaits, List.any_eq_true] at waits
      obtain ⟨k, hk, name⟩ := waits
      exact ⟨k, h.waitingAfter.subset (same ▸ hk), of_decide_eq_true name⟩
    · exact ⟨_, listed, rfl⟩
  · rcases held k e with ⟨waits, -⟩ | listed
    · rw [h.waitsBefore, State.billWaits, List.any_eq_true] at waits
      obtain ⟨k, hk, name⟩ := waits
      exact absurd (of_decide_eq_true name) (fresh k hk)
    · exact ⟨_, listed, billedAs why_⟩

/-! ## LIVE and OVERRUN records (R14, R15) -/

/-- Taking a second writes the outage state, the merge state and the destinations alone. -/
theorem classified_rest (x : Booking) (s : State) : x.classified s =
    { x with outage := (x.classified s).outage, merge := (x.classified s).merge, dests := (x.classified s).dests } := by
  unfold Booking.classified; split <;> rfl

/-- A record marked by a restart closes at the next boundary (R16, R23). -/
theorem transition_restart {c : Booking} (state : c.state ∈ [.armed, .live, .overrun]) (marked : c.restartClose = true)
    (now idle : Nat) (restart : Bool) : c.transition now idle restart = .close .restart := by
  simp only [List.mem_cons, List.not_mem_nil, or_false] at state
  rcases state with k | k | k <;>
    simp [Booking.transition, k, Booking.armedStep, Booking.liveStep, Booking.overrunStep, marked]

/-- A record that stays or overruns holds the restart open, where one is in progress. -/
theorem Through.stays (h : Through m b s v w t) (hx : s.booking b = some x)
    (state : (x.classified s).state = .live ∨ (x.classified s).state = .overrun)
    (ht : (x.classified s).transition s.nextSecond s.idleClose s.restart = .stay) :
    t.booking b = some (x.classified s) := by
  obtain ⟨found, taken⟩ := h.transition hx ht
  have here : w.booking b = some (x.classified s) := by rw [taken]; exact found
  have runs := h.stillRuns (.inr (by rw [stateOf_of_booking here]; rcases state with k | k <;> simp [k]))
  exact runs.booking.trans here

theorem Through.overruns (h : Through m b s v w t) (hx : s.booking b = some x)
    (ht : (x.classified s).transition s.nextSecond s.idleClose s.restart = .overrun) :
    t.booking b = some { x.classified s with state := .overrun, overrunFrom := some s.nextSecond } ∧
      t.flags[FaultClass.overrunEntered.ix] = true := by
  obtain ⟨-, taken⟩ := h.transition hx ht
  have here : w.booking b = some { x.classified s with state := .overrun, overrunFrom := some s.nextSecond } := by
    rw [taken, ← h.sec]
    exact (State.setBooking_booking ..).trans (if_pos rfl)
  have runs := h.stillRuns (.inr (by rw [stateOf_of_booking here]; simp))
  refine ⟨runs.booking.trans here, runs.flags { cls := .overrunEntered, items := .ofBooking b, detail := none } ?_⟩
  rw [taken]
  exact List.mem_append_right _ (List.mem_singleton_self _)

/-- Settles O44. -/
theorem boundaryRunsOrCloses : Obligations.BoundaryRunsOrCloses := by
  intro m b x s quiet hx now c
  obtain ⟨v, w, t, run, h⟩ := boundary_through quiet m b
  have rest : c = _ := classified_rest x s
  have state : c.state = x.state := by rw [rest]
  have marked : c.restartClose = x.restartClose := by rw [rest]
  have closeReq : c.closeReq = x.closeReq := by rw [rest]
  have finish : c.finish = x.finish := by rw [rest]
  have allowance : c.allowance = x.allowance := by rw [rest]
  have armed : x.state = .armed → c.transition now s.idleClose s.restart = c.armedStep now := fun k => by
    rw [Booking.transition, state, k]
  have live : x.state = .live → c.transition now s.idleClose s.restart = c.liveStep now := fun k => by
    rw [Booking.transition, state, k]
  have overrun : x.state = .overrun → c.transition now s.idleClose s.restart = c.overrunStep now s.idleClose := fun k => by
    rw [Booking.transition, state, k]
  refine ⟨t, run, fun k r => h.closedAs hx (transition_restart (state ▸ k) (marked ▸ r) ..),
    fun k r q => h.closedAs hx ((armed k).trans ?_),
    fun k r => ⟨fun e q => h.stays hx (.inl (state.trans k)) ((live k).trans ?_),
      fun e q => h.closedAs hx ((live k).trans ?_), fun e q => h.closedAs hx ((live k).trans ?_),
      fun e q e' => h.overruns hx ((live k).trans ?_)⟩,
    fun k r => ⟨fun e => ?_, fun e => ⟨fun why q => h.closedAs hx ((overrun k).trans ?_),
      fun q i => h.closedAs hx ((overrun k).trans ?_),
      fun q i => h.stays hx (.inr (state.trans k)) ((overrun k).trans ?_)⟩⟩⟩
  · simp [Booking.armedStep, marked, r, closeReq, Option.isSome_iff_ne_none, q]
  · simp [Booking.liveStep, marked, r, finish, e, closeReq, q]
  · simp [Booking.liveStep, marked, r, finish, e, closeReq, Option.isSome_iff_ne_none, q]
  · simp only [Booking.liveStep, marked, r, finish, allowance, closeReq, Nat.not_lt.2 e, Option.isSome_iff_ne_none, ne_eq,
      if_pos q, if_false, Bool.false_eq_true]
  · simp [Booking.liveStep, marked, r, finish, allowance, closeReq, Nat.not_lt.2 e, q, Nat.not_le.2 e']
  · have due : c.transition now s.idleClose s.restart = .close .allowanceEnd := by
      rw [overrun k]
      simp [Booking.overrunStep, marked, r, finish, allowance, e]
    refine ⟨fun running => ?_, h.closedAs hx due⟩
    obtain ⟨-, taken⟩ := h.transition hx due
    have runs := h.stillRuns (.inl running)
    refine runs.flags { cls := .overrunExhausted, items := .ofBooking b, detail := none } ?_
    have closed : w = (v.raise .overrunExhausted (.ofBooking b) none).closeRecord b c .allowanceEnd := taken
    obtain ⟨l, hl, -⟩ := (schedulerKeeps_closeRecord b c .allowanceEnd (v.raise .overrunExhausted (.ofBooking b) none)).raised
    rw [closed, hl]
    exact List.mem_append_left _ (List.mem_append_right _ (List.mem_singleton_self _))
  · simp [Booking.overrunStep, marked, r, finish, allowance, Nat.not_le.2 e, closeReq, q]
  · simp [Booking.overrunStep, marked, r, finish, allowance, Nat.not_le.2 e, closeReq, q, i]
  · simp [Booking.overrunStep, marked, r, finish, allowance, Nat.not_le.2 e, closeReq, q, i]

end Sys2Proof.Machine
end

section
/-! The completion of a restart at a boundary (R24, R40, R130, R143, R178). -/

namespace Sys2Proof.Machine
open Sys2Proof.Config

variable {s t u v w : State} {b c : BookingIx} {m : Moment} {x y z : Booking}

/-! ## Taking a second (R124) -/

theorem addSecond_map {β : Type} {g : OutageRecord → β} (h : ∀ o n, g { o with seconds := n } = g o) (n : Nat)
    (l : List OutageRecord) : (addSecond n l).map g = l.map g := by
  induction l with
  | nil => rfl
  | cons o l ih =>
    unfold addSecond
    split
    · simp [h]
    · simp [ih]

theorem takeSecond_settled (r : Booking) (n : Nat) (up : Vector Bool 16) (tf : Tariff) :
    (r.takeSecond n up tf).settled = r.settled := by
  have outage : (r.takeSecond n up tf).outage = r.outage.map (·.takeSecond n) := rfl
  rw [settled_eq, settled_eq, outage]
  cases r.outage with
  | none => rfl
  | some o =>
    have records : (o.takeSecond n).records.map (·.attribution) = o.records.map (·.attribution) := by
      unfold OutageState.takeSecond
      split
      · exact addSecond_map (fun _ _ => rfl) n o.records
      · rfl
    simp only [Option.map_some, Option.all_some, records]

theorem classified_settled (x : Booking) (s : State) : (x.classified s).settled = x.settled := by
  unfold Booking.classified
  split
  · exact takeSecond_settled ..
  · rfl

theorem classified_fixedTerms (x : Booking) (s : State) : (x.classified s).fixedTerms = x.fixedTerms := by
  unfold Booking.classified
  split
  · exact fixedTerms_of_bare (takeSecond_bare ..)
  · rfl

theorem classified_state (x : Booking) (s : State) : (x.classified s).state = x.state := by
  rw [classified_rest]

/-! ## The records that carry -/

def State.carries (s : State) (b : BookingIx) : Bool := (s.booking b).any Booking.carrying

theorem bookingOrder_perm (m : Moment) : (bookingOrder m).Perm (List.finRange 256) :=
  (List.perm_ext_iff_of_nodup (nodup_bookingOrder m) (List.nodup_finRange 256)).2 fun b =>
    ⟨fun _ => List.mem_finRange b, fun _ => mem_bookingOrder m b⟩

theorem countBookings_carrying (m : Moment) (s : State) :
    s.countBookings (fun x => decide (x.state ∈ [.armed, .live, .overrun])) = (bookingOrder m).countP s.carries := by
  have table : s.bookings.toList = (List.finRange 256).map s.booking := by
    refine List.ext_getElem (by simp) fun i h1 h2 => ?_
    simp [State.booking]
  have carrying : (fun x : Booking => decide (x.state ∈ [.armed, .live, .overrun])) = Booking.carrying := by
    funext x; cases k : x.state <;> simp [Booking.carrying, k]
  rw [(bookingOrder_perm m).countP_eq, carrying, State.countBookings, table, List.countP_map]
  rfl

/-! ## The last bookings close (R17, R23) -/

/-- A settled record that closes with room for its bill is CLOSED at once. -/
theorem closeRecord_room (why : CutReason) (c : Booking) (settled : c.settled = true) (waits : v.billWaits b = false)
    (room : v.bills.length < 64) :
    let z := c.atClosing why v.sec
    (v.closeRecord b c why).booking b = some { z with state := .closed } ∧
      (v.closeRecord b c why).bills = v.bills ++ [billOf b z (v.tariff z.tariff)] ∧
      (v.closeRecord b c why).billWaiting = v.billWaiting := by
  intro z
  have rest := removeFlows_rest b v
  let u := (v.removeFlows b).setBooking b (some z)
  have here : u.booking b = some z := by simp [u]
  have bills : u.bills = v.bills := by show (v.removeFlows b).bills = _; rw [rest]
  have waiting : u.billWaiting = v.billWaiting := by show (v.removeFlows b).billWaiting = _; rw [rest]
  have tariff : u.tariff z.tariff = v.tariff z.tariff := by show (v.removeFlows b).tariff _ = _; rw [rest]; rfl
  have k := settleBooking_room here rfl ((atClosing_settled ..).trans settled) (by rw [State.billWaits, waiting]; exact waits)
    (by rw [bills]; exact room)
  rw [bills, waiting, tariff] at k
  exact k

/-- A record that a restart closes with its bill (R17, R23). -/
def RestartClosed (s t : State) (b : BookingIx) (x : Booking) : Prop :=
  let z := x.atClosing .restart s.sec
  t.booking b = some { z with state := .closed } ∧ billOf b z (s.tariff z.tariff) ∈ t.bills

/-- The records the scheduler finds in `l` are as an accepted RESTART left them, settled and with room for their bills. -/
structure ReadyToClose (l : List BookingIx) (s : State) : Prop where
  restart : s.restart = true
  waiting : s.billWaiting = []
  marked : ∀ b ∈ l, ∀ x, s.booking b = some x → x.carrying = true → x.restartClose = true ∧ x.settled = true
  room : s.bills.length + l.countP s.carries ≤ 64

theorem transition_idle (idle : x.carrying = false) (now idleClose : Nat) : x.transition now idleClose true = .stay := by
  cases k : x.state <;> simp [Booking.carrying, k] at idle <;> simp [Booking.transition, Booking.confirmedStep, k]

theorem scheduleOne_idle (restart : s.restart = true) (h : s.carries b = false) (m : Moment) : s.scheduleOne m b = s := by
  cases hx : s.booking b with
  | none => simp [State.scheduleOne, hx]
  | some x =>
    have idle : x.carrying = false := by simpa [State.carries, hx] using h
    exact scheduleOne_stay hx (by rw [restart]; exact transition_idle idle ..) m

/-- During a restart the scheduler leaves a record that does not carry as it is. -/
theorem schedule_idle (restart : s.restart = true) (h : s.carries b = false) : (s.schedule m).booking b = s.booking b := by
  obtain ⟨v, w, e1, k1, hw, e2, -⟩ := schedule_around m b s
  rw [scheduleOne_idle (k1.calm.restart.trans restart) (by rw [State.carries, e1.booking]; exact h)] at hw
  rw [e2.booking, hw, e1.booking]

/-- One of them taken. -/
theorem scheduleOne_closes {l : List BookingIx} (h : ReadyToClose (b :: l) s) (hx : s.booking b = some x)
    (carrying : x.carrying = true) (m : Moment) :
    RestartClosed s (s.scheduleOne m b) b x ∧ (s.scheduleOne m b).billWaiting = [] ∧
      (s.scheduleOne m b).bills.length = s.bills.length + 1 := by
  obtain ⟨marked, settled⟩ := h.marked b (List.mem_cons_self ..) x hx carrying
  have state : x.state ∈ [.armed, .live, .overrun] := by simpa [Booking.carrying] using carrying
  have taken : s.scheduleOne m b = s.closeRecord b x .restart := by
    simp only [State.scheduleOne, hx, transition_restart state marked]
    rfl
  have here : s.carries b = true := by simp [State.carries, hx, carrying]
  have room := h.room
  rw [List.countP_cons_of_pos here] at room
  obtain ⟨record, bills, waiting⟩ := closeRecord_room (b := b) .restart x settled
    (by simp [State.billWaits, h.waiting]) (by omega : s.bills.length < 64)
  rw [taken]
  exact ⟨⟨record, by rw [bills]; simp⟩, waiting.trans h.waiting, by rw [bills]; simp⟩

theorem foldl_closes (m : Moment) {l : List BookingIx} (nodup : l.Nodup) (h : ReadyToClose l s) :
    let t := l.foldl (fun s b => s.scheduleOne m b) s
    t.billWaiting = [] ∧ t.bills.length = s.bills.length + l.countP s.carries ∧
      ∀ b ∈ l, ∀ x, s.booking b = some x → x.carrying = true → RestartClosed s t b x := by
  induction l generalizing s with
  | nil => exact ⟨h.waiting, rfl, nofun⟩
  | cons c l ih =>
    obtain ⟨fresh, nodup⟩ := List.nodup_cons.1 nodup
    have keeps := schedulerKeeps_scheduleOne m c s
    have others : ∀ b ∈ l, (s.scheduleOne m c).booking b = s.booking b := fun b hb =>
      scheduleOne_other m (fun e : b = c => fresh (e ▸ hb)) s
    have count : l.countP (s.scheduleOne m c).carries = l.countP s.carries :=
      List.countP_congr fun b hb => by rw [State.carries, others b hb]; rfl
    have head : (s.scheduleOne m c).billWaiting = [] ∧
        (s.scheduleOne m c).bills.length = s.bills.length + (if s.carries c then 1 else 0) ∧
        ∀ x, s.booking c = some x → x.carrying = true → RestartClosed s (s.scheduleOne m c) c x := by
      cases k : s.carries c with
      | false =>
        rw [scheduleOne_idle h.restart k]
        refine ⟨h.waiting, rfl, fun x hx carrying => ?_⟩
        simp [State.carries, hx, carrying] at k
      | true =>
        obtain ⟨x, hx, carrying⟩ := (Option.any_eq_true ..).1 k
        obtain ⟨closed, waiting, bills⟩ := scheduleOne_closes h hx carrying m
        refine ⟨waiting, bills, fun y hy _ => ?_⟩
        rw [hx] at hy
        cases hy
        exact closed
    obtain ⟨waiting, bills, closed⟩ := head
    have room := h.room
    rw [List.countP_cons] at room ⊢
    have ready : ReadyToClose l (s.scheduleOne m c) :=
      ⟨keeps.calm.restart.trans h.restart, waiting,
        fun b hb x hx => h.marked b (List.mem_cons_of_mem _ hb) x (by rw [← others b hb]; exact hx), by omega⟩
    obtain ⟨waiting', bills', closed'⟩ := ih nodup ready
    refine ⟨waiting', by rw [List.foldl_cons, bills', bills, count]; omega, fun b hb x hx carrying => ?_⟩
    rw [List.foldl_cons]
    rcases List.mem_cons.1 hb with rfl | hb
    · obtain ⟨record, bill⟩ := closed x hx carrying
      exact ⟨(foldl_scheduleOne_other m fresh _).trans record, (schedulerKeeps_foldl m l _).bills.subset bill⟩
    · have k := closed' b hb x ((others b hb).trans hx) carrying
      rwa [RestartClosed, keeps.calm.sec, keeps.calm.tariff] at k

/-! ## The completion (R24) -/

theorem keepsSettings_secondEnded (m : Moment) (s : State) : KeepsSettings s (s.secondEnded m) := by
  have rest := secondEnded_rest m s
  refine ⟨?_, fun p => ?_, ?_, ?_, ?_, ?_, ?_, ?_, ?_, ?_, ?_, ?_⟩
  on_goal 2 =>
    have port : (s.secondEnded m).port p = (s.port p).boundary := by rw [rest]; simp [State.port]
    rw [port]; rfl
  all_goals rw [rest]

theorem scheduled_finishes (restart : s.restart = true)
    (free : ∀ b, (s.schedule m).stateOf b ∉ [some .armed, some .live, some .overrun, some .closing]) :
    s.scheduled m = ((s.schedule m).flush m).finishRestart := by
  have running := (schedulerKeeps_schedule m s).calm.restart.trans restart
  have none_ : (s.schedule m).anyBooking Booking.holdsRestart = false := by
    rw [← Bool.not_eq_true, anyBooking_iff]
    rintro ⟨b, r, hr, holds⟩
    have := free b
    rw [stateOf_of_booking hr] at this
    cases k : r.state <;> simp_all [Booking.holdsRestart, Booking.carrying]
  unfold State.scheduled State.tryFinishRestart
  rw [if_pos (by simp [running, none_])]

theorem flush_none (h : s.raised = []) (m : Moment) : s.flush m = s := by
  have order : s.raiseOrder m = [] := by
    have k := (raiseOrder_spec m s).1
    rw [h] at k
    exact k.eq_nil
  unfold State.flush
  rw [order]
  show { s with raised := [] } = s
  rw [← h]

/-- A boundary whose scheduler leaves no booking that holds the restart open completes it. -/
theorem restart_completes (restart : s.restart = true) (before : Work .watching (s.secondEnded m) v)
    (initial : (∀ i : CounterIx, (v.scheduled m).counter i = .initial) → w = v.scheduled m)
    (free : ∀ b, (v.schedule m).stateOf b ∉ [some .armed, some .live, some .overrun, some .closing]) :
    RestartDone s (w.flush m) ∧ (∀ b, (w.flush m).booking b = ((v.schedule m).booking b).bind Booking.afterRestart) ∧
      (w.flush m).bills = (v.schedule m).bills ∧ (w.flush m).billWaiting = (v.schedule m).billWaiting := by
  have rest := secondEnded_rest m s
  have running : v.restart = true := before.restart.trans (by rw [rest]; exact restart)
  have keeps := schedulerKeeps_schedule m v
  have flushed := sameTables_flush m (v.schedule m)
  have onward := before.onward.trans (onward_scheduled m v)
  have finished := scheduled_finishes running free
  have done : w = ((v.schedule m).flush m).finishRestart := by
    rw [← finished]
    refine initial fun i => ?_
    rw [finished]
    simp [State.counter, State.finishRestart]
  have fresh : w.raised = [] := by rw [done]; rfl
  rw [flush_none fresh]
  rw [finished, ← done] at onward
  have port : ∀ p, (s.secondEnded m).port p = (s.port p).boundary := fun p => by rw [rest]; simp [State.port]
  obtain ⟨flight, waiting⟩ := before.probes (by rw [rest]; exact restart)
  obtain ⟨flight', waiting'⟩ := keeps.probes running
  have probes : ((v.schedule m).flush m).flight = s.flight ∧ ((v.schedule m).flush m).probeWaiting = s.probeWaiting ∧
      ((v.schedule m).flush m).lastResults = s.lastResults := by
    rw [flush_rest]
    exact ⟨flight'.trans (flight.trans (by rw [rest])), waiting'.trans (waiting.trans (by rw [rest])),
      keeps.lastResults.trans (before.lastResults.trans (by rw [rest]))⟩
  have media : ∀ p, SameMedia (s.port p) (w.port p) := fun p => by
    have k := onward.media p
    rw [port] at k
    exact k
  have kept := (keepsSettings_secondEnded m s).trans onward.keeps
  clear onward
  subst done
  refine ⟨⟨kept, rfl, rfl, ⟨rfl, rfl⟩, ⟨rfl, rfl⟩, fun i => ?_, rfl, fun i => ?_, rfl, probes, media⟩, fun b => ?_,
    flushed.bills, flushed.billWaiting⟩
  · simp [State.counter, State.finishRestart]
  · simp [State.finishRestart]
  · rw [finishRestart_booking, flushed.booking]

/-! ## A restart that finds no booking open -/

/-- No booking holds a restart open. -/
def State.NoneOpen (s : State) : Prop :=
  ∀ (b : BookingIx) (x : Booking), s.booking b = some x → x.state ∉ [.armed, .live, .overrun, .closing]

theorem State.NoneOpen.carries (h : s.NoneOpen) (b : BookingIx) : s.carries b = false := by
  rw [State.carries]
  cases hx : s.booking b with
  | none => rfl
  | some x =>
    have k := h b x hx
    simp only [List.mem_cons, List.not_mem_nil, or_false] at k
    simp only [Option.any_some, Booking.carrying, decide_eq_false_iff_not]
    tauto

theorem State.NoneOpen.stateOf (h : s.NoneOpen) (b : BookingIx) :
    s.stateOf b ∉ [some .armed, some .live, some .overrun, some .closing] := by
  rw [State.stateOf]
  cases hx : s.booking b with
  | none => simp
  | some x => simpa using h b x hx

/-- Neither the second that ends nor the watch counters touch such a booking. -/
theorem State.NoneOpen.booking (h : s.NoneOpen) (before : Work .watching (s.secondEnded m) v) (b : BookingIx) :
    v.booking b = s.booking b := by
  have ended : (s.secondEnded m).booking b = s.booking b := by
    rw [secondEnded_booking]
    cases hx : s.booking b with
    | none => rfl
    | some x =>
      have k := h b x hx
      rw [Option.map_some, classified_of_state (by rintro e; simp [e] at k) (by rintro e; simp [e] at k)]
  rw [before.booking, ended]
  intro r hr reach
  rw [ended] at hr
  have k := h b r hr
  simp only [Reach.watching, List.mem_cons, List.not_mem_nil, or_false] at reach k
  tauto

theorem schedule_none (restart : s.restart = true) (idle : ∀ b, s.carries b = false) : s.schedule m = s := by
  unfold State.schedule
  generalize bookingOrder m = l
  induction l with
  | nil => rfl
  | cons b l ih => rw [List.foldl_cons, scheduleOne_idle restart (idle b), ih]

/-! ## A restart whose last bookings close -/

/-- The scheduler's start of a boundary without actions. -/
structure CountedStart (s v : State) : Prop where
  restart : v.restart = s.restart
  bills : v.bills = s.bills
  billWaiting : v.billWaiting = s.billWaiting
  sec : v.sec = s.nextSecond
  tariff : ∀ i, v.tariff i = s.tariff i
  booking : ∀ b, v.booking b = (s.booking b).map (·.classified s)

theorem countedStart (before : Work .counting (s.secondEnded m) v) : CountedStart s v := by
  have rest := secondEnded_rest m s
  exact {
    restart := before.restart.trans (by rw [rest])
    bills := before.bills.trans (by rw [rest])
    billWaiting := before.billWaiting.trans (by rw [rest])
    sec := before.calm.sec.trans (by rw [rest])
    tariff := fun i => (before.calm.tariff i).trans (by rw [rest]; rfl)
    booking := fun b => (before.sameTables.booking b).trans (secondEnded_booking m b s) }

theorem CountedStart.carries (h : CountedStart s v) : v.carries = s.carries := by
  funext b
  rw [State.carries, h.booking, Option.any_map, State.carries]
  congr 1
  funext x
  simp [Booking.carrying, classified_state]

/-- Every booking that carries is marked by the restart and settled, and none is CLOSING. -/
def State.AllMarked (s : State) : Prop :=
  ∀ (b : BookingIx) (x : Booking), s.booking b = some x → x.state ≠ .closing ∧
    (x.state ∈ [.armed, .live, .overrun] → x.restartClose = true ∧ x.settled = true)

theorem CountedStart.ready (h : CountedStart s v) (restart : s.restart = true) (empty : s.billWaiting = [])
    (marked : s.AllMarked) (m : Moment)
    (room : s.bills.length + s.countBookings (fun x => decide (x.state ∈ [.armed, .live, .overrun])) ≤ 64) :
    ReadyToClose (bookingOrder m) v := by
  refine ⟨h.restart.trans restart, h.billWaiting.trans empty, fun b _ y hy carrying => ?_, ?_⟩
  · rw [h.booking] at hy
    obtain ⟨x, hx, rfl⟩ := Option.map_eq_some_iff.1 hy
    have state : x.state ∈ [.armed, .live, .overrun] := by simpa [Booking.carrying, classified_state] using carrying
    obtain ⟨close, settled⟩ := (marked b x hx).2 state
    exact ⟨by rw [classified_rest]; exact close, (classified_settled ..).trans settled⟩
  · rw [h.bills, h.carries, ← countBookings_carrying]
    exact room

/-- Once they have closed, no booking holds the restart open. -/
theorem CountedStart.free (h : CountedStart s v) (restart : s.restart = true) (marked : s.AllMarked)
    (closed : ∀ b y, v.booking b = some y → y.carrying = true → RestartClosed v (v.schedule m) b y) (b : BookingIx) :
    (v.schedule m).stateOf b ∉ [some .armed, some .live, some .overrun, some .closing] := by
  cases k : v.carries b with
  | true =>
    obtain ⟨y, hy, carrying⟩ := (Option.any_eq_true ..).1 k
    rw [stateOf_of_booking (closed b y hy carrying).1]
    simp
  | false =>
    rw [State.stateOf, schedule_idle (h.restart.trans restart) k, h.booking]
    rw [h.carries, State.carries] at k
    cases hx : s.booking b with
    | none => simp
    | some x =>
      have open_ := (marked b x hx).1
      rw [hx, Option.any_some, Booking.carrying, decide_eq_false_iff_not] at k
      simp only [Option.map_some, classified_state, List.mem_cons, List.not_mem_nil, or_false, Option.some_inj]
      tauto

/-- The completion leaves a booking the restart closed, with its bill (R40, R154). -/
theorem RestartClosed.billedAs (h : RestartClosed v u b x) (ended : t.booking b = (u.booking b).bind Booking.afterRestart)
    (bills : t.bills = u.bills) (tariff : ∀ i, t.tariff i = v.tariff i) :
    ∃ y, t.booking b = some y ∧ y.fixedTerms = x.fixedTerms ∧ y.state = .closed ∧ y.cut = some .restart ∧
      y.closeSecond = some v.sec ∧ ∃ k ∈ t.bills, BilledAs b y (t.tariff y.tariff) k := by
  obtain ⟨record, bill⟩ := h
  rw [record, Option.bind_some, afterRestart_closed rfl] at ended
  have terms := atClosing_fixedTerms x .restart v.sec
  have cut : (x.atClosing .restart v.sec).cut = some .restart := rfl
  have second : (x.atClosing .restart v.sec).closeSecond = some v.sec := rfl
  generalize x.atClosing .restart v.sec = z at ended bill terms cut second
  obtain ⟨y, hy, same, state⟩ : ∃ y, t.booking b = some y ∧ SameRun z y ∧ y.state = .closed := by
    refine ⟨_, ended, ?_, ?_⟩ <;> split <;> rfl
  have price : t.tariff y.tariff = v.tariff z.tariff := by rw [tariff, same]
  refine ⟨y, hy, ?_, state, ?_, ?_, _, bills ▸ bill, price ▸ ?_⟩
  · rw [← terms, same]; rfl
  · rw [← cut, same]
  · rw [← second, same]
  · exact (billOf_billedAs b cut (by simp) second _).sameRun same

/-- Settles O21, first for a restart that finds no booking open, then for one that closes the last ones. -/
theorem restartCompletes : Obligations.RestartCompletes := by
  refine ⟨fun m s restart none_ => ?_, fun m s restart quiet empty marked room => ?_⟩
  · have none_ : s.NoneOpen := none_
    obtain ⟨v, w, before, -, initial, run⟩ := secondBoundary_parts m s
    have rest := secondEnded_rest m s
    have running : v.restart = true := before.restart.trans (by rw [rest]; exact restart)
    have booking := none_.booking before
    have open_ : v.NoneOpen := fun b x hx => none_ b x (by rw [← booking]; exact hx)
    have still : v.schedule m = v := schedule_none running open_.carries
    obtain ⟨done, table, bills, waiting⟩ := restart_completes restart before initial (by rw [still]; exact open_.stateOf)
    rw [still] at table bills waiting
    refine ⟨w.flush m, run, done, fun b => ?_, ?_, ?_⟩
    · rw [table, booking]; rfl
    · rw [bills, before.bills, rest]
    · rw [waiting, before.billWaiting, rest]
  · obtain ⟨v, w, before, -, initial, run⟩ := secondBoundary_counted quiet m
    have start := countedStart before
    have running := start.restart.trans restart
    obtain ⟨none_, count, closed⟩ := foldl_closes m (nodup_bookingOrder m) (start.ready restart empty marked m room)
    have closed : ∀ b y, v.booking b = some y → y.carrying = true → RestartClosed v (v.schedule m) b y :=
      fun b => closed b (mem_bookingOrder m b)
    obtain ⟨done, table, bills, waiting⟩ :=
      restart_completes restart before.watching initial (start.free restart marked closed)
    have keeps := schedulerKeeps_schedule m v
    have idle : ∀ b, s.carries b = false → (w.flush m).booking b = ((s.booking b).map (·.classified s)).bind
        Booking.afterRestart := fun b k => by
      rw [table, schedule_idle running (by rw [start.carries]; exact k), start.booking]
    refine ⟨w.flush m, run, done, waiting.trans none_, ?_, ?_, fun b => ⟨fun x hx state => ?_, fun x hx state => ?_,
      fun state => ?_⟩⟩
    · rw [bills, ← start.bills]; exact keeps.bills
    · rw [bills, ← start.bills, countBookings_carrying m, ← start.carries]; exact count
    · have hy : v.booking b = some (x.classified s) := by rw [start.booking, hx]; rfl
      have carrying : (x.classified s).carrying = true := by simpa [Booking.carrying, classified_state] using state
      have tariff : ∀ i, (w.flush m).tariff i = v.tariff i := fun i => by
        rw [State.tariff, done.kept.tariffs]; exact (start.tariff i).symm
      have billed := (closed b _ hy carrying).billedAs (table b) bills tariff
      rwa [classified_fixedTerms, start.sec] at billed
    · rw [idle b (by simp [State.carries, hx, Booking.carrying, state]), hx, Option.map_some,
        classified_of_state (by simp [state]) (by simp [state]), Option.bind_some, afterRestart_closed state]
    · cases hx : s.booking b with
      | none => rw [idle b (by simp [State.carries, hx]), hx]; rfl
      | some x =>
        simp only [stateOf_of_booking hx, List.mem_cons, List.not_mem_nil, or_false, Option.some_inj, not_or] at state
        obtain ⟨h1, h2, h3, h4⟩ := state
        rw [idle b (by simp [State.carries, hx, Booking.carrying, h1, h2, h3]), hx]
        exact afterRestart_none (by rw [classified_state]; exact h4)

end Sys2Proof.Machine
end

section
/-! Every step keeps the laws of the state (R25, R43, R44, R55, R56, R62, R96, R155, R159, R161, R163). -/

namespace Sys2Proof.Machine

variable {s t : State}

/-- A request's moment, then the request taken. -/
theorem keeps_request {c : Instr} {r : Req} (h : c.sender = some r) (k : s.Inv) : Keeps (exec c s) := by
  rw [exec_request h]
  exact keeps_next (inv_takeCommand (inv_advance k r.m) c)

theorem keeps_exec (c : Instr) (k : s.Inv) : Keeps (exec c s) := by
  cases hs : c.sender with
  | some r => exact keeps_request hs k
  | none =>
    cases c with
    | powerOn straps => exact keeps_next (powerOn_inv ..)
    | secondBoundary m => exact inv_execSecondBoundary k m
    | lightLost m p => exact inv_execLightLost k m p
    | lightReturns m p => exact inv_execLightReturns k m p
    | frameReceived m p bytes => exact keeps_next ((later_flush ..).inv (inv_receive (inv_advance k m) m p bytes))
    | slotStart m p => exact inv_execSlotStart k m p
    | transmitterPasses m => exact inv_execTransmitterPasses k m
    | silenceTimerExpiry m b l => exact inv_execSilenceTimerExpiry k m b l
    | identTimeoutExpiry m b l => exact inv_execIdentTimeoutExpiry k m b l
    | phaseTimerExpiry m => exact inv_execPhaseTimerExpiry k m
    | traceDelivered m x => exact inv_execTraceDelivered k m x
    | admissionCompletion m => exact inv_execAdmissionCompletion k m
    | _ => cases hs

/-- The laws do not read the queue of commands. -/
theorem inv_pending (k : s.Inv) (l : List Instr) : State.Inv { s with pending := l } :=
  ⟨k.control, k.media, k.admission, k.probe, k.bill, k.flow, k.operator⟩

/-- Settles O6: an empty queue idles, and each command keeps the laws. -/
theorem stepsKeepTheLaws : Obligations.StepsKeepTheLaws := by
  intro s t k h
  unfold step at h
  split at h
  · exact keeps_next k t h
  · next c rest _ => exact keeps_exec c (inv_pending k rest) t h

end Sys2Proof.Machine
end

section
/-! The evaluation points of the capacity check (R29, R30): the load with the candidate rises only where a window begins, so
the earliest failing second of the candidate's window is an evaluation point. -/

namespace Sys2Proof.Machine

variable {cand : Claim} {seen : List Claim} {dir : Direction} {p : PortIx} {bookable : Nat}

/-! ## The least of a list -/

theorem leastOf_eq_none {l : List Nat} : leastOf l = none ↔ l = [] := by
  cases l with
  | nil => simp [leastOf]
  | cons x l => simp only [leastOf, reduceCtorEq, iff_false]; split <;> simp

theorem leastOf_spec {l : List Nat} {n : Nat} (h : leastOf l = some n) : n ∈ l ∧ ∀ x ∈ l, n ≤ x := by
  induction l generalizing n with
  | nil => simp [leastOf] at h
  | cons x l ih =>
    rw [leastOf] at h
    split at h
    · next e =>
      cases h
      simp [leastOf_eq_none.1 e]
    · next y e =>
      cases h
      obtain ⟨member, least⟩ := ih e
      refine ⟨?_, ?_⟩
      · rcases Nat.le_total x y with le | le
        · simp [Nat.min_eq_left le]
        · simp [Nat.min_eq_right le, member]
      · rintro z (_ | ⟨_, hz⟩)
        · exact Nat.min_le_left ..
        · exact (Nat.min_le_right ..).trans (least z hz)

theorem leastOf_eq_some {l : List Nat} {n : Nat} : leastOf l = some n ↔ n ∈ l ∧ ∀ x ∈ l, n ≤ x := by
  refine ⟨leastOf_spec, fun ⟨member, least⟩ => ?_⟩
  cases h : leastOf l with
  | none => simp [leastOf_eq_none.1 h] at member
  | some m =>
    obtain ⟨member', least'⟩ := leastOf_spec h
    rw [Nat.le_antisymm (least' n member) (least m member')]

/-! ## The summed rate of a list of claims -/

/-- The summed rate of the claims of `l` that load port `p` in a direction in second `n` (R29). -/
def rateAt (l : List Claim) (dir : Direction) (p : PortIx) (n : Nat) : Nat :=
  ((l.filter fun c => c.loads dir p && c.holdsAt n).map (·.rate)).sum

theorem loadAt_eq (cand : Claim) (seen : List Claim) (dir : Direction) (p : PortIx) (n : Nat) :
    loadAt cand seen dir p n = rateAt seen dir p n + cand.rate := rfl

theorem rateAt_sublist {l k : List Claim} (h : l.Sublist k) (dir : Direction) (p : PortIx) (n : Nat) :
    rateAt l dir p n ≤ rateAt k dir p n := ((h.filter _).map _).sum_le_sum (by simp)

/-- Where every claim that loads the port in second `i` also holds second `n`, the load is no less in `n`. -/
theorem rateAt_mono {l : List Claim} {i n : Nat}
    (h : ∀ c ∈ l, c.loads dir p = true → c.holdsAt i = true → c.holdsAt n = true) :
    rateAt l dir p i ≤ rateAt l dir p n := by
  refine List.Sublist.sum_le_sum (List.Sublist.map _ ?_) (by simp)
  have both : l.filter (fun c => c.loads dir p && c.holdsAt i) =
      (l.filter fun c => c.loads dir p && c.holdsAt n).filter fun c => c.holdsAt i := by
    rw [List.filter_filter]
    refine List.filter_congr fun c hc => ?_
    have := h c hc
    grind
  rw [both]
  exact List.filter_sublist

/-! ## The evaluation points (R30) -/

theorem mem_evaluationPoints {n : Nat} : n ∈ evaluationPoints cand seen dir p ↔
    n = cand.lo ∨ ∃ c ∈ seen, c.loads dir p = true ∧ cand.lo < c.lo ∧ c.lo < cand.hi ∧ c.lo = n := by
  simp [evaluationPoints, and_assoc]

theorem evaluationPoint_inWindow (window : cand.lo < cand.hi) {n : Nat} (h : n ∈ evaluationPoints cand seen dir p) :
    cand.lo ≤ n ∧ n < cand.hi := by
  rcases mem_evaluationPoints.1 h with rfl | ⟨c, -, -, lo, hi, rfl⟩
  · exact ⟨Nat.le_refl _, window⟩
  · exact ⟨lo.le, hi⟩

/-- Of each second of the window, the last evaluation point up to it. -/
theorem lastPoint {i : Nat} (lo : cand.lo ≤ i) : ∃ n ∈ evaluationPoints cand seen dir p, n ≤ i ∧
    ∀ k ∈ evaluationPoints cand seen dir p, k ≤ i → k ≤ n := by
  have first : cand.lo ∈ (evaluationPoints cand seen dir p).toFinset.filter (· ≤ i) := by simp [evaluationPoints, lo]
  obtain ⟨n, member, greatest⟩ := Finset.exists_max_image _ id ⟨_, first⟩
  simp only [Finset.mem_filter, List.mem_toFinset] at member greatest
  exact ⟨n, member.1, member.2, fun k hk le => greatest k ⟨hk, le⟩⟩

/-- From the last evaluation point on no window begins, so the load is no less there. -/
theorem loadAt_le_point {i : Nat} (lo : cand.lo ≤ i) (hi : i < cand.hi) : ∃ n ∈ evaluationPoints cand seen dir p, n ≤ i ∧
    loadAt cand seen dir p i ≤ loadAt cand seen dir p n := by
  obtain ⟨n, member, le, greatest⟩ := lastPoint (seen := seen) (dir := dir) (p := p) lo
  refine ⟨n, member, le, Nat.add_le_add_right (rateAt_mono fun c hc loads holds => ?_) _⟩
  simp only [Claim.holdsAt, decide_eq_true_eq] at holds ⊢
  refine ⟨?_, by omega⟩
  by_cases begun : c.lo ≤ cand.lo
  · exact begun.trans (greatest _ (mem_evaluationPoints.2 (.inl rfl)) lo)
  · exact greatest _ (mem_evaluationPoints.2 (.inr ⟨c, hc, loads, by omega, by omega, rfl⟩)) holds.1

/-! ## The answer of the check -/

theorem failingSecond_none (window : cand.lo < cand.hi) : failingSecond cand seen dir p bookable = none ↔
    ∀ i, cand.lo ≤ i → i < cand.hi → loadAt cand seen dir p i ≤ bookable := by
  simp only [failingSecond, leastOf_eq_none, List.filter_eq_nil_iff, decide_eq_true_eq, Nat.not_lt]
  refine ⟨fun h i lo hi => ?_, fun h n hn => ?_⟩
  · obtain ⟨n, member, -, le⟩ := loadAt_le_point (seen := seen) (dir := dir) (p := p) lo hi
    exact le.trans (h n member)
  · obtain ⟨lo, hi⟩ := evaluationPoint_inWindow window hn
    exact h n lo hi

theorem failingSecond_some (window : cand.lo < cand.hi) {n : Nat} : failingSecond cand seen dir p bookable = some n ↔
    cand.lo ≤ n ∧ n < cand.hi ∧ bookable < loadAt cand seen dir p n ∧
      ∀ i, cand.lo ≤ i → i < n → loadAt cand seen dir p i ≤ bookable := by
  simp only [failingSecond, leastOf_eq_some, List.mem_filter, decide_eq_true_eq]
  refine ⟨fun ⟨⟨point, fails⟩, least⟩ => ?_, fun ⟨lo, hi, fails, first⟩ => ?_⟩
  · obtain ⟨lo, hi⟩ := evaluationPoint_inWindow window point
    refine ⟨lo, hi, fails, fun i lo' before => ?_⟩
    obtain ⟨k, member, le, load⟩ := loadAt_le_point (seen := seen) (dir := dir) (p := p) lo' (before.trans hi)
    by_contra exceeds
    have := least k ⟨member, by omega⟩
    omega
  · obtain ⟨k, member, le, load⟩ := loadAt_le_point (seen := seen) (dir := dir) (p := p) lo hi
    have same : k = n := by
      by_contra ne
      have := first k (evaluationPoint_inWindow window member).1 (by omega)
      omega
    refine ⟨⟨same ▸ member, fails⟩, fun x ⟨point, exceeds⟩ => ?_⟩
    by_contra before
    have := first x (evaluationPoint_inWindow window point).1 (by omega)
    omega

/-- Settles O56: every failing second has an evaluation point up to it that fails too. -/
theorem evaluationPointsSuffice : Obligations.EvaluationPointsSuffice :=
  fun _ _ _ _ _ window => ⟨fun _ => failingSecond_some window, failingSecond_none window⟩

end Sys2Proof.Machine
end

section
/-! What admission reads of the booking table (R28, R31), and the work that leaves it as it is: no record changes its terms,
its allowance or its being PENDING, none begins to count, and the entries and the ports' capacities stand. -/

namespace Sys2Proof.Machine
open Sys2Proof.Config

variable {s t u : State} {b : BookingIx} {r r' : Booking}

/-! ## What admission reads of a record -/

/-- The terms of a record with its allowance, which a scan makes its claim of (R28). -/
def Booking.asks (r : Booking) := (r.fixedTerms, r.allowance)

/-- What record `b` asks for, or none when it is FREE. -/
def State.asksOf (s : State) (b : BookingIx) := (s.booking b).map Booking.asks

theorem claim_of_asks (h : r'.asks = r.asks) (n : Nat) : r'.claim n = r.claim n := by
  simp only [Booking.asks, Booking.fixedTerms, Prod.mk.injEq, List.cons.injEq, and_true] at h
  obtain ⟨⟨⟨-, -, rate, start, finish, lead⟩, legs, dests⟩, -⟩ := h
  have keys := congrArg (List.map fun k : PortIx × Nat × Option PatternIx × IdentPolicy => (k.1, k.2.1)) legs
  simp only [List.map_map, Function.comp_def] at keys
  simp [Booking.claim, Booking.windowStart, rate, start, finish, lead, keys, dests]

theorem allowance_of_asks (h : r'.asks = r.asks) : r'.allowance = r.allowance := congrArg Prod.snd h

theorem asks_bare (r : Booking) : r.bare.asks = r.asks := Prod.ext (fixedTerms_bare r) rfl

theorem asksOf_of_booking (h : s.booking b = some r) : s.asksOf b = some r.asks := by rw [State.asksOf, h]; rfl

theorem asksOf_congr (h : t.booking b = s.booking b) : t.asksOf b = s.asksOf b := by rw [State.asksOf, h]; rfl

theorem asksOf_eq_none : s.asksOf b = none ↔ s.stateOf b = none := by simp [State.asksOf, State.stateOf]

theorem Later.asksOf (h : Later s t) (b : BookingIx) : t.asksOf b = s.asksOf b := by
  have k := congrArg (Option.map Booking.asks) (h.bare b)
  simpa [State.asksOf, Option.map_map, Function.comp_def, asks_bare] using k

/-- The states admission counts (R6). -/
def countedStates : List BookingState := [.confirmed, .armed, .live, .overrun, .closing]

theorem counted_iff (r : Booking) : r.counted = true ↔ r.state ∈ countedStates := by
  simp [Booking.counted, countedStates]

theorem countedClaim_of_booking (h : s.booking b = some r) :
    s.countedClaim b = if r.counted then some (r.claim r.allowance) else none := by
  rw [State.countedClaim, h]; rfl

theorem countedClaim_of_free (h : s.booking b = none) : s.countedClaim b = none := by rw [State.countedClaim, h]; rfl

theorem countedClaim_congr (h : t.booking b = s.booking b) : t.countedClaim b = s.countedClaim b := by
  rw [State.countedClaim, h]; rfl

/-! ## Work outside admission -/

/-- Between the two states nothing differs that admission reads, but for records that count no longer. -/
structure Steady (s t : State) : Prop where
  asks : ∀ b, t.asksOf b = s.asksOf b
  pending : ∀ b, t.stateOf b = some .pending ↔ s.stateOf b = some .pending
  counted : ∀ b, t.stateOf b ∈ countedStates.map some → s.stateOf b ∈ countedStates.map some
  scan : t.scan = s.scan
  waiting : t.waiting = s.waiting
  bookable : ∀ p, (t.port p).bookable = (s.port p).bookable

theorem Steady.refl (s : State) : Steady s s := ⟨fun _ => rfl, fun _ => .rfl, fun _ => id, rfl, rfl, fun _ => rfl⟩

theorem Steady.trans (h : Steady s t) (k : Steady t u) : Steady s u where
  asks b := (k.asks b).trans (h.asks b)
  pending b := (k.pending b).trans (h.pending b)
  counted b := h.counted b ∘ k.counted b
  scan := k.scan.trans h.scan
  waiting := k.waiting.trans h.waiting
  bookable p := (k.bookable p).trans (h.bookable p)

theorem Steady.after (k : Steady t u) (h : Steady s t) : Steady s u := h.trans k

theorem steady_foldl {α : Type} {f : State → α → State} (h : ∀ s x, Steady s (f s x)) (l : List α) (s : State) :
    Steady s (l.foldl f s) := by
  induction l generalizing s with
  | nil => exact .refl s
  | cons x l ih => exact (h s x).trans (ih _)

theorem Steady.of_eq (bookings : t.bookings = s.bookings) (scan : t.scan = s.scan) (waiting : t.waiting = s.waiting)
    (bookable : ∀ p, (t.port p).bookable = (s.port p).bookable) : Steady s t where
  asks b := asksOf_congr (State.booking_congr bookings b)
  pending b := by rw [stateOf_congr bookings]
  counted b := by rw [stateOf_congr bookings]; exact id
  scan := scan
  waiting := waiting
  bookable := bookable

theorem Steady.entries (h : Steady s t) : t.entries = s.entries := by simp [State.entries, h.scan, h.waiting]

/-- The record and what it asks for stand, in whatever state. -/
theorem Steady.record (h : Steady s t) (hr : s.booking b = some r) : ∃ r', t.booking b = some r' ∧ r'.asks = r.asks := by
  have k := h.asks b
  rw [asksOf_of_booking hr] at k
  exact Option.map_eq_some_iff.1 k

/-- No claim of `t` is new: each is one of `s`. -/
def NoNewClaim (s t : State) : Prop := ∀ b, t.countedClaim b = none ∨ t.countedClaim b = s.countedClaim b

theorem Steady.noNewClaim (h : Steady s t) : NoNewClaim s t := by
  intro b
  cases hs : s.booking b with
  | none =>
    have k := h.asks b
    rw [State.asksOf, State.asksOf, hs, Option.map_none, Option.map_eq_none_iff] at k
    exact .inl (countedClaim_of_free k)
  | some r =>
    obtain ⟨r', ht, asks⟩ := h.record hs
    have counted := h.counted b
    rw [stateOf_of_booking hs, stateOf_of_booking ht] at counted
    simp only [List.mem_map, Option.some_inj, exists_eq_right, ← counted_iff] at counted
    rw [countedClaim_of_booking hs, countedClaim_of_booking ht, claim_of_asks asks, allowance_of_asks asks]
    split
    · next k => rw [if_pos (counted k)]; exact .inr rfl
    · exact .inl rfl

/-! ## One record changed -/

/-- A move of the table from any state but PENDING makes no record PENDING, and none count that did not. -/
theorem counted_of_mayBecome {x y : BookingState} (h : mayBecome (some x) (some y) = true) (hx : x ≠ .pending) :
    y ≠ .pending ∧ (y ∈ countedStates → x ∈ countedStates) := by
  cases x with
  | pending => exact absurd rfl hx
  | _ => revert h; cases y <;> simp [mayBecome, countedStates]

theorem steady_setBooking (hb : s.booking b = some r) (asks : r'.asks = r.asks)
    (moves : r'.state = r.state ∨ r.state ≠ .pending ∧ mayBecome (some r.state) (some r'.state) = true) :
    Steady s (s.setBooking b (some r')) := by
  have state : (r'.state = .pending ↔ r.state = .pending) ∧ (r'.state ∈ countedStates → r.state ∈ countedStates) := by
    rcases moves with e | ⟨settled, move⟩
    · rw [e]; exact ⟨.rfl, id⟩
    · obtain ⟨settled', counted⟩ := counted_of_mayBecome move settled
      exact ⟨by simp [settled, settled'], counted⟩
  refine ⟨fun c => ?_, fun c => ?_, fun c => ?_, rfl, rfl, fun _ => rfl⟩ <;> by_cases e : c = b
  · subst e; rw [asksOf_of_booking hb, State.asksOf, State.setBooking_booking, if_pos rfl]; exact congrArg some asks
  · exact asksOf_congr (by simp [e])
  · subst e; simpa [State.stateOf, hb] using state.1
  · simp [State.stateOf, e]
  · subst e; simpa [State.stateOf, hb] using state.2
  · simp [State.stateOf, e]

theorem steady_updBooking {f : Booking → Booking} (asks : ∀ r, (f r).asks = r.asks) (state : ∀ r, (f r).state = r.state)
    (b : BookingIx) (s : State) : Steady s (s.updBooking b f) := by
  unfold State.updBooking
  split
  · exact .refl s
  · next r hr => exact steady_setBooking hr (asks r) (.inl (state r))

/-! ## The work of an event -/

theorem Later.bookable (h : Later s t) (p : PortIx) : (t.port p).bookable = (s.port p).bookable := by
  have face : (t.port p).face.bookable = (s.port p).face.bookable := by rw [h.face p]
  exact face

/-- The work of an event that settles no state but CLOSING. -/
theorem Later.steady (h : Later s t) (k : Settles s t) : Steady s t where
  asks := h.asksOf
  pending b := by rcases k.states b with e | ⟨e, e'⟩ <;> simp [*]
  counted b := by rcases k.states b with e | ⟨e, e'⟩ <;> simp [*, countedStates]
  scan := h.scan
  waiting := h.waiting
  bookable := h.bookable

theorem Work.steady {R : Reach} (h : Work R s t) : Steady s t := h.later.steady h.quiet.settles

theorem steady_flush (m : Moment) (s : State) : Steady s (s.flush m) := (later_flush ..).steady (quiet_flush ..).settles

theorem steady_takeEarly (m : Moment) (s : State) : Steady s (s.takeEarly m) :=
  (later_takeEarly ..).steady (quiet_takeEarly ..).settles

theorem steady_respond (r : Req) (code : Nat) (res : Result) (body : List Byte) (s : State) :
    Steady s (s.respond r code res body) := (later_respond ..).steady (quiet_respond ..).settles

theorem steady_raise (c : FaultClass) (it : RaiseItems) (d : Option Detail) (s : State) : Steady s (s.raise c it d) :=
  .of_eq rfl rfl rfl fun _ => rfl

theorem steady_elapseTo (i : Nat) (s : State) : Steady s (s.elapseTo i) := .of_eq rfl rfl rfl fun _ => rfl

theorem steady_setPort {p : PortIx} {x : Port} (h : x.bookable = (s.port p).bookable) : Steady s (s.setPort p x) := by
  refine .of_eq rfl rfl rfl fun q => ?_
  rw [State.setPort_port]
  split
  · next e => rw [e, h]
  · rfl

theorem steady_watch (m : Moment) (e : WatchEvent) (s : State) : Steady s (s.watch m e) :=
  (work_watch Reach.all_watches m e s).steady

theorem steady_settleBooking (b : BookingIx) (s : State) : Steady s (s.settleBooking b) :=
  (later_settleBooking ..).steady (settles_settleBooking ..)

theorem steady_endFlight (m : Moment) (f : Flight) (e : ProbeEnd) (s : State) : Steady s (s.endFlight m f e) :=
  (later_endFlight ..).steady (settles_endFlight ..)

theorem steady_endProbeOf (m : Moment) (p : PortIx) (o : ProbeOutcome) (s : State) : Steady s (s.endProbeOf m p o) :=
  (later_endProbeOf ..).steady (settles_endProbeOf ..)

theorem steady_deliver (m : Moment) (f : Flight) (x : Measured) (s : State) : Steady s (s.deliver m f x) := by
  unfold State.deliver
  split
  · split
    · exact steady_endFlight ..
    · exact .of_eq rfl rfl rfl fun _ => rfl
  · split
    · split
      · exact .of_eq rfl rfl rfl fun _ => rfl
      · exact .refl s
    · exact .refl s
  · split <;> exact steady_endFlight ..
  · exact .refl s

/-! ## Light and frames (R49 to R54) -/

theorem steady_setLink (p : PortIx) (link : Link) (s : State) : Steady s (s.setLink p link) := steady_setPort rfl

theorem steady_loseLight (m : Moment) (p : PortIx) (s : State) : Steady s (s.loseLight m p) := by
  dsimp only [State.loseLight]
  have dark := (steady_setLink p .down s).trans (steady_raise .los (.ofPort p) none _)
  have probed := fun t : State => (work_autoProbe (R := .all) p t).steady
  have left : ∀ (x : Bool) (t : State), Steady t (if x = true then t.leaveUp m p else t) := fun x t => by
    split
    · exact (work_leaveUp m p t).steady
    · exact .refl t
  have captured := fun t : State => (work_recapturePort m p t).steady
  cases m.autoFirst
  · exact ((dark.trans (left ..)).trans (captured _)).trans (probed _)
  · exact ((dark.trans (probed _)).trans (left ..)).trans (captured _)

theorem steady_enterLof (m : Moment) (p : PortIx) (s : State) : Steady s (s.enterLof m p) :=
  (((steady_setLink p .lof s).trans (steady_raise .lof (.ofPort p) none _)).trans (work_leaveUp m p _).steady).trans
    (work_recapturePort m p _).steady

theorem steady_malformed (m : Moment) (p : PortIx) (bytes : List Byte) (s : State) :
    Steady s (s.malformed m p bytes) := by
  dsimp only [State.malformed]
  refine (steady_watch ..).after ?_
  have counted : Steady s (s.setPort p (s.port p).badCheck) := steady_setPort rfl
  split
  · exact counted.trans (steady_enterLof ..)
  · exact counted

theorem goodFrame_bookable (x : Port) : x.goodFrame.bookable = x.bookable := by
  unfold Port.goodFrame; split <;> rfl

theorem dequeue_bookable (x : Port) (c : SlotChoice) : (x.dequeue c).bookable = x.bookable := by cases c <;> rfl

theorem beginSlot_bookable (x : Port) (now : Nat) : (x.beginSlot now).bookable = x.bookable := dequeue_bookable ..

/-! ## The boundary (R7, R12 to R17) -/

theorem steady_removeFlows (b : BookingIx) (s : State) : Steady s (s.removeFlows b) := by
  rw [removeFlows_rest]; exact .of_eq rfl rfl rfl fun _ => rfl

theorem steady_installLegs (b : BookingIx) (s : State) : Steady s (s.installLegs b) := by
  rw [installLegs_rest]; exact .of_eq rfl rfl rfl fun _ => rfl

theorem steady_closeRecord (hb : s.booking b = some r) (cut : CutReason)
    (h : r.state = .armed ∨ r.state = .live ∨ r.state = .overrun) : Steady s (s.closeRecord b r cut) := by
  have closed : Steady (s.removeFlows b) ((s.removeFlows b).setBooking b (some (r.atClosing cut s.sec))) := by
    refine steady_setBooking (by rw [removeFlows_booking, hb]) (Prod.ext (atClosing_fixedTerms ..) rfl) (.inr ?_)
    rcases h with h | h | h <;> rw [h] <;> exact ⟨by simp, rfl⟩
  exact ((steady_removeFlows b s).trans closed).trans (steady_settleBooking ..)

theorem steady_applyTransition (m : Moment) (hb : s.booking b = some r) (x : Transition) (h : x.from r.state) :
    Steady s (s.applyTransition m b r x) := by
  cases x with
  | stay => exact .refl s
  | expire =>
    have h : r.state = .confirmed := h
    refine (steady_raise ..).after (steady_setBooking hb rfl (.inr ?_))
    rw [h]; exact ⟨by simp, rfl⟩
  | arm =>
    have h : r.state = .confirmed := h
    refine (steady_installLegs ..).after (steady_setBooking hb
      (Prod.ext (armLegs_fixedTerms r s.clock s.identTimeout) rfl) (.inr ?_))
    rw [h]; exact ⟨by simp, rfl⟩
  | goLive =>
    have h : r.state = .armed := h
    refine (work_judged ..).steady.after (steady_setBooking hb (Prod.ext (atLive_fixedTerms ..) rfl) (.inr ?_))
    rw [h]; exact ⟨by simp, rfl⟩
  | overrun =>
    have h : r.state = .live := h
    refine (steady_raise ..).after (steady_setBooking hb rfl (.inr ?_))
    rw [h]; exact ⟨by simp, rfl⟩
  | close cut =>
    dsimp only [State.applyTransition]
    split
    · exact (steady_raise ..).trans (steady_closeRecord (by simpa using hb) cut h)
    · exact steady_closeRecord hb cut h

theorem steady_schedule (m : Moment) (s : State) : Steady s (s.schedule m) := by
  refine steady_foldl (fun s b => ?_) _ s
  unfold State.scheduleOne
  split
  · exact .refl s
  · next r hr => exact steady_applyTransition m hr _ (transition_from ..)

theorem steady_stepPorts (s : State) : Steady s s.stepSecond.portsBoundary :=
  .of_eq rfl rfl rfl fun p => by simp [State.portsBoundary, State.stepSecond, State.port, Port.boundary, Port.bookable]

theorem steady_classify (i : Nat) (s : State) : Steady s (s.classify i) :=
  (later_classify ..).steady (quiet_classify ..).settles

theorem steady_watchBoundary (m : Moment) (o : List BookingIx) (l : List (BookingIx × Booking)) (s : State) :
    Steady s (s.watchBoundary m o l) := (work_watchBoundary Reach.all_watches m o l s).steady

/-! ## Requests that write no entry -/

theorem steady_markRestart (s : State) : Steady s s.markRestart := by
  have states := (quiet_markRestart s).states
  refine ⟨fun b => ?_, fun b => by rw [states], fun b => by rw [states]; exact id, rfl, rfl, fun _ => rfl⟩
  rw [State.asksOf, markRestart_booking, Option.map_map, State.asksOf]
  congr 1; funext r; simp only [Function.comp_apply]; split <;> rfl

theorem steady_switchOff (m : Moment) (p : PortIx) (s : State) : Steady s (s.switchOff m p) :=
  (work_emptyMedia m p s).steady.trans (steady_endProbeOf ..)

theorem steady_changeMode (m : Moment) (hb : s.booking b = some r) (mode : ProtectionMode) :
    Steady s (s.changeMode m b r mode) := by
  obtain ⟨terms, state⟩ := applyMode_kept r mode
  have allowance : (r.applyMode mode).allowance = r.allowance := by unfold Booking.applyMode; split <;> rfl
  exact (work_judged ..).steady.after (steady_setBooking hb (Prod.ext terms allowance) (.inl state))

/-- A waiting bill moved up closes a CLOSING record alone (R155). -/
theorem steady_promoteBill (h : s.BillsMatch) : Steady s s.promoteBill where
  asks b := by
    unfold State.promoteBill
    split
    · rfl
    · exact (later_closeBooking ..).asksOf b
  pending b := by rcases promoteBill_states h b with e | ⟨e, e'⟩ <;> simp [*]
  counted b := by rcases promoteBill_states h b with e | ⟨e, e'⟩ <;> simp [*, countedStates]
  scan := by
    unfold State.promoteBill
    split
    · rfl
    · rw [closeBooking_rest]
  waiting := by
    unfold State.promoteBill
    split
    · rfl
    · rw [closeBooking_rest]
  bookable p := by
    unfold State.promoteBill
    split
    · rfl
    · rw [closeBooking_rest]; rfl

end Sys2Proof.Machine
end

section
/-! The load on a port (R29, R31) and the laws of the admission unit (R25, R28, R36), apart from the bills': what keeps
them. -/

namespace Sys2Proof.Machine
open Sys2Proof.Config

variable {s t u : State} {b : BookingIx} {sc : Scan} {e : AdmissionEntry} {l k : List AdmissionEntry}

/-! ## The load (R31) -/

theorem rateAt_append (l k : List Claim) (dir : Direction) (p : PortIx) (n : Nat) :
    rateAt (l ++ k) dir p n = rateAt l dir p n + rateAt k dir p n := by simp [rateAt]

theorem rateAt_perm {l k : List Claim} (h : l.Perm k) (dir : Direction) (p : PortIx) (n : Nat) :
    rateAt l dir p n = rateAt k dir p n := ((h.filter _).map _).sum_eq

theorem rateAt_eq_zero {l : List Claim} {dir : Direction} {p : PortIx} (h : ∀ c ∈ l, c.loads dir p = false) (n : Nat) :
    rateAt l dir p n = 0 := by
  have none_ : l.filter (fun c => c.loads dir p && c.holdsAt n) = [] := by
    rw [List.filter_eq_nil_iff]
    intro c hc
    simp [h c hc]
  rw [rateAt, none_]; rfl

theorem load_eq (s : State) (dir : Direction) (p : PortIx) (n : Nat) : s.load dir p n = rateAt s.countedClaims dir p n :=
  rfl

/-- The claims of the counted bookings other than `b`, in index order. -/
def State.otherClaims (s : State) (b : BookingIx) : List Claim :=
  ((List.finRange 256).filter fun i => decide (i ≠ b)).filterMap s.countedClaim

theorem otherClaims_sublist (s : State) (b : BookingIx) : (s.otherClaims b).Sublist s.countedClaims :=
  List.filter_sublist.filterMap _

theorem otherClaims_congr (h : ∀ i, i ≠ b → t.countedClaim i = s.countedClaim i) : t.otherClaims b = s.otherClaims b :=
  List.filterMap_congr fun i hi => h i (of_decide_eq_true (List.mem_filter.1 hi).2)

/-- The load is the claim of one record with those of the others. -/
theorem load_split (s : State) (b : BookingIx) (dir : Direction) (p : PortIx) (n : Nat) :
    s.load dir p n = rateAt (s.countedClaim b).toList dir p n + rateAt (s.otherClaims b) dir p n := by
  have first : (List.finRange 256).Perm (b :: (List.finRange 256).filter fun i => decide (i ≠ b)) := by
    have erased := (List.nodup_finRange 256).erase_eq_filter b
    have perm := List.perm_cons_erase (List.mem_finRange b)
    rw [erased] at perm
    rwa [List.filter_congr (q := fun i => decide (i ≠ b)) fun i _ => by simp [bne, beq_eq_decide]] at perm
  have claims := first.filterMap s.countedClaim
  rw [load_eq, State.countedClaims, rateAt_perm claims, State.otherClaims, ← rateAt_append]
  congr 1
  cases h : s.countedClaim b <;> simp [h]

theorem filterMap_sublist_of_noNew {α β : Type} {f g : α → Option β} (h : ∀ x, f x = none ∨ f x = g x) (l : List α) :
    (l.filterMap f).Sublist (l.filterMap g) := by
  induction l with
  | nil => exact .slnil
  | cons x l ih =>
    rcases h x with none_ | same
    · rw [List.filterMap_cons_none none_]
      exact ih.trans ((List.sublist_cons_self x l).filterMap g)
    · cases hg : g x with
      | none => rwa [List.filterMap_cons_none (same.trans hg), List.filterMap_cons_none hg]
      | some y =>
        rw [List.filterMap_cons_some (same.trans hg), List.filterMap_cons_some hg]
        exact ih.cons_cons y

/-- The bound stands while no claim is new and the ports keep their capacities. -/
theorem State.LoadBound.mono (h : s.LoadBound) (claims : NoNewClaim s t)
    (bookable : ∀ p, (t.port p).bookable = (s.port p).bookable) : t.LoadBound := by
  intro dir p n
  have le : t.load dir p n ≤ s.load dir p n := rateAt_sublist (filterMap_sublist_of_noNew claims _) dir p n
  have room : (t.port p).capacity - (t.port p).reserve = (s.port p).capacity - (s.port p).reserve := bookable p
  rw [room]
  exact le.trans (h dir p n)

/-! ## The verdict of a scan (R29 to R33) -/

/-- A candidate that passes the capacity check leaves room in every second of its window. -/
theorem room_of_verdict_none {bookable : PortIx → Nat} (h : sc.verdict bookable = none) {dir : Direction} {p : PortIx}
    {n : Nat} (loads : sc.candidate.loads dir p = true) (holds : sc.candidate.holdsAt n = true) :
    rateAt sc.seen dir p n + sc.candidate.rate ≤ bookable p := by
  have capacity : capacityVerdict sc.candidate sc.seen bookable = none := by
    unfold Scan.verdict at h
    split at h
    · cases h
    · assumption
  obtain ⟨lo, hi⟩ := of_decide_eq_true holds
  have checked : (dir, p) ∈ sc.candidate.checkedPorts := by
    obtain ⟨key, member, port⟩ := List.any_eq_true.1 loads
    have port := of_decide_eq_true port
    cases dir <;> simp only [Claim.checkedPorts, List.mem_append, List.mem_map, Prod.mk.injEq]
    · exact .inl ⟨key, member, by simp [port]⟩
    · exact .inr ⟨key, member, by simp [port]⟩
  have fits := List.findSome?_eq_none_iff.1 capacity _ checked
  exact (failingSecond_none (by omega)).1 (Option.map_eq_none_iff.1 fits) n lo hi

/-- The claim of record `b` may become the candidate's when the candidate passes against all the others (R31). -/
theorem State.LoadBound.granted (h : s.LoadBound) (others : ∀ i, i ≠ b → t.countedClaim i = s.countedClaim i)
    (claim : t.countedClaim b = some sc.candidate) (bookable : ∀ p, (t.port p).bookable = (s.port p).bookable)
    (seen : (s.otherClaims b).Sublist sc.seen) (fits : (sc.verdict fun p => (s.port p).bookable) = none) :
    t.LoadBound := by
  intro dir p n
  have room : (t.port p).capacity - (t.port p).reserve = (s.port p).bookable := bookable p
  rw [room, load_split t b, claim, otherClaims_congr others]
  have older := (rateAt_sublist (otherClaims_sublist s b) dir p n).trans (h dir p n)
  have older : rateAt (s.otherClaims b) dir p n ≤ (s.port p).bookable := older
  cases loads : sc.candidate.loads dir p && sc.candidate.holdsAt n with
  | false => simpa [rateAt, loads] using older
  | true =>
    have one : rateAt (some sc.candidate).toList dir p n = sc.candidate.rate := by simp [rateAt, loads]
    have passes := room_of_verdict_none fits (Bool.and_eq_true_iff.1 loads).1 (Bool.and_eq_true_iff.1 loads).2
    have visited := rateAt_sublist seen dir p n
    omega

/-! ## The entries of the queue (R25, R36) -/

theorem booking_of_taken (h : s.stateOf b ≠ none) : ∃ r, s.booking b = some r :=
  Option.ne_none_iff_exists'.1 (by simpa [State.stateOf] using h)

/-- What the table owes the entries `l`: each BOOK entry has its own PENDING record, and each EXTEND entry that is not void
a record that was settled. -/
structure State.Serves (s : State) (l : List AdmissionEntry) : Prop where
  book : ∀ e ∈ l, e.kind = .book → e.void = false ∧ s.stateOf e.booking = some .pending
  once : ((l.filter fun e => decide (e.kind = .book)).map (·.booking)).Nodup
  extend : ∀ e ∈ l, e.kind ≠ .book → e.void = false → s.stateOf e.booking ≠ none ∧ s.stateOf e.booking ≠ some .pending

theorem State.Serves.sublist (h : s.Serves l) (sub : k.Sublist l) : s.Serves k where
  book e he := h.book e (sub.subset he)
  once := h.once.sublist ((sub.filter _).map _)
  extend e he := h.extend e (sub.subset he)

theorem State.Serves.perm (h : s.Serves l) (perm : k.Perm l) : s.Serves k where
  book e he := h.book e (perm.subset he)
  once := ((perm.filter _).map _).nodup_iff.2 h.once
  extend e he := h.extend e (perm.subset he)

/-- The records named by the entries that are not void stay, PENDING or not as they were. -/
theorem State.Serves.congr (h : s.Serves l)
    (kept : ∀ e ∈ l, e.void = false → (t.stateOf e.booking = none ↔ s.stateOf e.booking = none) ∧
      (t.stateOf e.booking = some .pending ↔ s.stateOf e.booking = some .pending)) : t.Serves l where
  book e he hk := by
    obtain ⟨void, pending⟩ := h.book e he hk
    exact ⟨void, (kept e he void).2.2 pending⟩
  once := h.once
  extend e he hk void := by
    obtain ⟨taken, settled⟩ := h.extend e he hk void
    obtain ⟨free, pending⟩ := kept e he void
    exact ⟨fun x => taken (free.1 x), fun x => settled (pending.1 x)⟩

theorem State.Serves.same (h : s.Serves l) (same : ∀ e ∈ l, e.void = false → t.stateOf e.booking = s.stateOf e.booking) :
    t.Serves l := h.congr fun e he void => by rw [same e he void]; exact ⟨.rfl, .rfl⟩

theorem State.Serves.taken (h : s.Serves l) (he : e ∈ l) (void : e.void = false) : s.stateOf e.booking ≠ none := by
  by_cases hk : e.kind = .book
  · rw [(h.book e he hk).2]; simp
  · exact (h.extend e he hk void).1

/-- A BOOK entry for a PENDING record that no BOOK entry names yet. -/
theorem State.Serves.consBook (h : s.Serves l) (hk : e.kind = .book) (void : e.void = false)
    (pending : s.stateOf e.booking = some .pending) (fresh : ∀ x ∈ l, x.kind = .book → x.booking ≠ e.booking) :
    s.Serves (e :: l) where
  book x hx kind := by
    rcases List.mem_cons.1 hx with rfl | hx
    · exact ⟨void, pending⟩
    · exact h.book x hx kind
  once := by
    rw [List.filter_cons_of_pos (by simp [hk]), List.map_cons, List.nodup_cons]
    refine ⟨fun named => ?_, h.once⟩
    obtain ⟨x, hx, same⟩ := List.mem_map.1 named
    obtain ⟨hx, kind⟩ := List.mem_filter.1 hx
    exact fresh x hx (of_decide_eq_true kind) same
  extend x hx kind := by
    rcases List.mem_cons.1 hx with rfl | hx
    · exact absurd hk kind
    · exact h.extend x hx kind

/-- An EXTEND entry for a settled record. -/
theorem State.Serves.consExtend (h : s.Serves l) (hk : e.kind ≠ .book) (taken : s.stateOf e.booking ≠ none)
    (settled : s.stateOf e.booking ≠ some .pending) : s.Serves (e :: l) where
  book x hx kind := by
    rcases List.mem_cons.1 hx with rfl | hx
    · exact absurd kind hk
    · exact h.book x hx kind
  once := by rw [List.filter_cons_of_neg (by simp [hk])]; exact h.once
  extend x hx kind void := by
    rcases List.mem_cons.1 hx with rfl | hx
    · exact ⟨taken, settled⟩
    · exact h.extend x hx kind void

/-! ## The scan in flight (R28) -/

/-- The claims of the counted bookings that a scan of entry `e` has visited, below `n`. -/
def State.visitedClaims (s : State) (e : AdmissionEntry) (n : Nat) : List Claim :=
  ((List.finRange 256).filter fun i => decide (i.val < n ∧ i ≠ e.booking)).filterMap s.countedClaim

/-- The scan holds its candidate's fields and has seen every counted booking it has visited. -/
structure State.Scans (s : State) (sc : Scan) : Prop where
  candidate : sc.entry.void = false →
    ∃ r, s.booking sc.entry.booking = some r ∧ sc.candidate = r.claim (sc.entry.allowance r)
  seen : (s.visitedClaims sc.entry sc.visited).Sublist sc.seen

theorem visitedClaims_sublist (claims : NoNewClaim s t) (e : AdmissionEntry) (n : Nat) :
    (t.visitedClaims e n).Sublist (s.visitedClaims e n) := filterMap_sublist_of_noNew claims _

theorem visitedClaims_all (s : State) (e : AdmissionEntry) {n : Nat} (h : 256 ≤ n) :
    s.visitedClaims e n = s.otherClaims e.booking := by
  rw [State.visitedClaims, State.otherClaims]
  congr 1
  refine List.filter_congr fun i _ => ?_
  have := i.isLt
  simp only [ne_eq, decide_eq_decide, and_iff_right_iff_imp]
  omega

/-- A list whose members of one kind all stand before those of another. -/
theorem filter_or_append {α : Type} {a c : α → Bool} {l : List α} (disjoint : ∀ x, a x = true → c x = false)
    (before : l.Pairwise fun x y => c x = true → a y = false) :
    l.filter (fun x => a x || c x) = l.filter a ++ l.filter c := by
  induction l with
  | nil => rfl
  | cons x l ih =>
    obtain ⟨here, later⟩ := List.pairwise_cons.1 before
    cases ha : a x with
    | true => simp [ha, disjoint x ha, ih later]
    | false =>
      cases hc : c x with
      | true =>
        have none_ : l.filter a = [] := List.filter_eq_nil_iff.2 fun y hy => by simp [here y hy hc]
        simp [ha, hc, ih later, none_]
      | false => simp [ha, hc, ih later]

/-- The scan's visit reads the claim of every record but its own. -/
theorem visit_eq (s : State) (sc : Scan) (i : BookingIx) :
    sc.visit s.bookings i = if i ≠ sc.entry.booking then s.countedClaim i else none := by
  have table : s.bookings[i] = s.booking i := rfl
  rw [Scan.visit, table, State.countedClaim]
  cases s.booking i with
  | none => simp
  | some r => by_cases other : i = sc.entry.booking <;> simp [other]

theorem visits_eq (s : State) (sc : Scan) (l : List BookingIx) : l.filterMap (sc.visit s.bookings) =
    (l.filter fun i => decide (i ≠ sc.entry.booking)).filterMap s.countedClaim := by
  rw [List.filterMap_filter]
  exact List.filterMap_congr fun i _ => by simp [visit_eq]

/-- The scan's next visits read every counted booking among them but its own. -/
theorem visitedClaims_visitTo (s : State) (sc : Scan) (n : Nat) : s.visitedClaims sc.entry (max sc.visited (min n 256)) =
    s.visitedClaims sc.entry sc.visited ++
      ((List.finRange 256).filter fun i => decide (sc.visited ≤ i.val ∧ i.val < n)).filterMap (sc.visit s.bookings) := by
  have records : (List.finRange 256).filter
        (fun i => decide (i.val < max sc.visited (min n 256) ∧ i ≠ sc.entry.booking)) =
      (List.finRange 256).filter (fun i => decide (i.val < sc.visited ∧ i ≠ sc.entry.booking)) ++
        (List.finRange 256).filter fun i => decide (i ≠ sc.entry.booking) && decide (sc.visited ≤ i.val ∧ i.val < n) := by
    rw [← filter_or_append]
    · refine List.filter_congr fun i _ => ?_
      have := i.isLt
      grind
    · intro i
      simp only [decide_eq_true_eq, Bool.and_eq_false_iff, decide_eq_false_iff_not]
      omega
    · refine (List.pairwise_lt_finRange 256).imp fun {i j} (before : i.val < j.val) => ?_
      simp only [Bool.and_eq_true, decide_eq_true_eq, decide_eq_false_iff_not]
      omega
  rw [State.visitedClaims, records, List.filterMap_append, ← List.filter_filter, ← visits_eq]
  rfl

theorem State.Scans.visitTo (h : s.Scans sc) (n : Nat) : s.Scans (sc.visitTo s.bookings n) where
  candidate := h.candidate
  seen := by
    show (s.visitedClaims sc.entry (max sc.visited (min n 256))).Sublist _
    rw [visitedClaims_visitTo]
    exact h.seen.append_right _

/-- The candidate's record asks for what it did, no claim is new, and the entry is the same or void now. -/
theorem State.Scans.congr (h : s.Scans sc) {e : AdmissionEntry} (void : e.void = false → e = sc.entry)
    (booking : e.booking = sc.entry.booking) (claims : NoNewClaim s t)
    (asks : e.void = false → t.asksOf e.booking = s.asksOf e.booking) : t.Scans { sc with entry := e } where
  candidate void' := by
    have same := void void'
    have asks := asks void'
    subst same
    obtain ⟨r, hr, candidate⟩ := h.candidate void'
    rw [asksOf_of_booking hr] at asks
    obtain ⟨r', hr', asks⟩ := Option.map_eq_some_iff.1 asks
    have total : sc.entry.allowance r' = sc.entry.allowance r := by
      unfold AdmissionEntry.allowance
      split
      · exact allowance_of_asks asks
      · rfl
    exact ⟨r', hr', by rw [candidate, claim_of_asks asks, total]⟩
  seen := by
    have visited : t.visitedClaims e sc.visited = t.visitedClaims sc.entry sc.visited := by
      rw [State.visitedClaims, State.visitedClaims, booking]
    show (t.visitedClaims e sc.visited).Sublist sc.seen
    rw [visited]
    exact (visitedClaims_sublist claims _ _).trans h.seen

/-- A scan that has just begun, of an entry whose record is there or which is void. -/
theorem Begun.scans {k : Scan} (h : Begun s e k) (taken : e.void = false → s.stateOf e.booking ≠ none) : s.Scans k where
  candidate void := by
    rw [h.entry] at void ⊢
    obtain ⟨r, hr⟩ := booking_of_taken (taken void)
    exact ⟨r, hr, h.candidate r hr⟩
  seen := by
    rw [h.visited, h.seen, State.visitedClaims]
    simp

/-! ## The laws together -/

/-- The laws of the admission unit, apart from the bills' (R25, R28, R31, R36). -/
structure State.Admits (s : State) : Prop where
  bound : s.LoadBound
  serves : s.Serves s.entries
  scans : ∀ sc, s.scan = some sc → s.Scans sc

theorem capacityInv_iff : s.CapacityInv ↔ s.Admits ∧ s.BillsMatch := by
  have pending : ∀ b, (∃ r, s.booking b = some r ∧ r.state = .pending) ↔ s.stateOf b = some .pending := fun b =>
    stateOf_eq_some.symm
  have settled : ∀ b, (∃ r, s.booking b = some r ∧ r.state ≠ .pending) ↔
      s.stateOf b ≠ none ∧ s.stateOf b ≠ some .pending := fun b => by
    cases hb : s.booking b <;> simp [State.stateOf, hb]
  constructor
  · rintro ⟨bound, bills, book, once, extend, candidate, seen⟩
    simp only [pending, settled] at book extend
    exact ⟨⟨bound, ⟨book, once, extend⟩, fun sc h => ⟨candidate sc h, seen sc h⟩⟩, bills⟩
  · rintro ⟨⟨bound, ⟨book, once, extend⟩, scans⟩, bills⟩
    refine ⟨bound, bills, ?_, once, ?_, fun sc h => (scans sc h).candidate, fun sc h => (scans sc h).seen⟩
    · simpa only [pending] using book
    · simpa only [settled] using extend

theorem State.Admits.bookPending (h : s.Admits) : s.BookPending := fun e he hk => (h.serves.book e he hk).2

/-- A record that the queue names by an entry that is not void is not FREE. -/
theorem State.Admits.ne_free (h : s.Admits) (he : e ∈ s.entries) (void : e.void = false) (free : s.booking b = none) :
    e.booking ≠ b := by
  rintro rfl
  exact h.serves.taken he void (by rw [State.stateOf, free]; rfl)

theorem Steady.admits (h : Steady s t) (k : s.Admits) : t.Admits where
  bound := k.bound.mono h.noNewClaim h.bookable
  serves := by
    rw [h.entries]
    exact k.serves.congr fun e _ _ => ⟨by rw [← asksOf_eq_none, h.asks, asksOf_eq_none], h.pending _⟩
  scans sc hsc := (k.scans sc (h.scan ▸ hsc)).congr (fun _ => rfl) rfl h.noNewClaim fun _ => h.asks _

/-! ## The moment of a command (R27, R38) -/

theorem admits_advance (m : Moment) (k : s.Admits) : (s.advance m).Admits := by
  have table : ∀ b, (s.advance m).booking b = s.booking b := s.advance_booking m
  have claims : NoNewClaim s (s.advance m) := fun b => .inr (countedClaim_congr (table b))
  refine ⟨k.bound.mono claims fun p => by simp, ?_, fun sc hsc => ?_⟩
  · rw [advance_entries]
    exact k.serves.same fun e _ _ => by simp [State.stateOf]
  · rw [advance_scan] at hsc
    obtain ⟨sc, hs, rfl⟩ := Option.map_eq_some_iff.1 hsc
    exact ((k.scans sc hs).visitTo m.visits).congr (fun _ => rfl) rfl claims fun _ => asksOf_congr (table _)

/-! ## An entry handed over (R26) -/

theorem admits_handEntry (k : s.Admits) (serves : s.Serves (e :: s.entries)) : (s.handEntry e).Admits := by
  have table : ∀ b, (s.handEntry e).booking b = s.booking b := fun b => handEntry_booking e b s
  have claims : NoNewClaim s (s.handEntry e) := fun b => .inr (countedClaim_congr (table b))
  have bound : (s.handEntry e).LoadBound := k.bound.mono claims fun p => by rw [handEntry_rest]; rfl
  have states : ∀ l, s.Serves l → (s.handEntry e).Serves l := fun l h => h.same fun x _ _ => by
    rw [State.stateOf, table]; rfl
  cases hs : s.scan with
  | none =>
    obtain ⟨sc, begin_, begun⟩ := beginScan_begun e s
    have handed : s.handEntry e = { s with scan := some sc } := by rw [State.handEntry, hs]; exact begin_
    rw [handed] at bound states ⊢
    refine ⟨bound, states _ ?_, fun sc' h => ?_⟩
    · simpa [State.entries, hs, begun.entry] using serves
    · cases h
      have begun : Begun { s with scan := some sc } e sc := begun.congr rfl
      exact begun.scans fun void => serves.taken (List.mem_cons_self ..) void
  | some sc =>
    obtain ⟨scan, waiting⟩ := handEntry_busy (s := s) (by simp [hs]) e
    refine ⟨bound, states _ (serves.perm ?_), fun sc' h => ?_⟩
    · simp only [State.entries, scan, waiting, ← List.append_assoc]
      exact List.perm_append_singleton ..
    · rw [scan] at h
      exact (k.scans sc' h).congr (fun _ => rfl) rfl claims fun _ => asksOf_congr (table _)

/-! ## A record taken and freed (R10, R36) -/

/-- A BOOK fills a FREE record, which is PENDING and does not count. -/
theorem admits_fill {r : Booking} (k : s.Admits) (free : s.booking b = none) (pending : r.state = .pending) :
    (s.setBooking b (some r)).Admits := by
  have others : ∀ i, i ≠ b → (s.setBooking b (some r)).booking i = s.booking i := fun i ne => by simp [ne]
  have claims : NoNewClaim s (s.setBooking b (some r)) := fun i => by
    by_cases ne : i = b
    · subst ne
      rw [countedClaim_of_booking (r := r) (by simp)]
      exact .inl (by simp [Booking.counted, pending])
    · exact .inr (countedClaim_congr (others i ne))
  refine ⟨k.bound.mono claims fun _ => rfl, ?_, fun sc hsc => ?_⟩
  · exact k.serves.same fun e he void => by rw [State.stateOf, others _ (k.ne_free he void free)]; rfl
  · refine (k.scans sc hsc).congr (fun _ => rfl) rfl claims fun void => asksOf_congr (others _ ?_)
    have hsc : s.scan = some sc := hsc
    exact k.ne_free (by simp [State.entries, hsc]) void free

theorem voidFor_kept (b : BookingIx) (e : AdmissionEntry) :
    (e.voidFor b).kind = e.kind ∧ (e.voidFor b).booking = e.booking ∧ (e.kind = .book → e.voidFor b = e) := by
  unfold AdmissionEntry.voidFor
  split
  · next hk => split <;> simp [hk]
  · exact ⟨rfl, rfl, fun _ => rfl⟩

/-- An EXTEND entry that is still not void names another record. -/
theorem voidFor_valid (h : (e.voidFor b).void = false) : e.voidFor b = e ∧ (e.kind ≠ .book → e.booking ≠ b) := by
  unfold AdmissionEntry.voidFor at h ⊢
  split
  · next hk =>
    split
    · next same => simp [hk, same] at h
    · next other => exact ⟨rfl, fun _ => other⟩
  · next hk => exact ⟨rfl, fun ne => absurd hk ne⟩

theorem freeBooking_entries (b : BookingIx) (s : State) :
    (s.freeBooking b).entries = s.entries.map (AdmissionEntry.voidFor b) := by
  cases hs : s.scan <;> simp [State.entries, State.freeBooking, hs]

theorem State.Serves.voided (h : s.Serves l) (b : BookingIx) : s.Serves (l.map (AdmissionEntry.voidFor b)) where
  book x hx hk := by
    obtain ⟨e, he, rfl⟩ := List.mem_map.1 hx
    obtain ⟨kind, -, same⟩ := voidFor_kept b e
    rw [kind] at hk
    rw [same hk]
    exact h.book e he hk
  once := by
    have kind : (fun e : AdmissionEntry => decide (e.kind = .book)) ∘ AdmissionEntry.voidFor b =
        fun e => decide (e.kind = .book) := funext fun e => by simp [(voidFor_kept b e).1]
    have booking : (fun e : AdmissionEntry => e.booking) ∘ AdmissionEntry.voidFor b = fun e => e.booking :=
      funext fun e => (voidFor_kept b e).2.1
    rw [List.filter_map, List.map_map, kind, booking]
    exact h.once
  extend x hx hk void := by
    obtain ⟨e, he, rfl⟩ := List.mem_map.1 hx
    obtain ⟨same, -⟩ := voidFor_valid void
    rw [same] at hk void ⊢
    exact h.extend e he hk void

/-- A record freed that was not PENDING: the EXTEND entries that name it are void. -/
theorem admits_freeBooking (k : s.Admits) (settled : s.stateOf b ≠ some .pending) : (s.freeBooking b).Admits := by
  have others : ∀ i, i ≠ b → (s.freeBooking b).booking i = s.booking i := fun i ne => by
    rw [freeBooking_booking, if_neg ne]
  have claims : NoNewClaim s (s.freeBooking b) := fun i => by
    by_cases ne : i = b
    · exact .inl (countedClaim_of_free (by rw [freeBooking_booking, if_pos ne]))
    · exact .inr (countedClaim_congr (others i ne))
  have named : ∀ e ∈ s.entries, (e.voidFor b).void = false → e.booking ≠ b := fun e he void => by
    by_cases hk : e.kind = .book
    · rintro rfl; exact settled (k.serves.book e he hk).2
    · exact (voidFor_valid void).2 hk
  refine ⟨k.bound.mono claims fun _ => rfl, ?_, fun sc hsc => ?_⟩
  · rw [freeBooking_entries]
    refine (k.serves.voided b).same fun x hx void => ?_
    obtain ⟨e, he, rfl⟩ := List.mem_map.1 hx
    rw [State.stateOf, others _ (by rw [(voidFor_kept b e).2.1]; exact named e he void)]; rfl
  · obtain ⟨sc, hs, rfl⟩ : ∃ sc₀, s.scan = some sc₀ ∧ { sc₀ with entry := sc₀.entry.voidFor b } = sc :=
      Option.map_eq_some_iff.1 hsc
    have kept := voidFor_kept b sc.entry
    refine (k.scans sc hs).congr (fun void => (voidFor_valid void).1) kept.2.1 claims fun void => asksOf_congr (others _ ?_)
    rw [kept.2.1]
    exact named _ (by simp [State.entries, hs]) void

/-! ## A scan completed (R11, R21, R27, R33 to R36) -/

/-- What a completion makes a record's claim: none, the old one, or, the candidate having passed, the candidate. -/
theorem settledRecord_claim (e : AdmissionEntry) (x : Booking) (v : Option Verdict) :
    let y := e.settledRecord x v
    y.counted = false ∨ (y.counted = x.counted ∧ y.claim y.allowance = x.claim x.allowance) ∨
      (v = none ∧ y.claim y.allowance = x.claim (e.allowance x)) := by
  unfold AdmissionEntry.settledRecord AdmissionEntry.allowance
  cases e.kind with
  | book =>
    dsimp only [Booking.afterBook]
    split
    · exact .inl (by simp [Booking.counted])
    · cases v with
      | none => exact .inr (.inr ⟨rfl, rfl⟩)
      | some why => exact .inl (by simp [Booking.counted])
  | extend total clamped =>
    dsimp only [Booking.afterExtend]
    split
    · cases v with
      | none => exact .inr (.inr ⟨rfl, rfl⟩)
      | some why => cases why <;> exact .inr (.inl ⟨rfl, rfl⟩)
    · exact .inr (.inl ⟨rfl, rfl⟩)

section Completion

variable {v : Option Verdict}

theorem ScanSettled.bookable (h : ScanSettled s t sc v) (p : PortIx) : (t.port p).bookable = (s.port p).bookable := by
  rw [h.rest]; rfl

/-- The claim of the settled record. -/
theorem ScanSettled.claim (h : ScanSettled s t sc v) (scans : s.Scans sc) :
    NoNewClaim s t ∨ v = none ∧ t.countedClaim sc.entry.booking = some sc.candidate := by
  have others : ∀ i, i ≠ sc.entry.booking → t.countedClaim i = s.countedClaim i := fun i ne =>
    countedClaim_congr (h.others i ne)
  have noNew : (t.countedClaim sc.entry.booking = none ∨
      t.countedClaim sc.entry.booking = s.countedClaim sc.entry.booking) → NoNewClaim s t := fun here i => by
    by_cases ne : i = sc.entry.booking
    · rw [ne]; exact here
    · exact .inr (others i ne)
  cases void : sc.entry.void with
  | true => exact .inl fun i => .inr (countedClaim_congr (State.booking_congr (h.void void) i))
  | false =>
    obtain ⟨x, hx, candidate⟩ := scans.candidate void
    have record := h.record x void hx
    rw [countedClaim_of_booking hx, countedClaim_of_booking record] at noNew
    rw [countedClaim_of_booking record]
    rcases settledRecord_claim sc.entry x v with idle | ⟨counted, claim⟩ | ⟨fits, claim⟩
    · exact .inl (noNew (.inl (by simp [idle])))
    · exact .inl (noNew (.inr (by rw [counted, claim])))
    · cases counted : (sc.entry.settledRecord x v).counted with
      | false => exact .inl (noNew (.inl (by simp [counted])))
      | true => exact .inr ⟨fits, by rw [if_pos rfl, claim, candidate]⟩

theorem ScanSettled.bound (h : ScanSettled s t sc v) (k : s.LoadBound) (scans : s.Scans sc)
    (verdict : v = (sc.visitTo s.bookings 256).verdict fun p => (s.port p).bookable) : t.LoadBound := by
  rcases h.claim scans with claims | ⟨fits, claim⟩
  · exact k.mono claims h.bookable
  · have seen : (s.visitedClaims sc.entry (max sc.visited 256)).Sublist (sc.visitTo s.bookings 256).seen :=
      (scans.visitTo 256).seen
    rw [visitedClaims_all s _ (Nat.le_max_right ..)] at seen
    exact k.granted (sc := sc.visitTo s.bookings 256) (fun i ne => countedClaim_congr (h.others i ne)) claim h.bookable seen
      (verdict.symm.trans fits)

/-- The records of the entries behind it keep their states: a BOOK entry settles its own record alone, and an EXTEND entry
changes no state. -/
theorem ScanSettled.states (h : ScanSettled s t sc v) (serves : s.Serves (sc.entry :: s.waiting)) (he : e ∈ s.waiting)
    (valid : e.void = false) : t.stateOf e.booking = s.stateOf e.booking := by
  by_cases same : e.booking = sc.entry.booking
  · cases void : sc.entry.void with
    | true => exact stateOf_congr (h.void void) _
    | false =>
      by_cases hk : sc.entry.kind = .book
      · have pending := (serves.book sc.entry (List.mem_cons_self ..) hk).2
        have once := serves.once
        rw [List.filter_cons_of_pos (by simp [hk]), List.map_cons, List.nodup_cons] at once
        by_cases kind : e.kind = .book
        · exact absurd (List.mem_map.2 ⟨e, List.mem_filter.2 ⟨he, by simp [kind]⟩, same⟩) once.1
        · have settled := (serves.extend e (List.mem_cons_of_mem _ he) kind valid).2
          rw [same] at settled
          exact absurd pending settled
      · obtain ⟨x, hx⟩ := booking_of_taken (serves.taken (List.mem_cons_self ..) void)
        have record := h.record x void hx
        rw [same, stateOf_of_booking hx, stateOf_of_booking record, AdmissionEntry.settledRecord]
        split
        · next kind => exact absurd kind hk
        · rw [(afterExtend_kept ..).2]
  · rw [State.stateOf, h.others _ same]; rfl

theorem ScanSettled.entries (h : ScanSettled s t sc v) : t.entries = s.waiting.dropWhile (·.void) := by
  have scan := h.scan
  rw [State.entries, h.waiting]
  cases rest : s.waiting.dropWhile (·.void) with
  | nil => rw [rest] at scan; simp [scan]
  | cons e l =>
    rw [rest] at scan
    obtain ⟨k, hk, begun⟩ := scan
    simp [hk, begun.entry]

theorem ScanSettled.scans (h : ScanSettled s t sc v) (serves : t.Serves t.entries) {k : Scan} (hk : t.scan = some k) :
    t.Scans k := by
  have scan := h.scan
  split at scan
  · rw [scan] at hk; cases hk
  · obtain ⟨k', hk', begun⟩ := scan
    rw [hk'] at hk
    cases hk
    exact begun.scans fun void => serves.taken (by simp [State.entries, hk', begun.entry]) void

end Completion

theorem admits_completeScan (k : s.Admits) (hsc : s.scan = some sc) : (s.completeScan sc).Admits := by
  have h := completeScan_settled sc s
  have entries : s.entries = sc.entry :: s.waiting := by simp [State.entries, hsc]
  have serves := k.serves
  rw [entries] at serves
  have served : (s.completeScan sc).Serves (s.completeScan sc).entries := by
    rw [h.entries]
    refine (serves.sublist ((List.dropWhile_sublist _).trans (List.sublist_cons_self ..))).same fun e he void => ?_
    exact h.states serves ((List.dropWhile_sublist _).subset he) void
  exact ⟨h.bound k.bound (k.scans sc hsc) rfl, served, fun _ hk => h.scans served hk⟩

/-! ## Capacities, a restart's completion and power-on -/

/-- A port's capacity changes only while no counted booking uses it (R43). -/
theorem admits_setPort {p : PortIx} {x : Port} (k : s.Admits)
    (h : x.bookable = (s.port p).bookable ∨ ∀ c ∈ s.countedClaims, ∀ dir, c.loads dir p = false) :
    (s.setPort p x).Admits := by
  rcases h with same | unused
  · exact (steady_setPort same).admits k
  · refine ⟨fun dir q n => ?_, k.serves.same fun _ _ _ => rfl, fun sc hsc => ?_⟩
    · by_cases here : q = p
      · subst here
        have zero : (s.setPort q x).load dir q n = 0 := rateAt_eq_zero (fun c hc => unused c hc dir) n
        omega
      · rw [State.setPort_port, if_neg here]
        exact k.bound dir q n
    · exact ⟨(k.scans sc hsc).candidate, (k.scans sc hsc).seen⟩

/-- The completion of a restart leaves CLOSED records alone, none of which counts, and an empty queue (R24). -/
theorem admits_finishRestart (k : s.LoadBound) : s.finishRestart.Admits where
  bound := by
    refine k.mono (fun b => .inl ?_) fun _ => rfl
    rw [State.countedClaim, finishRestart_booking]
    cases s.booking b with
    | none => rfl
    | some r =>
      rw [Option.bind_some]
      by_cases closed : r.state = .closed
      · rw [afterRestart_closed closed]
        split <;> simp [Booking.counted, closed]
      · rw [afterRestart_none closed]; rfl
  serves := ⟨nofun, List.nodup_nil, nofun⟩
  scans := nofun

theorem powerOn_admits (straps : Straps) (l : List Instr) : (State.powerOn straps l).Admits where
  bound dir p n := by
    have free : ∀ b, (State.powerOn straps l).countedClaim b = none := fun b =>
      countedClaim_of_free (by simp [State.booking, State.powerOn])
    have none_ : (State.powerOn straps l).countedClaims = [] := by
      rw [State.countedClaims, List.filterMap_eq_nil_iff]
      exact fun b _ => free b
    rw [load_eq, none_]
    exact Nat.zero_le _
  serves := ⟨nofun, List.nodup_nil, nofun⟩
  scans := nofun

end Sys2Proof.Machine
end

section
/-! Every command keeps the laws of the admission unit, and with them the bound of R31. -/

namespace Sys2Proof.Machine
open Sys2Proof.Config

variable {s t u : State}

/-! ## One request -/

theorem admits_checked {c : Option Result} {a : Answer} (k : s.Admits) (h : c = none → a.state.Admits) :
    (checked c s a).state.Admits := by
  cases c with
  | none => exact h rfl
  | some res => exact k

theorem admits_takeRequest {α : Type} {act : α → State → Answer} (k : s.Admits) (h : ∀ a, (act a s).state.Admits) (r : Req)
    (code : Nat) (body : Body α) : (s.takeRequest r code body act).Admits := by
  unfold State.takeRequest
  split
  · exact k
  · split
    · exact (steady_respond ..).admits k
    · split
      · exact (steady_respond ..).admits k
      · exact (steady_respond ..).admits (h _)

/-- A request that writes neither records, nor entries, nor ports. -/
theorem admits_of_eq (k : s.Admits) (bookings : t.bookings = s.bookings) (scan : t.scan = s.scan)
    (waiting : t.waiting = s.waiting) (ports : t.ports = s.ports) : t.Admits :=
  (Steady.of_eq bookings scan waiting fun p => by rw [State.port_congr ports]).admits k

theorem admits_actRestart (m : Moment) (k : s.Admits) : (actRestart m s).state.Admits := by
  refine admits_checked k fun _ => ?_
  have aborted : Steady s.markRestart (s.markRestart.abortAll m) := (later_abortAll ..).steady (settles_abortAll ..)
  exact ((steady_markRestart s).trans aborted).admits k

/-- A PORT SET that changes a capacity finds no counted booking on its port (R43). -/
theorem checkPortSet_unused {a : PortSetArgs} (h : checkPortSet a s = none) :
    let x := s.port (portIx a.port)
    (PortSetArgs.apply a x).bookable = x.bookable ∨ ∀ c ∈ s.countedClaims, ∀ dir, c.loads dir (portIx a.port) = false := by
  rw [checkPortSet, firstFailing_none] at h
  have free := h (PortSetArgs.changes a (s.port (portIx a.port)) &&
    s.anyBooking (fun r => r.holdsPorts && r.usesPort (portIx a.port)), .inUse) (by simp)
  rcases Bool.and_eq_false_iff.1 free with same | unused
  · simp only [PortSetArgs.changes, Bool.or_eq_false_iff, decide_eq_false_iff_not, not_not] at same
    obtain ⟨⟨capacity, reserve⟩, -⟩ := same
    exact .inl (by simp [PortSetArgs.apply, Port.bookable, capacity, reserve])
  · refine .inr fun c hc dir => ?_
    obtain ⟨b, -, claim⟩ := List.mem_filterMap.1 hc
    obtain ⟨r, hr, claim⟩ := Option.bind_eq_some_iff.1 claim
    split at claim
    · next counted =>
      cases claim
      have idle : ¬ (r.holdsPorts && r.usesPort (portIx a.port)) = true := fun used => by
        rw [← Bool.not_eq_true, anyBooking_iff] at unused
        exact unused ⟨b, r, hr, used⟩
      simp only [Booking.holdsPorts, counted, Bool.or_true, Bool.true_and, Booking.usesPort, Bool.or_eq_true, not_or,
        Bool.not_eq_true] at idle
      cases dir
      · simpa [Claim.loads, Claim.keys, Booking.claim, Function.comp_def] using idle.1
      · simpa [Claim.loads, Claim.keys, Booking.claim, Function.comp_def] using idle.2
    · cases claim

theorem admits_actPortSet (m : Moment) (a : PortSetArgs) (k : s.Admits) : (actPortSet m a s).state.Admits := by
  refine admits_checked k fun h => ?_
  show (s.writePort m (portIx a.port) a).Admits
  have written := admits_setPort k (checkPortSet_unused h)
  dsimp only [State.writePort]
  split
  · exact (steady_switchOff ..).admits written
  · exact written

/-! ## Requests of the booking table (R10, R19 to R22) -/

theorem admits_actBook (a : BookArgs) (k : s.Admits) : (actBook a s).state.Admits := by
  refine admits_checked k fun h => ?_
  rw [checkBook, firstFailing_none] at h
  have free := firstFree_of_room (h (s.bookings.toList.all Option.isSome, .noRoom) (by simp))
  have filled : (s.setBooking (s.firstFree.getD 0) (some (BookArgs.toBooking a))).Admits := admits_fill k free rfl
  refine admits_handEntry filled (filled.serves.consBook rfl rfl (by simp [State.stateOf, BookArgs.toBooking]) ?_)
  exact fun e he hk => k.ne_free he (k.serves.book e he hk).1 free

theorem admits_cancelBooking {b : BookingIx} {r : Booking} (k : s.Admits) (hb : s.booking b = some r) :
    (s.cancelBooking b r).state.Admits := by
  unfold State.cancelBooking
  split
  case h_1 => exact (steady_setBooking (r' := { r with cancelReq := true }) hb rfl (.inl rfl)).admits k
  case h_2 hs =>
    split
    · refine ((steady_setBooking (r' := r.atLateCancel s.sec) hb rfl (.inr ?_)).trans (steady_settleBooking ..)).admits k
      rw [hs]; exact ⟨by simp, rfl⟩
    · exact admits_freeBooking k (by rw [stateOf_of_booking hb, hs]; simp)
  case h_3 => exact (steady_setBooking (r' := r.requestClose .cancelledArmed) hb rfl (.inl rfl)).admits k
  case h_4 => exact (steady_setBooking (r' := r.requestClose .closedEarly) hb rfl (.inl rfl)).admits k
  all_goals exact k

theorem admits_actCancel (n : Nat) (k : s.Admits) : (actCancel n s).state.Admits := by
  refine admits_checked k fun _ => ?_
  split
  · next r hr => exact admits_cancelBooking k hr
  · exact k

theorem admits_actClose (n : Nat) (k : s.Admits) : (actClose n s).state.Admits :=
  admits_checked k fun _ =>
    (steady_updBooking (f := fun r => r.requestClose r.state.closeReason) (fun _ => rfl) (fun _ => rfl) _ s).admits k

theorem admits_actExtend (a : ExtendArgs) (k : s.Admits) : (actExtend a s).state.Admits := by
  refine admits_checked k fun h => ?_
  rw [checkExtend, firstFailing_none] at h
  have accepted := h (!s.recordIs a.index Booking.acceptsExtend, .state) (by simp)
  split
  · next r hr =>
    have accepts : r.acceptsExtend = true := by
      simp only [State.recordIs, hr, Option.any_some, Bool.not_eq_false', Bool.and_eq_true] at accepted
      exact accepted.2
    have open_ := (acceptsExtend_iff r).1 accepts
    have marked : (s.setBooking (bookingIx a.index) (some { r with extendPending := true })).Admits :=
      (steady_setBooking (r' := { r with extendPending := true }) hr rfl (.inl rfl)).admits k
    refine admits_handEntry marked (marked.serves.consExtend (by simp) ?_ ?_) <;> simp only [State.stateOf]
    · simp
    · simp only [State.setBooking_booking, if_pos, Option.map_some, ne_eq, Option.some_inj]
      intro pending
      simp [pending] at open_
  · exact k

theorem admits_actMode (m : Moment) (a : ModeArgs) (k : s.Admits) : (actMode m a s).state.Admits := by
  refine admits_checked k fun _ => ?_
  split
  · next r hr => exact (steady_changeMode m hr _).admits k
  · exact k

theorem admits_actBookingRead (n : Nat) (k : s.Admits) : (actBookingRead n s).state.Admits := by
  refine admits_checked k fun _ => ?_
  show State.Admits (if _ then _ else _)
  split
  · next h =>
    obtain ⟨r, hr, frees⟩ := (Option.any_eq_true ..).1 h
    rw [readFrees_eq, decide_eq_true_eq] at frees
    refine admits_freeBooking k fun pending => ?_
    rw [stateOf_of_booking hr, Option.some_inj] at pending
    simp [pending] at frees
  · exact k

/-- The head bill's booking is CLOSED, so its record is freed, and the waiting bill that moves up closes a CLOSING one. -/
theorem admits_actBillRelease (n : Nat) (k : s.Admits) (bills : s.BillsMatch) : (actBillRelease n s).state.Admits := by
  refine admits_checked k fun h => ?_
  rw [checkBillRelease, firstFailing_none] at h
  have range := h (decide (255 < n), .range) (by simp)
  have head := h (!(s.bills.head?.any fun x => decide (x.booking.val = n)), .state) (by simp)
  simp only [decide_eq_false_iff_not, Nat.not_lt] at range
  cases e : s.bills with
  | nil => simp [e] at head
  | cons x rest =>
    simp only [e, List.head?_cons, Option.any_some, Bool.not_eq_false', decide_eq_true_eq] at head
    have named : x.booking = bookingIx n := Fin.ext (by simp [head, bookingIx, Fin.ofNat]; omega)
    have closed := ((billsMatch_iff.1 bills).2.1 (bookingIx n)).1 (by simp [e, named])
    have popped : State.Admits { s with bills := s.bills.tail } := admits_of_eq k rfl rfl rfl rfl
    have settled : State.stateOf { s with bills := s.bills.tail } (bookingIx n) ≠ some .pending := fun pending =>
      nomatch closed.symm.trans pending
    have freed := (follows_freeHead e named).bills bills k.bookPending
    exact (steady_promoteBill freed).admits (admits_freeBooking popped settled)

/-! ## Every request -/

theorem admits_takeCommand (c : Instr) (k : s.Admits) (bills : s.BillsMatch) : (s.takeCommand c).Admits := by
  have same : ∀ {t : State}, t.bookings = s.bookings → t.scan = s.scan → t.waiting = s.waiting → t.ports = s.ports →
      t.Admits := admits_of_eq k
  have written : ∀ {c : Option Result} {a : Answer}, a.state.bookings = s.bookings → a.state.scan = s.scan →
      a.state.waiting = s.waiting → a.state.ports = s.ports → (checked c s a).state.Admits :=
    fun e1 e2 e3 e4 => admits_checked k fun _ => same e1 e2 e3 e4
  cases c with
  | unknownRequestCode r code =>
    dsimp only [State.takeCommand, reqUnknownRequestCode]
    split
    · exact k
    · exact admits_takeRequest k (fun _ => k) ..
  | identify r b => exact admits_takeRequest k (fun _ => same rfl rfl rfl rfl) ..
  | restart r b => exact admits_takeRequest k (fun _ => admits_actRestart r.m k) ..
  | noticeSet r b => exact admits_takeRequest k (fun _ => written rfl rfl rfl rfl) ..
  | timeSet r b => exact admits_takeRequest k (fun _ => written rfl rfl rfl rfl) ..
  | timeRead r b => exact admits_takeRequest k (fun _ => k) ..
  | portSet r b => exact admits_takeRequest k (fun a => admits_actPortSet r.m a k) ..
  | portRead r b => exact admits_takeRequest k (fun _ => written rfl rfl rfl rfl) ..
  | book r b => exact admits_takeRequest k (fun a => admits_actBook a k) ..
  | cancel r b => exact admits_takeRequest k (fun a => admits_actCancel a k) ..
  | close r b => exact admits_takeRequest k (fun a => admits_actClose a k) ..
  | extend r b => exact admits_takeRequest k (fun a => admits_actExtend a k) ..
  | mode r b => exact admits_takeRequest k (fun a => admits_actMode r.m a k) ..
  | bookingRead r b => exact admits_takeRequest k (fun a => admits_actBookingRead a k) ..
  | patternSet r b => exact admits_takeRequest k (fun _ => written rfl rfl rfl rfl) ..
  | patternRead r b => exact admits_takeRequest k (fun _ => written rfl rfl rfl rfl) ..
  | tariffSet r b => exact admits_takeRequest k (fun _ => written rfl rfl rfl rfl) ..
  | tariffRead r b => exact admits_takeRequest k (fun _ => written rfl rfl rfl rfl) ..
  | probe r b =>
    refine admits_takeRequest k (fun a => admits_checked k fun _ => ?_) ..
    have probed : Steady s (s.probeRequest (portIx a)).1 :=
      (later_probeRequest ..).steady (by rw [probeRequest_rest]; exact settles_of_eq rfl rfl rfl)
    exact probed.admits k
  | probeRead r b => exact admits_takeRequest k (fun _ => written rfl rfl rfl rfl) ..
  | probeConfig r b => exact admits_takeRequest k (fun _ => written rfl rfl rfl rfl) ..
  | watchSet r b => exact admits_takeRequest k (fun _ => written rfl rfl rfl rfl) ..
  | watchRead r b => exact admits_takeRequest k (fun _ => written rfl rfl rfl rfl) ..
  | watchUnfreeze r b => exact admits_takeRequest k (fun _ => written rfl rfl rfl rfl) ..
  | faultRead r b => exact admits_takeRequest k (fun _ => same rfl rfl rfl rfl) ..
  | faultClear r b => exact admits_takeRequest k (fun _ => written rfl rfl rfl rfl) ..
  | faultMask r b => exact admits_takeRequest k (fun _ => written rfl rfl rfl rfl) ..
  | billRead r b => exact admits_takeRequest k (fun _ => k) ..
  | billRelease r b => exact admits_takeRequest k (fun a => admits_actBillRelease a k bills) ..
  | powerOn _ => exact k
  | secondBoundary _ => exact k
  | lightLost _ _ => exact k
  | lightReturns _ _ => exact k
  | frameReceived _ _ _ => exact k
  | slotStart _ _ => exact k
  | transmitterPasses _ => exact k
  | silenceTimerExpiry _ _ _ => exact k
  | identTimeoutExpiry _ _ _ => exact k
  | phaseTimerExpiry _ => exact k
  | traceDelivered _ _ => exact k
  | admissionCompletion _ => exact k

/-! ## Frames, the boundary and the other events -/

theorem admits_receive (m : Moment) (p : PortIx) (bytes : List Byte) (k : s.Admits) (bills : s.BillsMatch) :
    (s.receive m p bytes).Admits := by
  unfold State.receive
  split
  · split
    · exact (steady_malformed ..).admits k
    · next f _ =>
      dsimp only [State.goodFrame]
      have counted := (steady_setPort (goodFrame_bookable (s.port p))).trans
        (steady_watch m (frameEvent .rxFrames p none (headerBits bytes) 1) _)
      have match_ := ((quiet_setPort p (s.port p).goodFrame s).trans
        (quiet_watch m (frameEvent .rxFrames p none (headerBits bytes) 1) _)).settles.bills bills
      have k := counted.admits k
      generalize State.watch m _ _ = t at k match_
      unfold State.deliverFrame
      split
      · exact k
      · unfold State.controlFrameIn
        split
        · exact k
        · split
          · exact k
          · exact admits_takeCommand _ ((steady_takeEarly ..).admits k) ((quiet_takeEarly ..).settles.bills match_)
      · split
        · exact ((later_identAtFlow ..).steady (quiet_identAtFlow ..).settles).admits k
        · exact ((later_mediaFrame ..).steady (quiet_mediaFrame ..).settles).admits k
  · exact k

theorem admits_tryFinishRestart (m : Moment) (k : s.Admits) : (s.tryFinishRestart m).Admits := by
  unfold State.tryFinishRestart
  split
  · exact admits_finishRestart ((steady_flush m s).admits k).bound
  · exact k

theorem admits_boundary (m : Moment) (k : s.Admits) : (s.boundary m).Admits := by
  dsimp only [State.boundary]
  have k := ((steady_stepPorts s).trans (steady_classify s.sec _)).admits k
  split
  · exact admits_tryFinishRestart m (((steady_watchBoundary ..).trans (steady_schedule m _)).admits k)
  · exact (steady_watchBoundary ..).admits (admits_tryFinishRestart m ((steady_schedule m _).admits k))

theorem admits_exec {c : Instr} (k : s.Admits) (bills : s.BillsMatch) (h : exec c s = .next t) : t.Admits := by
  have now := fun m => admits_advance m k
  cases hs : c.sender with
  | some r =>
    rw [exec_request hs] at h
    cases h
    exact admits_takeCommand c (now r.m) ((quiet_advance r.m s).settles.bills bills)
  | none =>
    cases c with
    | powerOn straps => cases h; exact powerOn_admits ..
    | secondBoundary m => cases h; exact (steady_flush ..).admits (admits_boundary m (now m))
    | lightLost m p =>
      dsimp only [exec, execLightLost] at h
      split at h <;> cases h
      · exact ((steady_loseLight ..).trans (steady_flush ..)).admits (now m)
      · exact now m
    | lightReturns m p =>
      dsimp only [exec, execLightReturns] at h
      split at h <;> cases h
      · exact now m
      · have lit : Steady (s.advance m) ((s.advance m).setPort p
            { (s.advance m).port p with link := .acquiring, goodRun := 0, upWhole := false }) := steady_setPort rfl
        exact ((lit.trans (steady_endProbeOf ..)).trans (steady_flush ..)).admits (now m)
    | frameReceived m p bytes =>
      cases h
      exact (steady_flush ..).admits (admits_receive m p bytes (now m) ((quiet_advance m s).settles.bills bills))
    | slotStart m p =>
      dsimp only [exec, execSlotStart] at h
      split at h
      · cases h; exact now m
      · split at h <;> cases h
        · exact ((steady_elapseTo ..).trans (steady_setPort (beginSlot_bookable ..))).admits (now m)
        · exact (steady_setPort (beginSlot_bookable ..)).admits (now m)
    | transmitterPasses m =>
      dsimp only [exec, execTransmitterPasses] at h
      split at h
      · next f _ =>
        split at h <;> cases h
        · have passed : Steady (s.advance m) (((s.advance m).elapseTo ((s.advance m).port f.port).freeAt).setPort f.port
              { (s.advance m).port f.port with sending := none }) := (steady_elapseTo ..).trans (steady_setPort rfl)
          exact admits_of_eq (passed.admits (now m)) rfl rfl rfl rfl
        · exact now m
      · cases h; exact now m
    | silenceTimerExpiry m b l =>
      dsimp only [exec, execSilenceTimerExpiry] at h
      split at h <;> cases h
      · exact (((steady_elapseTo ..).trans (work_legSilent ..).steady).trans (steady_flush ..)).admits (now m)
      · exact now m
    | identTimeoutExpiry m b l =>
      dsimp only [exec, execIdentTimeoutExpiry] at h
      split at h <;> cases h
      · exact (((steady_elapseTo ..).trans (work_identExpire m l (Reach.all_has _ _)).steady).trans
          (steady_flush ..)).admits (now m)
      · exact now m
    | phaseTimerExpiry m =>
      dsimp only [exec, execPhaseTimerExpiry] at h
      split at h
      · split at h <;> cases h
        · exact (((steady_elapseTo ..).trans (steady_endFlight ..)).trans (steady_flush ..)).admits (now m)
        · exact now m
      · cases h; exact now m
    | traceDelivered m x =>
      dsimp only [exec, execTraceDelivered] at h
      split at h
      · split at h
        · split at h <;> cases h
          · exact (((steady_elapseTo ..).trans (steady_deliver ..)).trans (steady_flush ..)).admits (now m)
          · exact now m
        · cases h; exact now m
      · cases h; exact now m
    | admissionCompletion m =>
      have begun : State.Admits (s.beginEvent m.dt) := admits_of_eq k rfl rfl rfl rfl
      dsimp only [exec, execAdmissionCompletion] at h
      split at h <;> cases h
      · next sc hsc => exact (steady_flush ..).admits (admits_completeScan begun hsc)
      · exact begun
    | _ => cases hs

/-! ## The bound -/

theorem exec_capacityInv {c : Instr} (h : s.CapacityInv) (k : exec c s = .next t) : t.CapacityInv := by
  obtain ⟨admits, bills⟩ := capacityInv_iff.1 h
  exact capacityInv_iff.2 ⟨admits_exec admits bills k, exec_billsMatch bills admits.bookPending k⟩

/-- The laws do not read the queue of commands. -/
theorem capacityInv_pending (h : s.CapacityInv) (l : List Instr) : State.CapacityInv { s with pending := l } :=
  ⟨h.bound, h.bills.congr rfl rfl (fun _ => .rfl) (fun _ => id), h.book, h.once, h.extend, h.candidate, h.seen⟩

/-- Settles O7: a claim begins to count at a completion alone, whose scan has seen every other counted booking. -/
theorem capacityBoundIsKept : Obligations.CapacityBoundIsKept := by
  refine ⟨capacityInv_iff.2 ⟨powerOn_admits .., powerOn_billsMatch ..⟩, fun s t h k => ?_, fun s h => h.bound⟩
  unfold step at k
  split at k
  · cases k; exact h
  · next c rest _ => exact exec_capacityInv (capacityInv_pending h rest) k

end Sys2Proof.Machine
end

section
/-! The reads of ports, patterns, tariffs, the reflectometer and the watch counters (R45, R84, R113, R141, R153). -/

namespace Sys2Proof.Machine
open Sys2Proof.Config

variable {s : State} {r : Req}

/-! ## Numbers in range -/

@[simp] theorem portIx_val (p : PortIx) : portIx p.val = p := Fin.ext (by simp [portIx, Fin.ofNat])
@[simp] theorem patternIx_val (i : PatternIx) : patternIx i.val = i := Fin.ext (by simp [patternIx, Fin.ofNat])
@[simp] theorem tariffIx_val (i : TariffIx) : tariffIx i.val = i := Fin.ext (by simp [tariffIx, Fin.ofNat])
@[simp] theorem counterIx_val (i : CounterIx) : counterIx i.val = i := Fin.ext (by simp [counterIx, Fin.ofNat])

/-! ## What the moment leaves of a read's fields -/

@[simp] theorem State.advance_frozen (m : Moment) (s : State) : (s.advance m).frozen = s.frozen := by rw [advance_eq]; rfl

theorem advance_portFields (m : Moment) (p : PortIx) : (s.advance m).portFields p = s.portFields p := by
  simp [State.portFields]

theorem advance_patternFields (m : Moment) (i : PatternIx) : (s.advance m).patternFields i = s.patternFields i := by
  simp [State.patternFields]

theorem advance_tariffFields (m : Moment) (i : TariffIx) : (s.advance m).tariffFields i = s.tariffFields i := by
  simp [State.tariffFields]

theorem advance_probePosition (m : Moment) (n : ProbeNo) : (s.advance m).probePosition n = s.probePosition n := by
  simp [State.probePosition]

theorem advance_probePortFields (m : Moment) (p : PortIx) : (s.advance m).probePortFields p = s.probePortFields p := by
  simp [State.probePortFields, advance_probePosition]

theorem advance_probeAllFields (m : Moment) : (s.advance m).probeAllFields = s.probeAllFields := by
  simp [State.probeAllFields]

theorem advance_watchFields (m : Moment) (l : List CounterIx) : (s.advance m).watchFields l = s.watchFields l := by
  have fields : (s.advance m).counterFields = s.counterFields := funext fun i => by simp [State.counterFields]
  simp [State.watchFields, fields]

/-! ## A read answered -/

variable {α : Type} {act : α → State → Answer} {code : Nat} {check : Option Result} {report : List Byte} {a : α}

/-- A read whose check passes answers OK with its report and changes nothing. -/
theorem read_reports (h : FromReader s r) (ho : observerMaySend code = true) {l : List Field}
    (k : act a (s.advance r.m) = checked check (s.advance r.m) (.ok (s.advance r.m) report)) (passes : check = none)
    (body : report = bytesOf l) :
    AnsweredOnly (s.advance r.m) ((s.advance r.m).takeRequest r code (some a) act) r code .ok (bytesOf l) :=
  takeRequest_read (h.advance r.m) ho (by rw [k, checked_none passes, body]; rfl)

/-- A read whose check fails is refused. -/
theorem read_refused (h : FromReader s r) (ho : observerMaySend code = true) {res : Result}
    (k : act a (s.advance r.m) = checked check (s.advance r.m) (.ok (s.advance r.m) report)) (fails : check = some res) :
    AnsweredOnly (s.advance r.m) ((s.advance r.m).takeRequest r code (some a) act) r code res [] :=
  takeRequest_read (h.advance r.m) ho (by rw [k, checked_some fails])

/-- The check of a read that names one of `k` things. -/
theorem range_passes {k n : Nat} (h : n ≤ k) : firstFailing [(decide (k < n), .range)] = none := by
  simp [Nat.not_lt.2 h]

theorem range_refused {k n : Nat} (h : k < n) : firstFailing [(decide (k < n), .range)] = some .range := by simp [h]

/-- Settles O26. -/
theorem readsChangeNothing : Obligations.ReadsChangeNothing := by
  intro r s h
  refine ⟨fun p => ⟨_, rfl, ?_⟩, fun i => ⟨_, rfl, ?_⟩, fun i => ⟨_, rfl, ?_⟩, fun p => ⟨_, rfl, ?_⟩, ⟨_, rfl, ?_⟩,
    fun i => ⟨_, rfl, ?_⟩, ⟨_, rfl, ?_⟩, fun n hn => ⟨_, rfl, ?_⟩, fun n hn => ⟨_, rfl, ?_⟩, fun n hn => ⟨_, rfl, ?_⟩,
    fun n hn => ⟨_, rfl, ?_⟩, fun n hn => ⟨_, rfl, ?_⟩⟩
  · exact read_reports h rfl rfl (range_passes (Nat.le_of_lt_succ p.isLt))
      (by rw [portIx_val, portReport_layout, advance_portFields])
  · exact read_reports h rfl rfl (range_passes (Nat.le_of_lt_succ i.isLt))
      (by rw [patternIx_val, patternReport_layout, advance_patternFields])
  · exact read_reports h rfl rfl (range_passes (Nat.le_of_lt_succ i.isLt))
      (by rw [tariffIx_val, tariffReport_layout, advance_tariffFields])
  · exact read_reports h rfl rfl (range_passes (Nat.le_of_lt_succ p.isLt))
      (by dsimp only; rw [portIx_val, probePortReport_layout, advance_probePortFields])
  · exact read_reports h rfl rfl rfl (by rw [probeAllReport_layout, advance_probeAllFields])
  · exact read_reports h rfl rfl (range_passes (Nat.le_of_lt_succ i.isLt))
      (by dsimp only; rw [counterIx_val, watchReport_layout, advance_watchFields])
  · exact read_reports h rfl rfl rfl (by rw [watchReport_layout, advance_watchFields])
  · exact read_refused h rfl rfl (range_refused hn)
  · exact read_refused h rfl rfl (range_refused hn)
  · exact read_refused h rfl rfl (range_refused hn)
  · exact read_refused h rfl rfl (range_refused hn)
  · exact read_refused h rfl rfl (range_refused hn)

/-- Settles O5: reset is a power-on with the straps low. -/
theorem lawsHoldAtReset : Obligations.LawsHoldAtReset := powerOn_inv lowStraps []

end Sys2Proof.Machine
end

section
/-! The arbiter of a line (R57, R58). -/

namespace Sys2Proof.Machine
open Sys2Proof.Config

variable {s : State} {m : Moment} {p : PortIx} {x : Port} {now : Nat} {f : ControlFrame} {c : MediaCopy}
  {rest : List ControlFrame} {copies : List MediaCopy}

/-! ## The choice (R57) -/

/-- The head of the control queue has waited longer than 2 ms, and the previous slot's frame did not escalate. -/
def Port.Escalates (x : Port) (now : Nat) : Prop :=
  ∃ f rest, x.control = f :: rest ∧ 20000000 < now - f.enqueued ∧ x.escalated = false

theorem choose_escalated (head : x.control = f :: rest) (h : x.Escalates now) : x.choose now = .escalated f := by
  obtain ⟨g, rest', e, waits, fresh⟩ := h
  obtain ⟨rfl, rfl⟩ := List.cons.inj (head.symm.trans e)
  simp [Port.choose, head, escalationTicks, waits, fresh]

theorem not_escalates_head (head : x.control = f :: rest) (h : ¬ x.Escalates now) :
    ¬ (escalationTicks < now - f.enqueued ∧ x.escalated = false) := fun k => h ⟨f, rest, head, k⟩

theorem choose_class1 (h : ¬ x.Escalates now) (head : x.class1 = c :: copies) : x.choose now = .class1 c := by
  unfold Port.choose
  rw [head]
  cases control : x.control with
  | nil => rfl
  | cons f rest => exact if_neg (not_escalates_head control h)

theorem choose_class2 (h : ¬ x.Escalates now) (none1 : x.class1 = []) (head : x.class2 = c :: copies) :
    x.choose now = .class2 c := by
  unfold Port.choose
  rw [none1, head]
  cases control : x.control with
  | nil => rfl
  | cons f rest => exact if_neg (not_escalates_head control h)

theorem choose_control (h : ¬ x.Escalates now) (none1 : x.class1 = []) (none2 : x.class2 = [])
    (head : x.control = f :: rest) : x.choose now = .control f := by
  unfold Port.choose
  rw [none1, none2, head]
  exact if_neg (not_escalates_head head h)

theorem choose_fill (none1 : x.class1 = []) (none2 : x.class2 = []) (none3 : x.control = []) : x.choose now = .fill := by
  simp [Port.choose, none1, none2, none3]

/-! ## The slot -/

/-- The port with a frame in transmission from the instant `now`. -/
def Port.sends (x : Port) (now : Nat) (bytes : List Byte) (escalated : Bool) : Port :=
  { x with sending := some bytes, freeAt := now + (bytes.length + 8) * 8, escalated := escalated }

/-- The frame was chosen by escalation. -/
def SlotChoice.escalates : SlotChoice → Bool
  | .escalated _ => true
  | .class1 _ | .class2 _ | .control _ | .fill => false

theorem beginSlot_of_choose {choice : SlotChoice} (h : x.choose now = choice) :
    x.beginSlot now = (x.dequeue choice).sends now choice.bytes choice.escalates := by
  subst h
  unfold Port.beginSlot
  cases x.choose now <;> rfl

/-- The instant at which the slot begins: the line comes free, or the command comes later. -/
def State.slotAt (m : Moment) (p : PortIx) (s : State) : Nat :=
  if (s.port p).sending.isSome then max (s.clock + m.dt) (s.port p).freeAt else s.clock + m.dt

theorem slotStart_underProbe (h : s.underProbe p = true) : exec (.slotStart m p) s = .next (s.advance m) := by
  have h : (s.advance m).underProbe p = true := by simpa [State.underProbe] using h
  exact if_pos h

theorem slotStart_begins (h : s.underProbe p = false) : ∃ u, exec (.slotStart m p) s =
    .next (u.setPort p ((s.port p).beginSlot (s.slotAt m p))) ∧ u.clock = s.slotAt m p ∧ u.bookings = s.bookings ∧
      (∀ q, u.port q = s.port q) ∧ KeepsSettings s u := by
  have free : ¬ (s.advance m).underProbe p = true := by simpa [State.underProbe] using h
  let u := if (s.advance m).lineBusy p then (s.advance m).elapseTo ((s.advance m).port p).freeAt else s.advance m
  have ports : ∀ q, u.port q = s.port q := fun q => by dsimp only [u]; split <;> exact State.advance_port ..
  have clock : u.clock = s.slotAt m p := by
    have busy : (s.advance m).lineBusy p = ((s.port p).sending.isSome && decide (s.clock + m.dt < (s.port p).freeAt)) := by
      simp [State.lineBusy]
    dsimp only [u, State.slotAt]
    rw [busy]
    cases sending : (s.port p).sending.isSome with
    | false => exact State.advance_clock ..
    | true =>
      by_cases due : s.clock + m.dt < (s.port p).freeAt
      · simp [due, State.elapseTo]; omega
      · simp [due]; omega
  refine ⟨u, ?_, clock, ?_, ports, (keepsSettings_advance m s).trans ?_⟩
  · rw [← clock, ← ports p]
    exact if_neg free
  · dsimp only [u]; split <;> exact State.advance_bookings ..
  · dsimp only [u]; split <;> exact ⟨rfl, fun _ => rfl, rfl, rfl, rfl, rfl, rfl, rfl, rfl, rfl, rfl, rfl⟩

theorem keepsSettings_setPort (h : x.settings = (s.port p).settings) : KeepsSettings s (s.setPort p x) := by
  refine ⟨rfl, fun q => ?_, rfl, rfl, rfl, rfl, rfl, rfl, rfl, rfl, rfl, rfl⟩
  rw [State.setPort_port]
  split
  · next e => subst e; exact h
  · rfl

/-- Settles O54, by the choice at the head of each queue. -/
theorem arbiterChoosesInOrder : Obligations.ArbiterChoosesInOrder := by
  refine fun m p s => ⟨fun ⟨f, hf, hp⟩ => slotStart_underProbe (by simp [State.underProbe, hf, hp]), fun others => ?_⟩
  have free : s.underProbe p = false := by
    cases h : s.flight with
    | none => simp [State.underProbe, h]
    | some f => simpa [State.underProbe, h] using others f h
  intro q now sends escalates
  obtain ⟨u, step, clock, bookings, ports, keeps⟩ := slotStart_begins (m := m) free
  have slot : ∀ {choice : SlotChoice}, q.choose now = choice →
      (u.setPort p (q.beginSlot now)).port p =
        (q.dequeue choice).sends now choice.bytes choice.escalates := fun h => by
    rw [State.setPort_port, if_pos rfl, beginSlot_of_choose h]
  refine ⟨_, step, clock, bookings, keeps.trans (keepsSettings_setPort ?_), fun i hi => ?_, fun f rest head h => ?_,
    fun c rest h head => ?_, fun c rest h none1 head => ?_, fun f rest h none1 none2 head => ?_,
    fun none1 none2 none3 => ?_⟩
  · rw [beginSlot_settings, ports]
  · rw [State.setPort_port, if_neg hi, ports]
  · have tail : q.control.tail = rest := by rw [head]; rfl
    rw [← tail]
    exact slot (choose_escalated head h)
  · have tail : q.class1.tail = rest := by rw [head]; rfl
    rw [← tail]
    exact slot (choose_class1 h head)
  · have tail : q.class2.tail = rest := by rw [head]; rfl
    rw [← tail]
    exact slot (choose_class2 h none1 head)
  · have tail : q.control.tail = rest := by rw [head]; rfl
    rw [← tail]
    exact slot (choose_control h none1 none2 head)
  · exact slot (choose_fill none1 none2 none3)

end Sys2Proof.Machine
end

section
/-! A CONTROL frame taken as the request it carries (R168, R173). -/

namespace Sys2Proof.Machine
open Sys2Proof.Config

variable {s : State} {m : Moment} {p : PortIx} {r : Req} {c : Instr}

/-! ## A request at an instant that has come already -/

/-- A moment that passes no time and makes no visit changes nothing where no raise waits. -/
theorem advance_still (h : s.raised = []) (m : Moment) : s.advance m.still = s := by
  have visits : ∀ sc : Scan, sc.visitTo s.bookings 0 = sc := fun sc => by simp [Scan.visitTo]
  have scan : (s.scan.map fun sc => sc.visitTo s.bookings 0) = s.scan := by simp [visits]
  rw [advance_eq]
  show ({ s.beginEvent 0 with scan := s.scan.map fun sc => sc.visitTo s.bookings 0 } : State) = s
  rw [scan]
  cases s
  simp_all [State.beginEvent, State.elapse]

/-- The taking of a request reads of its moment the orders alone. -/
theorem takeCommand_still (r : Req) (good : Bool) (body : List Byte) (code : Nat) (s : State) :
    s.takeCommand (Wire.requestOf { r with m := r.m.still } good body code) =
      s.takeCommand (Wire.requestOf r good body code) := by
  unfold Wire.requestOf
  dsimp only
  split <;> rfl

theorem requestOf_sender (r : Req) (good : Bool) (body : List Byte) (code : Nat) :
    (Wire.requestOf r good body code).sender = some r := by
  unfold Wire.requestOf
  dsimp only
  split <;> rfl

/-- A payload read at the instant that has come already is the same request. -/
theorem request_still {payload : List Byte} (h : Wire.request p m.still payload = some c) :
    (∃ c', Wire.request p m payload = some c' ∧ ∀ s : State, s.takeCommand c' = s.takeCommand c) ∧
      ∃ r, c.sender = some r ∧ r.m = m.still := by
  unfold Wire.request at h ⊢
  split at h
  · split at h
    · cases h
    · next code reserved hi lo body known =>
      cases h
      exact ⟨⟨_, if_neg known, fun s => (takeCommand_still { port := p, tag := hi ++ lo, m := m } ..).symm⟩,
        _, requestOf_sender .., rfl⟩
  · cases h

theorem request_none_still {payload : List Byte} (h : Wire.request p m.still payload = none) :
    Wire.request p m payload = none := by
  unfold Wire.request at h ⊢
  split at h
  · split at h
    · next known => exact if_pos known
    · cases h
  · rfl

/-! ## The raises of a request -/

theorem takeRequest_raised {α : Type} {act : α → State → Answer} {code : Nat} (h : s.raised = []) (r : Req)
    (body : Body α) : (s.takeRequest r code body act).raised = [] := by
  unfold State.takeRequest
  split
  · exact h
  · split
    · rfl
    · split <;> rfl

/-- A request taken where no raise waits leaves none. -/
theorem takeCommand_raised (h : s.raised = []) (c : Instr) : (s.takeCommand c).raised = [] := by
  cases c with
  | unknownRequestCode r code =>
    show (reqUnknownRequestCode r code s).raised = []
    unfold reqUnknownRequestCode
    split
    · exact h
    · exact takeRequest_raised h ..
  | powerOn _ | secondBoundary _ | lightLost _ _ | lightReturns _ _ | frameReceived _ _ _ | slotStart _ _
  | transmitterPasses _ | silenceTimerExpiry _ _ _ | identTimeoutExpiry _ _ _ | phaseTimerExpiry _ | traceDelivered _ _
  | admissionCompletion _ => exact h
  | _ => exact takeRequest_raised h ..

/-! ## The frame -/

/-- The state in which a good frame has been counted (R50, R95). -/
def State.countedFrame (m : Moment) (p : PortIx) (bytes : List Byte) (s : State) : State :=
  ((s.advance m).setPort p (s.port p).goodFrame).watch m (frameEvent .rxFrames p none (headerBits bytes) 1)

theorem frameReceived_good {f : Frame} {bytes : List Byte} (lit : (s.port p).lit = true)
    (hf : readFrame bytes = some f) : exec (.frameReceived m p bytes) s =
      .next (((s.countedFrame m p bytes).deliverFrame m p f (headerBits bytes)
        (placeOf f.kind (s.port p).link (s.port p).role)).flush m) := by
  have received : (s.advance m).receive m p bytes = (s.advance m).goodFrame m p f (headerBits bytes) := by
    unfold State.receive
    rw [State.advance_port, if_pos lit, hf]
  show Host.Outcome.next (((s.advance m).receive m p bytes).flush m) = _
  rw [received]
  unfold State.goodFrame State.countedFrame
  rw [State.advance_port]

theorem countedFrame_cls (m : Moment) (bytes : List Byte) : ((s.countedFrame m p bytes).port p).cls = (s.port p).cls := by
  have counted : (((s.advance m).setPort p (s.port p).goodFrame).port p).cls = (s.port p).cls := by
    rw [State.setPort_port, if_pos rfl]
    unfold Port.goodFrame
    split <;> rfl
  exact ((later_watch m _ _).cls p).trans counted

/-- Settles O16. -/
theorem controlFrameRunsItsRequest : Obligations.ControlFrameRunsItsRequest := by
  intro m p bytes f s lit hf kind u
  have step : exec (.frameReceived m p bytes) s = .next ((u.controlFrameIn m p f.payload).flush m) := by
    rw [frameReceived_good lit hf, kind]
    rfl
  have cls : (u.port p).cls = (s.port p).cls := countedFrame_cls m bytes
  refine ⟨fun c entitled hc => ?_, fun dropped => ?_⟩
  · obtain ⟨⟨c', hc', same⟩, r, sender, moment⟩ := request_still hc
    have taken : u.controlFrameIn m p f.payload = (u.takeEarly m).takeCommand c := by
      unfold State.controlFrameIn
      rw [cls, if_neg entitled, hc']
      exact same _
    refine ⟨(pickRaises m.beforeRequest u.raised).1, (pickRaises m.beforeRequest u.raised).2, pickRaises_spec ..,
      fun none_ => by rw [none_]; rfl, fun l l' order named => ?_, by rw [step, taken]; rfl, fun quiet => ?_⟩
    · rw [named]
      exact pickRaises_of_keepsClassOrder order
    · have fresh : (u.takeEarly m).raised = [] := quiet
      rw [step, taken, State.flush_of_nil (takeCommand_raised fresh c), exec_request sender, moment]
      exact congrArg (fun t : State => Host.Outcome.next (t.takeCommand c)) (advance_still fresh m).symm
  · have discarded : u.controlFrameIn m p f.payload = u := by
      unfold State.controlFrameIn
      rcases dropped with none_ | none_
      · rw [cls, if_pos none_]
      · rw [request_none_still none_, ite_self]
    rw [step, discarded]

end Sys2Proof.Machine
end

section
/-! The routes of a record, its destinations and the ports and states of its legs: the judgement of a booking, the captures
of causes and the watch counters with their actions leave them alone. -/

namespace Sys2Proof.Machine
open Sys2Proof.Config

variable {s t u : State} {b : BookingIx} {m : Moment}

/-! ## Routes -/

/-- A leg's port and state. -/
def Booking.legView (r : Booking) (l : LegId) : Option (PortIx × LegState) := (r.leg l).map fun x => (x.port, x.state)

/-- The destinations of record `b`. -/
def State.destsOf (s : State) (b : BookingIx) : Option (List Dest) := (s.booking b).map (·.dests)

/-- The port and state of leg `l` of record `b`. -/
def State.legViewOf (s : State) (b : BookingIx) (l : LegId) : Option (PortIx × LegState) := (s.booking b).bind (·.legView l)

/-- The records have the same destinations, accounts included, and the same ports and states of their legs. -/
structure SameRoutes (s t : State) : Prop where
  dests : ∀ b, t.destsOf b = s.destsOf b
  legs : ∀ b l, t.legViewOf b l = s.legViewOf b l

theorem SameRoutes.refl (s : State) : SameRoutes s s := ⟨fun _ => rfl, fun _ _ => rfl⟩

theorem SameRoutes.trans (h : SameRoutes s t) (k : SameRoutes t u) : SameRoutes s u :=
  ⟨fun b => (k.dests b).trans (h.dests b), fun b l => (k.legs b l).trans (h.legs b l)⟩

/-- The same, the later part first. -/
theorem SameRoutes.after (k : SameRoutes t u) (h : SameRoutes s t) : SameRoutes s u := h.trans k

theorem SameRoutes.of_bookings (h : t.bookings = s.bookings) : SameRoutes s t :=
  ⟨fun b => by rw [State.destsOf, State.booking_congr h]; rfl, fun b l => by rw [State.legViewOf, State.booking_congr h]; rfl⟩

theorem destsOf_updBooking (f : Booking → Booking) (b c : BookingIx) (s : State) :
    (s.updBooking b f).destsOf c = if c = b then (s.booking b).map fun r => (f r).dests else s.destsOf c := by
  unfold State.updBooking State.destsOf
  cases hb : s.booking b with
  | none => by_cases e : c = b <;> simp [e, hb]
  | some r => by_cases e : c = b <;> simp [e]

theorem legViewOf_updBooking (f : Booking → Booking) (b c : BookingIx) (l : LegId) (s : State) :
    (s.updBooking b f).legViewOf c l = if c = b then (s.booking b).bind fun r => (f r).legView l else s.legViewOf c l := by
  unfold State.updBooking State.legViewOf
  cases hb : s.booking b with
  | none => by_cases e : c = b <;> simp [e, hb]
  | some r => by_cases e : c = b <;> simp [e]

theorem sameRoutes_updBooking {f : Booking → Booking} (dests : ∀ r, (f r).dests = r.dests)
    (legs : ∀ r l, (f r).legView l = r.legView l) (b : BookingIx) (s : State) : SameRoutes s (s.updBooking b f) where
  dests c := by
    rw [destsOf_updBooking]
    split
    · next e => subst e; simp [State.destsOf, dests]
    · rfl
  legs c l := by
    rw [legViewOf_updBooking]
    split
    · next e => subst e; simp [State.legViewOf, legs]
    · rfl

theorem updLeg_dests (r : Booking) (l : LegId) (f : Leg → Leg) : (r.updLeg l f).dests = r.dests := by cases l <;> rfl

theorem updLeg_leg (r : Booking) (l k : LegId) (f : Leg → Leg) :
    (r.updLeg l f).leg k = if k = l then (r.leg l).map f else r.leg k := by
  cases l <;> cases k <;> rfl

/-- A change of a leg that leaves its port and state. -/
theorem sameRoutes_updLeg {f : Leg → Leg} (h : ∀ x, (f x).port = x.port ∧ (f x).state = x.state) (b : BookingIx)
    (l : LegId) (s : State) : SameRoutes s (s.updBooking b fun r => r.updLeg l f) := by
  refine sameRoutes_updBooking (fun r => updLeg_dests r l f) (fun r k => ?_) b s
  unfold Booking.legView
  rw [updLeg_leg]
  split
  · next e => subst e; cases r.leg k <;> simp [h]
  · rfl

theorem sameRoutes_foldl {α : Type} {f : State → α → State} (h : ∀ s x, SameRoutes s (f s x)) (l : List α) (s : State) :
    SameRoutes s (l.foldl f s) := by
  induction l generalizing s with
  | nil => exact .refl s
  | cons x l ih => exact (h s x).trans (ih _)

/-! ## Probe requests, captures and judgements (R92 to R101, R115 to R121) -/

theorem sameRoutes_probeRequest (p : PortIx) (s : State) : SameRoutes s (s.probeRequest p).1 :=
  .of_bookings (by rw [probeRequest_rest])

theorem sameRoutes_causeRequest (p : PortIx) (s : State) : SameRoutes s (s.causeRequest p).1 := by
  unfold State.causeRequest
  split
  · exact .refl s
  · split
    · exact sameRoutes_probeRequest p s
    · exact .refl s

theorem sameRoutes_autoProbe (p : PortIx) (s : State) : SameRoutes s (s.autoProbe p) := by
  unfold State.autoProbe
  split
  · exact sameRoutes_probeRequest p s
  · exact .refl s

theorem sameRoutes_actionProbe (p : PortIx) (s : State) : SameRoutes s (s.actionProbe p) := by
  unfold State.actionProbe
  split
  · exact sameRoutes_probeRequest p s
  · exact .refl s

theorem sameRoutes_causeFor (sit : Situation) (p : PortIx) (s : State) : SameRoutes s (s.causeFor sit p).1 := by
  unfold State.causeFor
  cases sit with
  | dark =>
    dsimp only
    split
    · have := sameRoutes_causeRequest p s
      split <;> next h => simpa [h] using this
    · exact .refl s
  | line => exact .refl s
  | ident => exact .refl s
  | watch => exact .refl s
  | source => exact .refl s

theorem sameRoutes_capture1 (b : BookingIx) (l : LegId) (s : State) : SameRoutes s (s.capture1 b l) := by
  unfold State.capture1
  split
  · exact .refl s
  · split
    · split
      · exact .refl s
      · split
        · exact .refl s
        · split
          · exact .refl s
          · exact (sameRoutes_causeFor _ _ s).trans (sameRoutes_updBooking (by intro; rfl) (by intros; rfl) _ _)
    · exact .refl s

theorem sameRoutes_captureLegs (b : BookingIx) (ls : List LegId) (s : State) : SameRoutes s (s.captureLegs b ls) :=
  sameRoutes_foldl (fun s l => sameRoutes_capture1 b l s) ls s

theorem sameRoutes_enterOutage (m : Moment) (b : BookingIx) (s : State) : SameRoutes s (s.enterOutage m b) :=
  (sameRoutes_captureLegs ..).after ((sameRoutes_updBooking (by intro; rfl) (by intros; rfl) b _).after (.of_bookings rfl))

theorem sameRoutes_exitOutage (b : BookingIx) (s : State) : SameRoutes s (s.exitOutage b) :=
  (sameRoutes_updBooking (by intro; rfl) (by intros; rfl) b _).after
    (sameRoutes_updBooking (by intro; rfl) (by intros; rfl) b s)

theorem sameRoutes_judge (m : Moment) (b : BookingIx) (ls : List LegId) (s : State) : SameRoutes s (s.judge m b ls) := by
  unfold State.judge
  split
  · exact .refl s
  · split
    · split
      · split
        · exact sameRoutes_exitOutage b s
        · exact sameRoutes_captureLegs ..
      · split
        · exact .refl s
        · exact sameRoutes_enterOutage m b s
    · exact .refl s

theorem sameRoutes_recapturePort (m : Moment) (p : PortIx) (s : State) : SameRoutes s (s.recapturePort m p) := by
  refine sameRoutes_foldl (fun s b => ?_) _ s
  split
  · exact .refl s
  · split
    · exact sameRoutes_captureLegs ..
    · exact .refl s

/-! ## The watch counters with their actions (R131 to R139) -/

theorem sameRoutes_excludeLeg (m : Moment) (b : BookingIx) (l : LegId) (s : State) :
    SameRoutes s (s.excludeLeg m b l) := by
  unfold State.excludeLeg
  split
  · exact .refl s
  · split
    · exact .refl s
    · split
      · exact (sameRoutes_updLeg (by intro; exact ⟨rfl, rfl⟩) b l s).trans (sameRoutes_judge ..)
      · exact .refl s

theorem sameRoutes_runAction (m : Moment) (c : Counter) (s : State) : SameRoutes s (s.runAction m c) := by
  unfold State.runAction
  split
  · exact sameRoutes_excludeLeg ..
  · exact sameRoutes_actionProbe ..
  · exact .refl s

theorem sameRoutes_addValue (m : Moment) (i : CounterIx) (w : Nat) (s : State) : SameRoutes s (s.addValue m i w) := by
  dsimp only [State.addValue]
  split
  · unfold State.overflowAt
    dsimp only
    refine (sameRoutes_runAction ..).after (.of_bookings ?_)
    split
    · show (ite _ _ _ : State).bookings = _
      split <;> rfl
    · split <;> rfl
  · exact .of_bookings rfl

theorem sameRoutes_countEvent (m : Moment) (e : WatchEvent) (i : CounterIx) (s : State) :
    SameRoutes s (s.countEvent m e i) := by
  dsimp only [State.countEvent]
  split
  · exact .refl s
  · split
    · exact sameRoutes_addValue ..
    · exact .of_bookings rfl

theorem sameRoutes_watch (m : Moment) (e : WatchEvent) (s : State) : SameRoutes s (s.watch m e) :=
  sameRoutes_foldl (fun s i => sameRoutes_countEvent m e i s) _ s

end Sys2Proof.Machine
end

section
/-! A port that leaves UP: its legs SILENT, its media queues emptied, each copy an egress drop (R53, R55, R73, R79). -/

namespace Sys2Proof.Machine
open Sys2Proof.Config

variable {s t u : State} {b : BookingIx} {m : Moment} {p : PortIx} {R : Reach}

/-! ## Within reach -/

/-- Every record and the counters lie within reach. -/
structure Reach.Whole (R : Reach) : Prop where
  record : ∀ b x, R.record b x
  counters : R.counters

theorem Reach.Whole.watches (h : R.Whole) : R.Watches := ⟨fun b r _ => h.record b r.state, h.counters⟩

theorem Reach.Whole.has (h : R.Whole) (s : State) (b : BookingIx) : R.has s b := fun r _ => h.record b r.state

/-- Every record and the counters, and no queue. -/
def Reach.records : Reach := ⟨fun _ _ => True, fun _ => False, True⟩

theorem records_whole : Reach.records.Whole := ⟨fun _ _ => trivial, trivial⟩

/-- Every record, the counters and the media queues of port `p`. -/
def Reach.line (p : PortIx) : Reach := ⟨fun _ _ => True, fun q => q = p, True⟩

theorem line_whole (p : PortIx) : (Reach.line p).Whole := ⟨fun _ _ => trivial, trivial⟩

theorem Work.line (h : Work .records s t) (p : PortIx) : Work (.line p) s t :=
  h.mono (fun _ _ => id) (fun _ => False.elim) id

theorem legSilent_within (hR : R.Whole) (m : Moment) (b : BookingIx) (l : LegId) (s : State) :
    Work R s (s.legSilent m b l) := by
  unfold State.legSilent
  split
  · exact .refl s
  · split
    · exact .refl s
    · split
      · exact (work_watch hR.watches ..).after ((work_judge_has m _ (hR.has _ _)).after
          ((Work.of (.raise (by simp [FaultClass.ofWork]) _ _)).after (work_updLeg (hR.has _ _) (by intro; rfl))))
      · exact .refl s

theorem silencePort_within (hR : R.Whole) (m : Moment) (p : PortIx) (s : State) : Work R s (s.silencePort m p) :=
  work_foldl (fun s b => work_foldl (fun s l => legSilent_within hR m b l s) _ s) _ s

theorem egressDrop_within (hR : R.Whole) (m : Moment) (p : PortIx) (c : MediaCopy) (s : State) :
    Work R s (s.egressDrop m p c) :=
  (work_watch hR.watches ..).after
    (work_updBooking (hR.has _ _) (fun r => countDrop_bare r _) fun r => countDrop_state r _)

theorem emptyMedia_within (hR : R.Whole) (hp : R.media p) (m : Moment) (s : State) : Work R s (s.emptyMedia m p) := by
  dsimp only [State.emptyMedia]
  exact (work_foldl (fun s c => egressDrop_within hR m p c s) _ _).after
    (.of (.media hp rfl fun _ => by simp [Port.MediaOk]))

theorem leaveUp_within (hR : R.Whole) (hp : R.media p) (m : Moment) (s : State) : Work R s (s.leaveUp m p) :=
  (emptyMedia_within hR hp m _).after (silencePort_within hR m p s)

theorem recapturePort_within (hR : R.Whole) (m : Moment) (p : PortIx) (s : State) : Work R s (s.recapturePort m p) := by
  refine work_foldl (fun s b => ?_) _ s
  split
  · exact .refl s
  · split
    · exact work_captureLegs _ (hR.has _ _)
    · exact .refl s

/-! ## Silent legs (R53, R79) -/

/-- A leg that waits or receives becomes SILENT. -/
def LegState.silenced (x : LegState) : LegState := if x = .waiting ∨ x = .receiving then .silent else x

theorem silenced_silenced (x : LegState) : x.silenced.silenced = x.silenced := by cases x <;> rfl

theorem silenced_of_not {x : LegState} (h : ¬ (x = .waiting ∨ x = .receiving)) : x.silenced = x := if_neg h

theorem legSilent_legViewOf (m : Moment) (b c : BookingIx) (l k : LegId) (s : State) :
    (s.legSilent m b l).legViewOf c k =
      if c = b ∧ k = l then (s.legViewOf c k).map fun x => (x.1, x.2.silenced) else s.legViewOf c k := by
  unfold State.legSilent
  split
  · next hb =>
    split
    · next e => obtain ⟨rfl, rfl⟩ := e; simp [State.legViewOf, hb]
    · rfl
  · next r hb =>
    split
    · next hl =>
      split
      · next e => obtain ⟨rfl, rfl⟩ := e; simp [State.legViewOf, Booking.legView, hb, hl]
      · rfl
    · next lg hl =>
      split
      · next runs =>
        dsimp only
        rw [(sameRoutes_watch ..).legs, (sameRoutes_judge ..).legs,
          show ∀ v : State, (v.raise .legSilent (.ofLeg lg.port b l) none).legViewOf c k = v.legViewOf c k from fun _ => rfl,
          legViewOf_updBooking, hb]
        by_cases e : c = b
        · subst e
          by_cases e' : k = l
          · subst e'
            simp [State.legViewOf, Booking.legView, updLeg_leg, hb, hl, LegState.silenced, runs]
          · simp [State.legViewOf, Booking.legView, updLeg_leg, hb, e']
        · simp [e]
      · next idle =>
        split
        · next e =>
          obtain ⟨rfl, rfl⟩ := e
          simp [State.legViewOf, Booking.legView, hb, hl, silenced_of_not idle]
        · rfl

theorem legSilent_destsOf (m : Moment) (b c : BookingIx) (l : LegId) (s : State) :
    (s.legSilent m b l).destsOf c = s.destsOf c := by
  unfold State.legSilent
  split
  · rfl
  · next r hb =>
    split
    · rfl
    · next lg _ =>
      split
      · dsimp only
        rw [(sameRoutes_watch ..).dests, (sameRoutes_judge ..).dests,
          show ∀ v : State, (v.raise .legSilent (.ofLeg lg.port b l) none).destsOf c = v.destsOf c from fun _ => rfl,
          destsOf_updBooking]
        split
        · next e => subst e; simp [State.destsOf, updLeg_dests]
        · rfl
      · rfl

/-- What each step of a fold leaves alone the fold leaves alone. -/
theorem foldl_keeps {α β : Type} {g : State → β} {f : State → α → State} (h : ∀ s x, g (f s x) = g s) (l : List α)
    (s : State) : g (l.foldl f s) = g s := by
  induction l generalizing s with
  | nil => rfl
  | cons x l ih => exact (ih _).trans (h s x)

theorem foldl_legSilent_legViewOf (m : Moment) (b c : BookingIx) (k : LegId) (ls : List LegId) (s : State) :
    (ls.foldl (fun s l => s.legSilent m b l) s).legViewOf c k =
      if c = b ∧ k ∈ ls then (s.legViewOf c k).map fun x => (x.1, x.2.silenced) else s.legViewOf c k := by
  induction ls generalizing s with
  | nil => simp
  | cons l ls ih =>
    rw [List.foldl_cons, ih, legSilent_legViewOf]
    by_cases e : c = b
    · by_cases e' : k = l
      · simp [e, e', Function.comp_def, silenced_silenced]
      · simp [e, e']
    · simp [e]

/-- A leg as its port leaves UP. -/
def silencedOn (p : PortIx) (x : PortIx × LegState) : PortIx × LegState := if x.1 = p then (x.1, x.2.silenced) else x

theorem silencedOn_silencedOn (p : PortIx) (x : PortIx × LegState) : silencedOn p (silencedOn p x) = silencedOn p x := by
  unfold silencedOn
  by_cases e : x.1 = p
  · simp [e, silenced_silenced]
  · simp [e]

/-- One record as its legs on `p` become SILENT. -/
theorem silenceRecord_legViewOf (m : Moment) (p : PortIx) (b c : BookingIx) (k : LegId) (s : State) :
    (([LegId.main, LegId.backup].filter fun l =>
        (s.booking b).any fun r => (r.leg l).any fun lg => decide (lg.port = p)).foldl
      (fun s l => s.legSilent m b l) s).legViewOf c k =
      if c = b then (s.legViewOf c k).map (silencedOn p) else s.legViewOf c k := by
  rw [foldl_legSilent_legViewOf]
  by_cases e : c = b
  · subst e
    have listed : k ∈ [LegId.main, LegId.backup] := by cases k <;> simp
    cases hb : s.booking c with
    | none => simp [State.legViewOf, hb]
    | some r =>
      cases hl : r.leg k with
      | none => simp [State.legViewOf, Booking.legView, hb, hl]
      | some lg =>
        simp only [List.mem_filter, listed, Option.any_some, hl, decide_eq_true_eq, true_and, State.legViewOf, hb,
          Option.bind_some, Booking.legView, Option.map_some, if_true, silencedOn]
        split <;> rfl
  · simp [e]

theorem foldl_silence_legViewOf (m : Moment) (p : PortIx) (c : BookingIx) (k : LegId) (l : List BookingIx) (s : State) :
    (l.foldl (fun s b => ([LegId.main, LegId.backup].filter fun l =>
        (s.booking b).any fun r => (r.leg l).any fun lg => decide (lg.port = p)).foldl
      (fun s l => s.legSilent m b l) s) s).legViewOf c k =
      if c ∈ l then (s.legViewOf c k).map (silencedOn p) else s.legViewOf c k := by
  induction l generalizing s with
  | nil => simp
  | cons b l ih =>
    rw [List.foldl_cons, ih, silenceRecord_legViewOf]
    by_cases e : c = b
    · simp [e, Function.comp_def, silencedOn_silencedOn]
    · simp [e]

/-- Every leg on `p` that waited or received is SILENT, every other leg as it was. -/
theorem silencePort_legViewOf (m : Moment) (p : PortIx) (c : BookingIx) (k : LegId) (s : State) :
    (s.silencePort m p).legViewOf c k = (s.legViewOf c k).map (silencedOn p) := by
  unfold State.silencePort
  rw [foldl_silence_legViewOf, if_pos (mem_bookingOrder m c)]

theorem silencePort_destsOf (m : Moment) (p : PortIx) (c : BookingIx) (s : State) :
    (s.silencePort m p).destsOf c = s.destsOf c :=
  foldl_keeps (g := fun s => s.destsOf c)
    (fun s b => foldl_keeps (g := fun s => s.destsOf c) (fun s l => legSilent_destsOf m b c l s) _ s) _ s

/-! ## Egress drops (R55, R73) -/

theorem updAt_getElem? {α : Type} (f : α → α) (n : Nat) (l : List α) (i : Nat) :
    (updAt f n l)[i]? = if n = i + 1 then l[i]?.map f else l[i]? := by
  fun_induction updAt f n l generalizing i with
  | case1 n => simp
  | case2 l _ => simp
  | case3 x t => cases i <;> simp
  | case4 n x t ih =>
    cases i with
    | zero => simp
    | succ i => simp [ih]

theorem updAt_length {α : Type} (f : α → α) (n : Nat) (l : List α) : (updAt f n l).length = l.length := by
  fun_induction updAt f n l <;> simp_all

theorem drop_eq (d : Dest) : d.drop = d.dropped 1 := rfl

theorem dropped_zero (d : Dest) : d.dropped 0 = d := by
  cases d with
  | mk port label account => cases account <;> rfl

/-- Drops counted one after another add up. -/
theorem dropped_dropped (d : Dest) (n k : Nat) : (d.dropped n).dropped k = d.dropped (n + k) := by
  cases d with
  | mk port label account =>
    cases account with
    | none => rfl
    | some a =>
      by_cases hn : n = 0
      · subst hn; simp [Dest.dropped]
      · by_cases hk : k = 0
        · subst hk; simp [Dest.dropped]
        · have : n + k ≠ 0 := by omega
          simp only [Dest.dropped, Option.map_some, hn, hk, this, if_false]
          congr 3
          · omega
          · rw [Nat.mod_add_mod, Nat.add_assoc]

/-- The copies `l` have been egress drops between `s` and `t`: each counted once for the destination it names when its
booking is LIVE or OVERRUN (R73). -/
def Drops (l : List MediaCopy) (s t : State) : Prop :=
  ∀ (b : BookingIx) (x : Booking), s.booking b = some x → ∃ y, t.booking b = some y ∧ y.state = x.state ∧
    y.dests.length = x.dests.length ∧ ∀ (i : Nat) (d : Dest), x.dests[i]? = some d → y.dests[i]? = some
      (if x.state = .live ∨ x.state = .overrun then d.dropped (l.countP fun c => decide (c.booking = b ∧ c.position = i + 1))
      else d)

theorem Drops.of_same (states : ∀ b, t.stateOf b = s.stateOf b) (dests : ∀ b, t.destsOf b = s.destsOf b) :
    Drops [] s t := by
  intro b x hx
  have state := states b
  have dest := dests b
  rw [stateOf_of_booking hx] at state
  obtain ⟨y, hy, same⟩ := stateOf_eq_some.1 state
  simp only [State.destsOf, hx, hy, Option.map_some, Option.some_inj] at dest
  exact ⟨y, hy, same, by rw [dest], fun i d hd => by rw [dest]; simp [hd, dropped_zero]⟩

theorem Drops.trans {l k : List MediaCopy} (h : Drops l s t) (h' : Drops k t u) : Drops (l ++ k) s u := by
  intro b x hx
  obtain ⟨y, hy, state, length, dests⟩ := h b x hx
  obtain ⟨z, hz, state', length', dests'⟩ := h' b y hy
  refine ⟨z, hz, state'.trans state, length'.trans length, fun i d hd => ?_⟩
  rw [dests' i _ (dests i d hd), state, List.countP_append]
  split
  · rw [dropped_dropped]
  · rfl

theorem Drops.mediaDropped (h : Drops ((s.port p).class1 ++ (s.port p).class2) s t) : MediaDropped s t p := by
  intro b x hx
  obtain ⟨y, hy, -, length, dests⟩ := h b x hx
  exact ⟨y, hy, length, dests⟩

/-- Work that keeps the destinations drops nothing. -/
theorem Work.drops (h : Work R s t) (k : SameRoutes s t) : Drops [] s t := .of_same h.stateOf k.dests

theorem drops_countDrop (c : MediaCopy) (s : State) :
    Drops [c] s (s.updBooking c.booking fun r => r.countDrop c.position) := by
  intro b x hx
  by_cases e : b = c.booking
  · subst e
    refine ⟨x.countDrop c.position, by simp [State.updBooking, hx], countDrop_state .., ?_, fun i d hd => ?_⟩
    · unfold Booking.countDrop
      split
      · exact updAt_length ..
      · rfl
    · by_cases forwarding : x.state = .live ∨ x.state = .overrun
      · by_cases e : c.position = i + 1
        · simp [Booking.countDrop, Booking.forwarding, forwarding, updAt_getElem?, hd, e, drop_eq]
        · simp [Booking.countDrop, Booking.forwarding, forwarding, updAt_getElem?, hd, e, dropped_zero]
      · simp [Booking.countDrop, Booking.forwarding, forwarding, hd]
  · have other : c.booking ≠ b := fun k => e k.symm
    refine ⟨x, ?_, rfl, rfl, fun i d hd => by simp [hd, other, dropped_zero]⟩
    unfold State.updBooking
    split
    · exact hx
    · simp [e, hx]

theorem drops_egressDrop (m : Moment) (p : PortIx) (c : MediaCopy) (s : State) : Drops [c] s (s.egressDrop m p c) :=
  (drops_countDrop c s).trans ((work_watch Reach.all_watches ..).drops (sameRoutes_watch ..))

theorem drops_foldl (m : Moment) (p : PortIx) (l : List MediaCopy) (s : State) :
    Drops l s (l.foldl (fun s c => s.egressDrop m p c) s) := by
  induction l generalizing s with
  | nil => exact .of_same (fun _ => rfl) fun _ => rfl
  | cons c l ih => exact (drops_egressDrop m p c s).trans (ih _)

/-- Both media queues of `p` emptied: every copy in them has been an egress drop. -/
theorem drops_emptyMedia (m : Moment) (p : PortIx) (s : State) :
    Drops ((s.port p).class1 ++ (s.port p).class2) s (s.emptyMedia m p) :=
  drops_foldl m p _ (s.setPort p { s.port p with class1 := [], class2 := [] })

theorem emptyMedia_legViewOf (m : Moment) (p : PortIx) (b : BookingIx) (l : LegId) (s : State) :
    (s.emptyMedia m p).legViewOf b l = s.legViewOf b l := by
  refine foldl_keeps (g := fun s => s.legViewOf b l) (fun s c => ?_) _ (s.setPort p { s.port p with class1 := [], class2 := [] })
  show (State.watch _ _ _).legViewOf b l = _
  rw [(sameRoutes_watch ..).legs, legViewOf_updBooking]
  split
  · next e =>
    subst e
    have legs : ∀ r : Booking, (r.countDrop c.position).legView l = r.legView l := fun r => by
      unfold Booking.countDrop; split <;> rfl
    simp [State.legViewOf, legs]
  · rfl

theorem emptyMedia_queues (m : Moment) (p : PortIx) (s : State) :
    ((s.emptyMedia m p).port p).class1 = [] ∧ ((s.emptyMedia m p).port p).class2 = [] := by
  let v := s.setPort p { s.port p with class1 := [], class2 := [] }
  have gone : Work .records v (s.emptyMedia m p) :=
    work_foldl (fun s c => egressDrop_within records_whole m p c s) _ v
  obtain ⟨h1, h2⟩ := gone.sameMedia (p := p) id
  have empty : v.port p = { s.port p with class1 := [], class2 := [] } := by simp [v]
  rw [h1, h2, empty]
  exact ⟨rfl, rfl⟩

/-! ## Both -/

theorem leaveUp_legViewOf (m : Moment) (p : PortIx) (b : BookingIx) (l : LegId) (s : State) :
    (s.leaveUp m p).legViewOf b l = (s.legViewOf b l).map (silencedOn p) :=
  (emptyMedia_legViewOf ..).trans (silencePort_legViewOf ..)

/-- What leaves the queues of `p` as a port leaves UP is what stood in them. -/
theorem drops_leaveUp (m : Moment) (p : PortIx) (s : State) :
    Drops ((s.port p).class1 ++ (s.port p).class2) s (s.leaveUp m p) := by
  have work : Work .records s (s.silencePort m p) :=
    silencePort_within records_whole m p s
  obtain ⟨h1, h2⟩ := work.sameMedia (p := p) id
  have silent : Drops [] s (s.silencePort m p) := .of_same work.stateOf fun c => silencePort_destsOf m p c s
  have gone := drops_emptyMedia m p (s.silencePort m p)
  rw [h1, h2] at gone
  exact silent.trans gone

end Sys2Proof.Machine
end

section
/-! Light lost (R49, R53, R55, R73, R79, R99, R143 to R145). -/

namespace Sys2Proof.Machine
open Sys2Proof.Config

variable {s t u : State} {b : BookingIx} {m : Moment} {p : PortIx} {R : Reach}

/-! ## The first-fault capture (R143 to R145) -/

theorem Work.capture (h : Work R s t) : t.capture = s.capture := by
  refine h.chain (P := fun s t => t.capture = s.capture) (fun _ => rfl) (fun h k => k.trans h) fun {s t} k => ?_
  cases k with
  | probe _ p => rw [probeRequest_rest]
  | record => rfl
  | counters => rfl
  | raise => rfl
  | media => rfl

/-- What an armed capture latches of the raise `x` in the state `s`. -/
def State.latch (x : Raise) (s : State) : Capture :=
  { cls := x.cls, items := x.items, second := s.sec, milli := s.milli, timeSet := s.timeSet }

theorem takeRaise_latches (armed : s.capture = none) (x : Raise) : (s.takeRaise x).capture = some (s.latch x) := by
  have latched : (s.recordRaise x.cls x.items).capture = some (s.latch x) := by
    dsimp only [State.recordRaise]
    rw [armed]
    rfl
  dsimp only [State.takeRaise]
  split
  · exact latched
  · exact (onlyAnswers_offerControl ..).capture _ latched

/-- An armed capture latches the first of the event's raises in the moment's order. -/
theorem flush_latches (armed : s.capture = none) {x : Raise} {rest : List Raise} (first : s.raiseOrder m = x :: rest) :
    (s.flush m).capture = some (s.latch x) := by
  show (s.takeRaises (s.raiseOrder m)).capture = _
  rw [first]
  exact (onlyAnswers_takeRaises rest (s.takeRaise x)).capture _ (takeRaise_latches armed x)

/-- Where the moment asks for no other first, the raises keep the order in which they were made. -/
theorem raiseOrder_plain (h : m.raises = []) (s : State) : s.raiseOrder m = s.raised := by
  simp [State.raiseOrder, h, pickRaises]

/-! ## Probes asked for (R97, R99) -/

/-- A probe of `p` exists, or the places of the waiting ones are full. -/
def State.Asked (p : PortIx) (s : State) : Prop := s.probeOf p ≠ none ∨ 8 ≤ s.probeWaiting.length

theorem probeOf_ne_none : s.probeOf p ≠ none ↔ p ∈ s.probedPorts := by
  unfold State.probeOf State.probedPorts
  cases s.flight with
  | none => simp
  | some f =>
    by_cases e : f.port = p
    · simp [e]
    · have e' : p ≠ f.port := fun k => e k.symm
      simp [e, e']

theorem probedPorts_congr (flight : t.flight = s.flight) (waits : t.probeWaiting = s.probeWaiting) :
    t.probedPorts = s.probedPorts := by simp [State.probedPorts, flight, waits]

theorem asked_iff : s.Asked p ↔ p ∈ s.probedPorts ∨ 8 ≤ s.probeWaiting.length := by rw [State.Asked, probeOf_ne_none]

theorem State.Asked.congr (h : s.Asked p) (flight : t.flight = s.flight) (waits : t.probeWaiting = s.probeWaiting) :
    t.Asked p := by
  rw [asked_iff] at h ⊢
  rwa [probedPorts_congr flight waits, waits]

/-- A probe request changes nothing, or adds its port to those probed, the waiting probes no fewer. -/
theorem probeRequest_cases (p : PortIx) (s : State) : ((s.probeRequest p).1 = s ∧ s.Asked p) ∨
    (∀ q, q ∈ (s.probeRequest p).1.probedPorts ↔ q = p ∨ q ∈ s.probedPorts) ∧
      s.probeWaiting.length ≤ (s.probeRequest p).1.probeWaiting.length := by
  unfold State.probeRequest
  cases asked : s.probeOf p with
  | some n => exact .inl ⟨rfl, .inl (by simp [asked])⟩
  | none =>
    dsimp only
    split
    · next full => exact .inl ⟨rfl, .inr full⟩
    · right
      split
      · next idle =>
        have idle : s.flight = none := Option.isNone_iff_eq_none.1 idle
        unfold State.enterFlight
        dsimp only
        split
        · simp [State.probedPorts, idle]
        · simp [State.probedPorts, idle]
      · refine ⟨fun q => ?_, by simp⟩
        simp only [State.probedPorts, List.map_append, List.map_cons, List.map_nil, List.mem_append, List.mem_singleton]
        exact or_rotate.trans or_rotate

theorem probeRequest_asked (p : PortIx) (s : State) : (s.probeRequest p).1.Asked p := by
  rcases probeRequest_cases p s with ⟨same, asked⟩ | ⟨ports, -⟩
  · rw [same]; exact asked
  · exact asked_iff.2 (.inl ((ports p).2 (.inl rfl)))

theorem Work.asked (h : Work R s t) (k : s.Asked p) : t.Asked p := by
  refine h.chain (P := fun s t => s.Asked p → t.Asked p) (fun _ => id) (fun h k x => k (h x)) (fun {s t} k asked => ?_) k
  cases k with
  | probe _ q =>
    rcases probeRequest_cases q s with ⟨same, -⟩ | ⟨ports, longer⟩
    · rwa [same]
    · rw [asked_iff] at asked ⊢
      exact asked.imp (fun k => (ports p).2 (.inr k)) longer.trans'
  | record => exact asked.congr rfl rfl
  | counters => exact asked.congr rfl rfl
  | raise => exact asked.congr rfl rfl
  | media => exact asked.congr rfl rfl

/-- What makes a loss of light on `p` ask for a probe (R99). -/
structure State.AutoProbes (s : State) (p : PortIx) : Prop where
  on : (s.port p).autoProbe = true
  fitted : s.fitted p = true
  running : s.restart = false
  carries : ∃ b x, s.booking b = some x ∧ x.carrying = true ∧ ∃ l ∈ x.legs, l.port = p

theorem autoProbe_asked (h : s.AutoProbes p) : (s.autoProbe p).Asked p := by
  obtain ⟨on, fitted, running, b, x, hx, carrying, l, hl, port⟩ := h
  have any : s.anyBooking (fun r => r.carrying && r.legs.any fun l => decide (l.port = p)) = true :=
    anyBooking_iff.2 ⟨b, x, hx, by simpa [carrying] using ⟨l, hl, port⟩⟩
  unfold State.autoProbe
  rw [if_pos (by simp [on, fitted, running, any])]
  exact probeRequest_asked p s

theorem legPorts_of_terms {x y : Booking} (h : y.fixedTerms = x.fixedTerms) :
    y.legs.map (·.port) = x.legs.map (·.port) := by
  have e := congrArg (fun k => k.2.1.map (·.1)) h
  simpa [Booking.fixedTerms, Function.comp_def] using e

theorem Work.autoProbes (h : Work R s t) (k : s.AutoProbes p) : t.AutoProbes p := by
  obtain ⟨on, fitted, running, b, x, hx, carrying, port⟩ := k
  have state := h.stateOf b
  have terms := h.later.termsOf b
  rw [stateOf_of_booking hx] at state
  obtain ⟨y, hy, same⟩ := stateOf_eq_some.1 state
  simp only [State.termsOf, hx, hy, Option.map_some, Option.some_inj] at terms
  have face := h.later.face p
  refine ⟨?_, ?_, h.restart.trans running, b, y, hy, ?_, ?_⟩
  · have e := congrArg Port.autoProbe face
    exact Eq.trans e on
  · rw [State.fitted, h.later.straps]; exact fitted
  · rw [carrying_eq, same, ← carrying_eq]; exact carrying
  · have listed : p ∈ x.legs.map (·.port) := List.mem_map.2 port
    rw [← legPorts_of_terms terms] at listed
    exact List.mem_map.1 listed

/-! ## Loss of light -/

/-- The state in which `p` is DOWN and LOS raised, before anything is handed on. -/
def State.darkened (m : Moment) (p : PortIx) (s : State) : State :=
  ((s.advance m).setLink p .down).raise .los (.ofPort p) none

/-- Nothing but the legs and queues of `p` is touched beside what any work touches, and before and after the queues are
emptied, routes and queues stay. -/
structure LightLost (m : Moment) (p : PortIx) (s a l w : State) : Prop where
  before : Work .records (s.darkened m p) a
  beforeRoutes : SameRoutes (s.darkened m p) a
  left : l = if (s.port p).link = .up then a.leaveUp m p else a
  after : Work .records l w
  afterRoutes : SameRoutes l w
  asks : (s.darkened m p).AutoProbes p → w.Asked p

theorem lightLost_lit (lit : (s.port p).link ≠ .down) (m : Moment) : ∃ a l w,
    exec (.lightLost m p) s = .next (w.flush m) ∧ LightLost m p s a l w := by
  have up : decide (((s.advance m).port p).link = .up) = decide ((s.port p).link = .up) := by rw [State.advance_port]
  have step : exec (.lightLost m p) s = .next (((s.advance m).loseLight m p).flush m) :=
    if_pos (by simpa [Port.lit] using lit)
  let v := s.darkened m p
  let a := if m.autoFirst then v.autoProbe p else v
  let l := if (s.port p).link = .up then a.leaveUp m p else a
  let r := l.recapturePort m p
  have parts : (s.advance m).loseLight m p = if m.autoFirst then r else r.autoProbe p := by
    dsimp only [State.loseLight, r, l, a]
    rw [up]
    simp only [decide_eq_true_eq]
    rfl
  have before : Work .records v a := by
    dsimp only [a]; split
    · exact work_autoProbe p v
    · exact .refl v
  have beforeRoutes : SameRoutes v a := by
    dsimp only [a]; split
    · exact sameRoutes_autoProbe p v
    · exact .refl v
  have left : Work .all a l := by
    dsimp only [l]; split
    · exact work_leaveUp m p a
    · exact .refl a
  have captured : Work .records l r := recapturePort_within records_whole m p l
  have capturedRoutes : SameRoutes l r := sameRoutes_recapturePort m p l
  cases first : m.autoFirst with
  | true =>
    rw [first] at parts
    refine ⟨a, l, r, by rw [step, parts]; rfl, before, beforeRoutes, rfl, captured, capturedRoutes, fun asks => ?_⟩
    have e : a = v.autoProbe p := if_pos first
    exact captured.asked (left.asked (e ▸ autoProbe_asked asks))
  | false =>
    rw [first] at parts
    refine ⟨a, l, r.autoProbe p, by rw [step, parts]; rfl, before, beforeRoutes, rfl,
      captured.trans (work_autoProbe p r), capturedRoutes.trans (sameRoutes_autoProbe p r), fun asks => ?_⟩
    exact autoProbe_asked (captured.autoProbes (left.autoProbes (before.autoProbes asks)))

section Effects
variable {a l w : State}

theorem LightLost.work (h : LightLost m p s a l w) : Work (.line p) (s.darkened m p) w := by
  have left : Work (.line p) a l := by
    rw [h.left]; split
    · exact leaveUp_within (line_whole p) rfl m a
    · exact .refl a
  exact ((h.before.line p).trans left).trans (h.after.line p)

/-- LOS stands first among the raises. -/
theorem LightLost.raised (h : LightLost m p s a l w) :
    ∃ rest, w.raised = { cls := .los, items := .ofPort p, detail := none } :: rest := by
  obtain ⟨rest, e, -⟩ := h.work.raised
  have fresh : (s.darkened m p).raised = [{ cls := .los, items := .ofPort p, detail := none }] := by
    simp [State.darkened, State.setLink]
  exact ⟨rest, by rw [e, fresh]; rfl⟩

theorem LightLost.legs (h : LightLost m p s a l w) (b : BookingIx) (k : LegId) : w.legViewOf b k =
    (s.legViewOf b k).map fun x => if (s.port p).link = .up then silencedOn p x else x := by
  have start : (s.darkened m p).legViewOf b k = s.legViewOf b k := by
    have same : (s.darkened m p).bookings = s.bookings := State.advance_bookings s m
    exact (SameRoutes.of_bookings same).legs b k
  rw [h.afterRoutes.legs, h.left, ← start, ← h.beforeRoutes.legs]
  split
  · exact leaveUp_legViewOf ..
  · simp

theorem darkened_port (m : Moment) (p q : PortIx) (s : State) : (s.darkened m p).port q =
    if q = p then { s.port p with link := .down, upWhole := false } else s.port q := by
  unfold State.darkened State.setLink
  rw [State.raise_port, State.setPort_port, State.advance_port, State.advance_port]

theorem LightLost.emptied (h : LightLost m p s a l w) (up : (s.port p).link = .up) :
    (w.port p).class1 = [] ∧ (w.port p).class2 = [] ∧ Drops ((s.port p).class1 ++ (s.port p).class2) s w := by
  obtain ⟨b1, b2⟩ := h.before.sameMedia (p := p) id
  rw [darkened_port, if_pos rfl] at b1 b2
  obtain ⟨a1, a2⟩ := h.after.sameMedia (p := p) id
  have left : l = a.leaveUp m p := by rw [h.left, if_pos up]
  obtain ⟨e1, e2⟩ := emptyMedia_queues m p (a.silencePort m p)
  rw [left] at a1 a2
  have start : Drops [] s (s.darkened m p) :=
    .of_same (fun b => stateOf_congr (State.advance_bookings s m) b)
      (SameRoutes.of_bookings (s := s) (t := s.darkened m p) (State.advance_bookings s m)).dests
  have gone := drops_leaveUp m p a
  rw [b1, b2, ← left] at gone
  have all := ((start.trans (h.before.drops h.beforeRoutes)).trans gone).trans (h.after.drops h.afterRoutes)
  exact ⟨a1.trans e1, a2.trans e2, by simpa using all⟩

end Effects

theorem keepsSettings_darkened (m : Moment) (p : PortIx) (s : State) : KeepsSettings s (s.darkened m p) := by
  have dark : KeepsSettings (s.advance m) ((s.advance m).setLink p .down) := keepsSettings_setPort rfl
  exact ((keepsSettings_advance m s).trans dark).trans (calm_raise .los (.ofPort p) none _).keepsSettings

/-- The conditions of R99 read the record as the manual puts them. -/
theorem autoProbes_darkened (on : (s.port p).autoProbe = true) (fitted : s.fitted p = true) (running : s.restart = false)
    (carries : ∃ b x, s.booking b = some x ∧ x.state ∈ [.armed, .live, .overrun] ∧ ∃ l ∈ x.legs, l.port = p) (m : Moment) :
    (s.darkened m p).AutoProbes p := by
  obtain ⟨b, x, hx, state, port⟩ := carries
  have carrying : x.carrying = true := by rw [carrying_eq, decide_eq_true state]
  have straps : (s.darkened m p).straps = s.straps := State.advance_straps s m
  refine ⟨?_, ?_, (State.advance_restart s m).trans running, b, x, (State.advance_booking s m b).trans hx, carrying, port⟩
  · rw [darkened_port, if_pos rfl]; exact on
  · rw [State.fitted, straps]; exact fitted

/-- The leg of a record whose port and state are known. -/
theorem leg_of_legViewOf {k : LegId} {v : PortIx × LegState} (h : s.legViewOf b k = some v) :
    ∃ r lg, s.booking b = some r ∧ r.leg k = some lg ∧ lg.state = v.2 := by
  obtain ⟨r, hr, view⟩ := Option.bind_eq_some_iff.1 h
  obtain ⟨lg, hl, rfl⟩ := Option.map_eq_some_iff.1 view
  exact ⟨r, lg, hr, hl, rfl⟩

theorem legViewOf_of_leg {k : LegId} {r : Booking} {lg : Leg} (hr : s.booking b = some r) (hl : r.leg k = some lg) :
    s.legViewOf b k = some (lg.port, lg.state) := by simp [State.legViewOf, Booking.legView, hr, hl]

theorem LightLost.leg {a l w : State} (h : LightLost m p s a l w) {x : Booking} {k : LegId} {lg : Leg}
    (hx : s.booking b = some x) (hl : x.leg k = some lg) : ∃ y lg', w.booking b = some y ∧ y.leg k = some lg' ∧
      lg'.state = if (s.port p).link = .up ∧ lg.port = p ∧ (lg.state = .waiting ∨ lg.state = .receiving)
        then .silent else lg.state := by
  have view := h.legs b k
  rw [legViewOf_of_leg hx hl, Option.map_some] at view
  obtain ⟨y, lg', hy, hl', state⟩ := leg_of_legViewOf view
  refine ⟨y, lg', hy, hl', state.trans ?_⟩
  by_cases up : (s.port p).link = .up
  · by_cases port : lg.port = p
    · simp [up, port, silencedOn, LegState.silenced]
    · simp [up, port, silencedOn]
  · simp [up]

/-- Settles O46. -/
theorem lightLossTakesThePortDown : Obligations.LightLossTakesThePortDown := by
  intro m p s
  refine ⟨fun dark => ?_, fun lit => ?_⟩
  · exact if_neg (by simp [Port.lit, dark])
  obtain ⟨a, l, w, step, lost⟩ := lightLost_lit lit m
  have work := lost.work
  have later : Later (s.darkened m p) (w.flush m) := work.later.trans (later_flush m w)
  have still := onward_flush m w
  have table : ∀ b, (w.flush m).booking b = w.booking b := fun b => by rw [flush_rest]; rfl
  have states : ∀ b, (w.flush m).stateOf b = s.stateOf b := fun b => by
    rw [State.stateOf, table]
    exact (work.stateOf b).trans (stateOf_congr (State.advance_bookings s m) b)
  have dark : (s.darkened m p).port p = { s.port p with link := .down, upWhole := false } := by
    rw [darkened_port, if_pos rfl]
  obtain ⟨rest, raised⟩ := lost.raised
  refine ⟨_, step, (keepsSettings_darkened m p s).trans later.calm.keepsSettings, ?_, ?_, fun q hq => ?_, ?_, ?_, ?_, ?_, ?_,
    states, ?_, ?_⟩
  · rw [later.link, dark]
  · rw [later.upWhole, dark]
  · have other : (s.darkened m p).port q = s.port q := by rw [darkened_port, if_neg hq]
    obtain ⟨w1, w2⟩ := work.sameMedia (p := q) hq
    obtain ⟨f1, f2⟩ := still.media q
    rw [other] at w1 w2
    exact ⟨by rw [later.link, other], by rw [later.upWhole, other], f1.trans w1, f2.trans w2⟩
  · exact flush_flag m (x := { cls := .los, items := .ofPort p, detail := none }) (by simp [raised])
  · exact fun k hk => later.capture k (by rw [← hk, State.darkened, advance_eq]; rfl)
  · intro armed
    have armed : w.capture = none := by rw [work.capture, State.darkened, advance_eq]; exact armed
    have sec : w.sec = s.sec := work.later.sec.trans (State.advance_sec s m)
    have sub : w.sub = (s.advance m).sub := work.later.sub
    have timeSet : w.timeSet = s.timeSet := work.later.timeSet.trans (State.advance_timeSet s m)
    cases order : w.raiseOrder m with
    | nil =>
      have none_ := (raiseOrder_spec m w).1
      rw [order, raised] at none_
      exact absurd none_.length_eq (by simp)
    | cons x others =>
      refine ⟨w.latch x, flush_latches armed order, sec, by simp [State.latch, State.milli, sub], timeSet, fun plain => ?_⟩
      rw [raiseOrder_plain plain, raised] at order
      obtain ⟨rfl, -⟩ := List.cons.inj order
      exact ⟨rfl, rfl⟩
  · intro up
    obtain ⟨e1, e2, drops⟩ := lost.emptied up
    obtain ⟨f1, f2⟩ := still.media p
    refine ⟨f1.trans e1, f2.trans e2, fun b x hx => ?_⟩
    rw [table]
    exact drops.mediaDropped b x hx
  · intro down b x hx
    have stayed : l = a := by rw [lost.left, if_neg down]
    have dests := lost.afterRoutes.dests b
    rw [stayed, lost.beforeRoutes.dests, State.destsOf, State.destsOf, State.darkened, State.raise_booking] at dests
    have found : ((s.advance m).setLink p .down).booking b = some x := (State.advance_booking s m b).trans hx
    rw [found] at dests
    obtain ⟨y, hy, same⟩ := Option.map_eq_some_iff.1 dests
    exact ⟨y, (table b).trans hy, same⟩
  · intro b x k lg hx hl
    rw [table]
    exact lost.leg hx hl
  · intro on fitted running carries
    exact (lost.asks (autoProbes_darkened on fitted running carries m)).congr (by rw [flush_rest]) (by rw [flush_rest])

end Sys2Proof.Machine
end

section
/-! The end of a port's probe, in flight or waiting, without a result (R102, R108 to R111, R122), and light returned (R49,
R50, R53). -/

namespace Sys2Proof.Machine
open Sys2Proof.Config

variable {s t u v : State} {b : BookingIx} {m : Moment} {p : PortIx} {f : Flight} {w : WaitingProbe} {o : ProbeOutcome}

/-! ## What every end does (R110, R111, R122) -/

/-- The last result that the end `e` of probe `n` writes (R111). -/
def ProbeEnd.resultOf (e : ProbeEnd) (n : ProbeNo) (s : State) : ProbeResult :=
  { number := n, outcome := e.outcome, peaks := e.peaks, breakDistance := e.distance, second := s.sec, timeSet := s.timeSet }

/-- The outage state of record `b`. -/
def State.outageOf (s : State) (b : BookingIx) : Option (Option OutageState) := (s.booking b).map (·.outage)

/-- The end `e` of probe `n` of port `p`, but for what the engine does next. -/
structure Concluded (n : ProbeNo) (p : PortIx) (e : ProbeEnd) (s t : State) : Prop where
  result : t.lastResults[p] = some (e.resultOf n s)
  others : ∀ q : PortIx, q ≠ p → t.lastResults[q] = s.lastResults[q]
  raised : ∃ l, t.raised = s.raised ++ l ∧ probeDone p ∈ l ∧ ∀ x ∈ l, x.cls = .billWait ∨ x.cls = .probeDone
  ports : t.ports = s.ports
  flags : t.flags = s.flags
  dests : ∀ b, t.destsOf b = s.destsOf b
  outage : ∀ b, t.outageOf b =
    (s.outageOf b).map fun z => z.map (·.settledAs n (settledCause e.outcome p e.distance (s.port p).demarcation))

/-- A settlement changes of a record its state alone. -/
theorem settleBooking_view {β : Type} {g : Booking → β} (h : ∀ r x, g { r with state := x } = g r) (b c : BookingIx)
    (s : State) : ((s.settleBooking b).booking c).map g = (s.booking c).map g := by
  have closed : ∀ v : State, ((v.closeBooking b).booking c).map g = (v.booking c).map g := fun v => by
    unfold State.closeBooking State.updBooking
    cases hb : v.booking b with
    | none => rfl
    | some r =>
      by_cases e : c = b
      · subst e; simp [hb, h]
      · simp [e]
  unfold State.settleBooking
  split
  · rfl
  · split
    · unfold State.billNow
      split
      · rfl
      · dsimp only
        split
        · exact closed { s with bills := _ }
        · rfl
    · rfl

theorem settleAll_view {β : Type} {g : Booking → β} (h : ∀ r x, g { r with state := x } = g r) (m : Moment)
    (c : BookingIx) (s : State) : ((s.settleAll m).booking c).map g = (s.booking c).map g :=
  foldl_keeps (g := fun s => (s.booking c).map g) (fun s b => settleBooking_view h b c s) _ s

theorem concludeProbe_concluded (m : Moment) (n : ProbeNo) (p : PortIx) (e : ProbeEnd) (s : State) :
    Concluded n p e s (s.concludeProbe m n p e) := by
  let settled := settledCause e.outcome p e.distance (s.port p).demarcation
  let v := { s with lastResults := s.lastResults.set p (some (e.resultOf n s)) }.settleCauses n settled
  have done : s.concludeProbe m n p e = (v.settleAll m).raise .probeDone (.ofPort p) none := rfl
  obtain ⟨l, raised, waits⟩ := settleAll_raised m v
  have rest := settleAll_rest m v
  have table : ∀ b, v.booking b = (s.booking b).map (Booking.settleCauses n settled) := fun b => by
    simp [v, State.booking, State.settleCauses]
  rw [done]
  refine ⟨?_, fun q hq => ?_, ⟨l ++ [probeDone p], ?_, by simp, fun x hx => ?_⟩, ?_, ?_, fun b => ?_, fun b => ?_⟩
  · show (v.settleAll m).lastResults[p] = _
    rw [rest]
    exact Vector.getElem_set_self ..
  · show (v.settleAll m).lastResults[q] = _
    rw [rest]
    have other : p.val ≠ q.val := fun k => hq (by simp [Fin.ext k.symm])
    exact Vector.getElem_set_ne p.isLt q.isLt other
  · rw [State.raise_raised, raised, List.append_assoc]
    rfl
  · rcases List.mem_append.1 hx with hx | hx
    · exact .inl (waits x hx)
    · rw [List.mem_singleton.1 hx]; exact .inr rfl
  · show (v.settleAll m).ports = _
    rw [rest]; rfl
  · show (v.settleAll m).flags = _
    rw [rest]; rfl
  · refine (settleAll_view (g := (·.dests)) (by intros; rfl) m b v).trans ?_
    rw [table, Option.map_map]
    rfl
  · refine (settleAll_view (g := (·.outage)) (by intros; rfl) m b v).trans ?_
    rw [table, Option.map_map, State.outageOf, Option.map_map]
    rfl

/-! ## The engine's next probe (R102, R110) -/

/-- The engine has given up its probe, and the head of the waiting ones, if there is one, is in flight. -/
structure PassedOn (s t : State) : Prop where
  rest : t = { s with ports := t.ports, flight := t.flight, probeWaiting := t.probeWaiting }
  media : ∀ q, SameMedia (s.port q) (t.port q)
  idle : s.probeWaiting = [] → t.flight = none ∧ t.probeWaiting = []
  next : ∀ w rest, s.probeWaiting = w :: rest → t.probeWaiting = rest ∧ ∃ g, t.flight = some g ∧
    g.number = w.number ∧ g.port = w.port ∧ g.config = s.probeConfig ∧ g.phase = .preSilence ∧ g.peaks = []

theorem idleLine_sameMedia (p q : PortIx) (s : State) :
    SameMedia (s.port q) ((s.setPort p { s.port p with sending := none }).port q) := by
  rw [State.setPort_port]
  split
  · next e => subst e; exact ⟨rfl, rfl⟩
  · exact ⟨rfl, rfl⟩

theorem enterFlight_passedOn (w : WaitingProbe) (rest : List WaitingProbe) (h : s.probeWaiting = w :: rest) :
    PassedOn s ({ s with probeWaiting := rest }.enterFlight w.number w.port) := by
  unfold State.enterFlight
  dsimp only
  refine ⟨?_, fun q => ?_, fun k => by simp [k] at h, fun w' rest' k => ?_⟩
  · split <;> rfl
  · split
    · exact ⟨rfl, rfl⟩
    · exact idleLine_sameMedia w.port q s
  · obtain ⟨rfl, rfl⟩ := List.cons.inj (h.symm.trans k)
    exact ⟨by split <;> rfl, _, rfl, rfl, rfl, rfl, rfl, rfl⟩

theorem leaveFlight_rest (f : Flight) (s : State) :
    s.leaveFlight f = { s with flight := none, ports := (s.leaveFlight f).ports } := by
  unfold State.leaveFlight; dsimp only; split <;> rfl

theorem leaveFlight_sameMedia (f : Flight) (q : PortIx) (s : State) : SameMedia (s.port q) ((s.leaveFlight f).port q) := by
  unfold State.leaveFlight
  dsimp only
  split
  · exact idleLine_sameMedia f.port q s
  · exact ⟨rfl, rfl⟩

theorem leaveNext_passedOn (f : Flight) (s : State) : PassedOn s (s.leaveFlight f).nextProbe := by
  have left := leaveFlight_rest f s
  have waits : (s.leaveFlight f).probeWaiting = s.probeWaiting := by rw [left]
  unfold State.nextProbe
  split
  · next none_ =>
    rw [waits] at none_
    refine ⟨by rw [left], fun q => leaveFlight_sameMedia f q s, fun _ => ⟨by rw [left], waits.trans none_⟩, fun w rest k => ?_⟩
    rw [none_] at k
    cases k
  · next w rest some_ =>
    obtain ⟨same, media, -, next⟩ := enterFlight_passedOn w rest some_
    rw [waits] at some_
    refine ⟨?_, fun q => ?_, fun k => by simp [k] at some_, fun w' rest' k => ?_⟩
    · rw [same, left]
    · obtain ⟨h1, h2⟩ := leaveFlight_sameMedia f q s
      obtain ⟨k1, k2⟩ := media q
      exact ⟨k1.trans h1, k2.trans h2⟩
    · have config : (s.leaveFlight f).probeConfig = s.probeConfig := by rw [left]
      rw [← config]
      exact next w' rest' (waits.trans k)

/-! ## The probe of a port (R108, R109) -/

theorem endProbeOf_flying (hf : s.flight = some f) (hp : f.port = p) (m : Moment) (o : ProbeOutcome) :
    s.endProbeOf m p o = s.endFlight m f (.bare o) := by
  unfold State.endProbeOf
  rw [hf]
  exact if_pos hp

/-- The state in which no probe of `p` waits. -/
def State.withoutWaiting (p : PortIx) (s : State) : State :=
  { s with probeWaiting := s.probeWaiting.filter fun w => decide (w.port ≠ p) }

theorem endProbeOf_waits (others : ∀ f, s.flight = some f → f.port ≠ p) (m : Moment) (o : ProbeOutcome) :
    s.endProbeOf m p o = match s.probeWaiting.find? fun w => decide (w.port = p) with
      | some w => (s.withoutWaiting p).concludeProbe m w.number p (.bare o)
      | none => s := by
  unfold State.endProbeOf
  split
  · next f hf => rw [if_neg (others f hf)]; rfl
  · rfl

/-- No port has two probes (R96): where one waits, none is in flight, and it is the one found. -/
theorem waiting_only (inv : s.ProbeInv) (hw : w ∈ s.probeWaiting) (hp : w.port = p) :
    (∀ f, s.flight = some f → f.port ≠ p) ∧ s.probeWaiting.find? (fun w => decide (w.port = p)) = some w := by
  obtain ⟨-, -, nodup⟩ := inv
  have waits : w.port ∈ s.probeWaiting.map (·.port) := List.mem_map_of_mem hw
  refine ⟨fun f hf e => ?_, ?_⟩
  · have : w.port ∉ s.probeWaiting.map (·.port) := by
      simp only [State.probedPorts, hf, Option.map_some, Option.toList_some, List.singleton_append, List.nodup_cons] at nodup
      rw [hp, ← e]
      exact nodup.1
    exact this waits
  · cases found : s.probeWaiting.find? fun w => decide (w.port = p) with
    | none => exact absurd hp (by simpa using List.find?_eq_none.1 found w hw)
    | some w' =>
      have port : w'.port = p := by simpa using List.find?_some found
      have once : (s.probeWaiting.map (·.port)).Nodup := (List.nodup_append.1 nodup).2.1
      exact congrArg some (List.inj_on_of_nodup_map once (List.mem_of_find?_eq_some found) hw (port.trans hp.symm))

theorem endProbeOf_waiting (inv : s.ProbeInv) (hw : w ∈ s.probeWaiting) (hp : w.port = p) (m : Moment)
    (o : ProbeOutcome) : s.endProbeOf m p o = (s.withoutWaiting p).concludeProbe m w.number p (.bare o) := by
  obtain ⟨others, found⟩ := waiting_only inv hw hp
  rw [endProbeOf_waits others, found]

theorem endProbeOf_none (h : s.probeOf p = none) (m : Moment) (o : ProbeOutcome) : s.endProbeOf m p o = s := by
  have none_ := probeOf_none h
  simp only [State.probedPorts, List.mem_append, not_or] at none_
  obtain ⟨flight, waits⟩ := none_
  have others : ∀ f, s.flight = some f → f.port ≠ p := fun f hf e => flight (by simp [hf, e])
  have found : s.probeWaiting.find? (fun w => decide (w.port = p)) = none :=
    List.find?_eq_none.2 fun w hw e => waits (List.mem_map.2 ⟨w, hw, of_decide_eq_true e⟩)
  rw [endProbeOf_waits others, found]

/-- Whether a probe ended or not: raises of two classes at the most, queues and destinations as they were. -/
structure ProbeGone (s t : State) : Prop where
  raised : ∃ l, t.raised = s.raised ++ l ∧ ∀ x ∈ l, x.cls = .billWait ∨ x.cls = .probeDone
  media : ∀ q, SameMedia (s.port q) (t.port q)
  dests : ∀ b, t.destsOf b = s.destsOf b
  flags : t.flags = s.flags

theorem ProbeGone.refl (s : State) : ProbeGone s s := ⟨⟨[], by simp⟩, fun _ => ⟨rfl, rfl⟩, fun _ => rfl, rfl⟩

theorem Concluded.gone {n : ProbeNo} {e : ProbeEnd} (h : Concluded n p e s t) : ProbeGone s t := by
  obtain ⟨l, raised, -, classes⟩ := h.raised
  exact ⟨⟨l, raised, classes⟩, fun q => by rw [State.port_congr h.ports]; exact ⟨rfl, rfl⟩, h.dests, h.flags⟩

theorem PassedOn.destsOf (h : PassedOn s t) (b : BookingIx) : t.destsOf b = s.destsOf b := by rw [h.rest]; rfl

theorem PassedOn.outageOf (h : PassedOn s t) (b : BookingIx) : t.outageOf b = s.outageOf b := by rw [h.rest]; rfl

theorem endProbeOf_gone (m : Moment) (p : PortIx) (o : ProbeOutcome) (s : State) : ProbeGone s (s.endProbeOf m p o) := by
  by_cases flying : ∃ f, s.flight = some f ∧ f.port = p
  · obtain ⟨f, hf, hp⟩ := flying
    rw [endProbeOf_flying hf hp]
    have concluded := (concludeProbe_concluded m f.number f.port (.bare o) s).gone
    have passed := leaveNext_passedOn f (s.concludeProbe m f.number f.port (.bare o))
    have raised := congrArg State.raised passed.rest
    obtain ⟨l, e, classes⟩ := concluded.raised
    have flags := congrArg State.flags passed.rest
    refine ⟨⟨l, Eq.trans raised e, classes⟩, fun q => ?_, fun b => (passed.destsOf b).trans (concluded.dests b),
      Eq.trans flags concluded.flags⟩
    obtain ⟨h1, h2⟩ := concluded.media q
    obtain ⟨k1, k2⟩ := passed.media q
    exact ⟨k1.trans h1, k2.trans h2⟩
  · rw [endProbeOf_waits fun f hf hp => flying ⟨f, hf, hp⟩]
    split
    · obtain ⟨raised, media, dests, flags⟩ := (concludeProbe_concluded m _ p (.bare o) (s.withoutWaiting p)).gone
      exact ⟨raised, media, dests, flags⟩
    · exact .refl s

/-! ## Seen from before and after the event -/

/-- What the reflectometer keeps, and what an end of a probe reads, is the same. -/
structure SameEngine (s t : State) : Prop where
  flight : t.flight = s.flight
  probeWaiting : t.probeWaiting = s.probeWaiting
  lastResults : t.lastResults = s.lastResults
  probeConfig : t.probeConfig = s.probeConfig
  sec : t.sec = s.sec
  timeSet : t.timeSet = s.timeSet

theorem SameEngine.probedPorts (h : SameEngine s t) : t.probedPorts = s.probedPorts :=
  probedPorts_congr h.flight h.probeWaiting

theorem SameEngine.trans (h : SameEngine s t) (k : SameEngine t u) : SameEngine s u :=
  ⟨k.flight.trans h.flight, k.probeWaiting.trans h.probeWaiting, k.lastResults.trans h.lastResults,
    k.probeConfig.trans h.probeConfig, k.sec.trans h.sec, k.timeSet.trans h.timeSet⟩

theorem SameEngine.probeInv (h : SameEngine s t) (k : s.ProbeInv) : t.ProbeInv := by
  unfold State.ProbeInv at k ⊢
  rwa [h.probedPorts, h.flight, h.probeWaiting]

theorem SameEngine.probeOf (h : SameEngine s t) (p : PortIx) : t.probeOf p = s.probeOf p := by
  simp only [State.probeOf, h.flight, h.probeWaiting]

theorem SameEngine.resultOf (h : SameEngine s t) (e : ProbeEnd) (n : ProbeNo) : e.resultOf n t = e.resultOf n s := by
  simp only [ProbeEnd.resultOf, h.sec, h.timeSet]

/-- The raises of a state have reached the fault unit by another. -/
def Flagged (s t : State) : Prop := ∀ x ∈ s.raised, t.flags[x.cls.ix] = true

section Seen
variable (start : SameEngine s v) (stop : SameEngine (v.endProbeOf m p o) t) (flagged : Flagged (v.endProbeOf m p o) t)
include start stop

theorem ended_none (h : s.probeOf p = none) : SameEngine s t := by
  rw [endProbeOf_none ((start.probeOf p).trans h)] at stop
  exact start.trans stop

include flagged

theorem ended_flying (hf : s.flight = some f) (hp : f.port = p) : ProbeEnded s t f (.bare o) := by
  rw [endProbeOf_flying (start.flight.trans hf) hp] at stop flagged
  let c := v.concludeProbe m f.number f.port (.bare o)
  have concluded : Concluded f.number f.port (.bare o) v c := concludeProbe_concluded ..
  have passed : PassedOn c (v.endFlight m f (.bare o)) := leaveNext_passedOn f c
  obtain ⟨-, waits⟩ := concludeProbe_probes m f.number f.port (.bare o) v
  have waits : c.probeWaiting = s.probeWaiting := waits.trans start.probeWaiting
  have config : c.probeConfig = s.probeConfig := (later_concludeProbe ..).probeConfig.trans start.probeConfig
  have results : t.lastResults = c.lastResults := stop.lastResults.trans (by rw [passed.rest])
  refine ⟨?_, fun q hq => ?_, ?_, fun none_ => ?_, fun w rest some_ => ?_⟩
  · rw [results, concluded.result, start.resultOf]; rfl
  · rw [results, concluded.others q hq, start.lastResults]
  · obtain ⟨l, raised, done, -⟩ := concluded.raised
    have made : (v.endFlight m f (.bare o)).raised = c.raised := by rw [passed.rest]
    exact flagged (probeDone f.port) (by rw [made, raised]; exact List.mem_append_right _ done)
  · obtain ⟨h1, h2⟩ := passed.idle (waits.trans none_)
    exact ⟨stop.flight.trans h1, stop.probeWaiting.trans h2⟩
  · obtain ⟨h1, g, h2, number, port, config', phase, peaks⟩ := passed.next w rest (waits.trans some_)
    exact ⟨stop.probeWaiting.trans h1, g, stop.flight.trans h2, number, port, config'.trans config, phase, peaks⟩

theorem ended_waiting (inv : s.ProbeInv) (hw : w ∈ s.probeWaiting) (hp : w.port = p) : t.flight = s.flight ∧
    t.probeWaiting = s.probeWaiting.filter (fun v => decide (v.port ≠ p)) ∧ t.flags[FaultClass.probeDone.ix] = true ∧
      t.lastResults[p] = some ((ProbeEnd.bare o).resultOf w.number s) := by
  rw [endProbeOf_waiting (start.probeInv inv) (start.probeWaiting.symm ▸ hw) hp] at stop flagged
  have concluded := concludeProbe_concluded m w.number p (.bare o) (v.withoutWaiting p)
  obtain ⟨flight, waits⟩ := concludeProbe_probes m w.number p (.bare o) (v.withoutWaiting p)
  obtain ⟨l, raised, done, -⟩ := concluded.raised
  refine ⟨stop.flight.trans (flight.trans start.flight), ?_, ?_, ?_⟩
  · rw [stop.probeWaiting, waits, State.withoutWaiting, start.probeWaiting]
  · exact flagged (probeDone p) (by rw [raised]; exact List.mem_append_right _ done)
  · rw [stop.lastResults, concluded.result]
    exact congrArg some (start.resultOf ..)

/-- The port has no probe any more. -/
theorem ended_gone (inv : s.ProbeInv) : t.probeOf p = none := by
  refine not_not.1 (mt probeOf_ne_none.1 fun still => ?_)
  by_cases flying : ∃ f, s.flight = some f ∧ f.port = p
  · obtain ⟨f, hf, hp⟩ := flying
    obtain ⟨-, -, nodup⟩ := inv
    have ended := ended_flying start stop flagged hf hp
    simp only [State.probedPorts, hf, Option.map_some, Option.toList_some, List.singleton_append, List.nodup_cons, hp] at nodup
    cases waits : s.probeWaiting with
    | nil =>
      obtain ⟨none_, none_'⟩ := ended.idle waits
      simp [State.probedPorts, none_, none_'] at still
    | cons w rest =>
      obtain ⟨tail, g, head, -, port, -⟩ := ended.next w rest waits
      have same : t.probedPorts = s.probeWaiting.map (·.port) := by
        simp [State.probedPorts, head, tail, port, waits]
      exact nodup.1 (same ▸ still)
  · by_cases waits : ∃ w ∈ s.probeWaiting, w.port = p
    · obtain ⟨w, hw, hp⟩ := waits
      obtain ⟨flight, filtered, -⟩ := ended_waiting start stop flagged inv hw hp
      have others := (waiting_only inv hw hp).1
      simp only [State.probedPorts, flight, filtered, List.mem_append, List.mem_map, List.mem_filter, decide_eq_true_eq,
        Option.mem_toList, Option.map_eq_some_iff] at still
      rcases still with ⟨f, hf, port⟩ | ⟨w', ⟨-, other⟩, port⟩
      · exact others f hf port
      · exact other port
    · have none_ : s.probeOf p = none := by
        refine not_not.1 (mt probeOf_ne_none.1 fun probed => ?_)
        simp only [State.probedPorts, List.mem_append, List.mem_map, Option.mem_toList, Option.map_eq_some_iff] at probed
        exact probed.elim flying waits
      rw [(ended_none start stop none_).probedPorts] at still
      exact probeOf_none none_ still

end Seen

/-! ## Light returned -/

theorem flush_sameEngine (m : Moment) (s : State) : SameEngine s (s.flush m) := by
  rw [flush_rest]; exact ⟨rfl, rfl, rfl, rfl, rfl, rfl⟩

theorem flush_flagged (m : Moment) (s : State) : Flagged s (s.flush m) := fun _ hx => flush_flag m hx

/-- The state in which `p` acquires, before its probe ends. -/
def State.relit (m : Moment) (p : PortIx) (s : State) : State :=
  (s.advance m).setPort p { s.port p with link := .acquiring, goodRun := 0, upWhole := false }

theorem relit_port (m : Moment) (p q : PortIx) (s : State) : (s.relit m p).port q =
    if q = p then { s.port p with link := .acquiring, goodRun := 0, upWhole := false } else s.port q := by
  rw [State.relit, State.setPort_port, State.advance_port]

theorem relit_sameEngine (m : Moment) (p : PortIx) (s : State) : SameEngine s (s.relit m p) := by
  rw [State.relit, advance_eq]; exact ⟨rfl, rfl, rfl, rfl, rfl, rfl⟩

theorem lightReturns_dark (dark : (s.port p).link = .down) (m : Moment) :
    exec (.lightReturns m p) s = .next (((s.relit m p).endProbeOf m p .liveFibre).flush m) := by
  refine (if_neg (by simp [Port.lit, dark])).trans ?_
  rw [State.advance_port]
  rfl

/-- Settles O47. -/
theorem lightReturnsToAcquiring : Obligations.LightReturnsToAcquiring := by
  intro m p s
  refine ⟨fun lit => if_pos (by simpa [Port.lit] using lit), fun dark => ?_⟩
  let v := s.relit m p
  let w := v.endProbeOf m p .liveFibre
  have start : SameEngine s v := relit_sameEngine m p s
  have stop : SameEngine w (w.flush m) := flush_sameEngine m w
  have flagged : Flagged w (w.flush m) := flush_flagged m w
  have later : Later v (w.flush m) := (later_endProbeOf m p .liveFibre v).trans (later_flush m w)
  have lit : v.port p = { s.port p with link := .acquiring, goodRun := 0, upWhole := false } := by
    rw [relit_port, if_pos rfl]
  have fresh : v.raised = [] := by rw [show v.raised = (s.advance m).raised from rfl, State.advance_raised]
  have keeps : KeepsSettings s v :=
    (keepsSettings_advance m s).trans (keepsSettings_setPort (by rw [State.advance_port]; rfl))
  have flags : v.flags = s.flags := State.advance_flags s m
  refine ⟨_, lightReturns_dark dark m, keeps.trans later.calm.keepsSettings, ?_, ?_, ?_, fun q hq => ?_, ?_, ?_, ?_, ?_, ?_⟩
  · rw [later.link, lit]
  · rw [later.goodRun, lit]
  · rw [later.badChecks, lit]
  · rw [later.link, relit_port, if_neg hq]
  · have gone := endProbeOf_gone m p .liveFibre v
    obtain ⟨l, raised, classes⟩ := gone.raised
    rw [fresh, List.nil_append] at raised
    have silent : ∀ x ∈ w.raised, x.cls.ix ≠ FaultClass.los.ix := fun x hx => by
      rcases classes x (raised ▸ hx) with e | e <;> rw [e] <;> decide
    rw [flush_flag_other silent (by decide), gone.flags, flags]
  · exact ended_gone start stop flagged
  · exact fun f hf hp => ended_flying start stop flagged hf hp
  · intro x hx hp inv
    obtain ⟨flight, -, done, result⟩ := ended_waiting start stop flagged inv hx hp
    exact ⟨flight, done, result⟩
  · intro none_
    have same : w = v := endProbeOf_none ((start.probeOf p).trans none_) m .liveFibre
    rw [show w.flush m = v from (congrArg (State.flush m) same).trans (State.flush_of_nil fresh m)]
    exact ⟨start.lastResults, State.advance_bookings s m, flags⟩

end Sys2Proof.Machine
end

section
/-! What a request leaves of the receive side of the ports (R50, R51), and watch counters without actions (R139). -/

namespace Sys2Proof.Machine
open Sys2Proof.Config

variable {s t u : State} {m : Moment} {p : PortIx} {b : BookingIx}

/-! ## The receive side of the ports -/

/-- A port's receive side: its link state, good-frame run and bad checks. -/
def Port.receiving (x : Port) : Link × Nat × Nat := (x.link, x.goodRun, x.badChecks)

/-- The receive sides of the ports are the same. -/
structure SameLinks (s t : State) : Prop where
  port : ∀ q, (t.port q).receiving = (s.port q).receiving

theorem SameLinks.refl (s : State) : SameLinks s s := ⟨fun _ => rfl⟩

theorem SameLinks.trans (h : SameLinks s t) (k : SameLinks t u) : SameLinks s u := ⟨fun q => (k.port q).trans (h.port q)⟩

theorem SameLinks.link (h : SameLinks s t) (q : PortIx) : (t.port q).link = (s.port q).link :=
  congrArg Prod.fst (h.port q)

theorem SameLinks.goodRun (h : SameLinks s t) (q : PortIx) : (t.port q).goodRun = (s.port q).goodRun :=
  congrArg (·.2.1) (h.port q)

theorem SameLinks.badChecks (h : SameLinks s t) (q : PortIx) : (t.port q).badChecks = (s.port q).badChecks :=
  congrArg (·.2.2) (h.port q)

theorem Calm.sameLinks (h : Calm s t) : SameLinks s t :=
  ⟨fun q => by have e := congrArg Port.receiving (h.face q); exact e⟩

theorem Later.sameLinks (h : Later s t) : SameLinks s t := h.calm.sameLinks

theorem SameLinks.of_ports (h : t.ports = s.ports) : SameLinks s t := ⟨fun q => by rw [State.port, State.port, h]⟩

theorem sameLinks_checked {c : Option Result} {a : Answer} (h : SameLinks s a.state) :
    SameLinks s (checked c s a).state := by
  cases c with
  | none => exact h
  | some res => exact .refl s

theorem sameLinks_takeRequest {α : Type} {act : α → State → Answer} (h : ∀ a, SameLinks s (act a s).state) (r : Req)
    (code : Nat) (body : Body α) : SameLinks s (s.takeRequest r code body act) := by
  have answered : ∀ (res : Result) (l : List Byte) (t : State), SameLinks t (t.respond r code res l) :=
    fun _ _ _ => (later_respond ..).sameLinks
  unfold State.takeRequest
  split
  · exact .refl s
  · split
    · exact answered ..
    · split
      · exact answered ..
      · exact (h _).trans (answered ..)

theorem sameLinks_setBooking (b : BookingIx) (x : Option Booking) (s : State) : SameLinks s (s.setBooking b x) :=
  .of_ports rfl

theorem sameLinks_handEntry (e : AdmissionEntry) (s : State) : SameLinks s (s.handEntry e) :=
  .of_ports (by rw [handEntry_rest])

theorem sameLinks_freeBooking (b : BookingIx) (s : State) : SameLinks s (s.freeBooking b) := .of_ports rfl

theorem sameLinks_updBooking (b : BookingIx) (f : Booking → Booking) (s : State) : SameLinks s (s.updBooking b f) := by
  unfold State.updBooking
  split
  · exact .refl s
  · exact sameLinks_setBooking ..

theorem sameLinks_actRestart (m : Moment) (s : State) : SameLinks s (actRestart m s).state :=
  sameLinks_checked ((SameLinks.of_ports (s := s) (t := s.markRestart) rfl).trans (later_abortAll m _).sameLinks)

theorem sameLinks_actPortSet (m : Moment) (a : PortSetArgs) (s : State) : SameLinks s (actPortSet m a s).state := by
  refine sameLinks_checked ?_
  have written : SameLinks s (s.setPort (portIx a.port) (PortSetArgs.apply a (s.port (portIx a.port)))) := ⟨fun q => by
    rw [State.setPort_port]
    split
    · next e => subst e; rfl
    · rfl⟩
  show SameLinks s (s.writePort m (portIx a.port) a)
  dsimp only [State.writePort]
  split
  · exact (written.trans (later_emptyMedia m _ _).sameLinks).trans (later_endProbeOf m _ .aborted _).sameLinks
  · exact written

theorem sameLinks_actCancel (n : Nat) (s : State) : SameLinks s (actCancel n s).state := by
  refine sameLinks_checked ?_
  split
  · unfold State.cancelBooking
    split
    case h_2 =>
      split
      · exact (sameLinks_setBooking ..).trans (later_settleBooking ..).sameLinks
      · exact sameLinks_freeBooking ..
    case h_1 | h_3 | h_4 => exact sameLinks_setBooking ..
    all_goals exact .refl s
  · exact .refl s

theorem sameLinks_actExtend (a : ExtendArgs) (s : State) : SameLinks s (actExtend a s).state := by
  refine sameLinks_checked ?_
  split
  · exact (sameLinks_setBooking ..).trans (sameLinks_handEntry ..)
  · exact .refl s

theorem sameLinks_actMode (m : Moment) (a : ModeArgs) (s : State) : SameLinks s (actMode m a s).state := by
  refine sameLinks_checked ?_
  split
  · exact (sameLinks_setBooking ..).trans (later_judge ..).sameLinks
  · exact .refl s

theorem sameLinks_actBookingRead (n : Nat) (s : State) : SameLinks s (actBookingRead n s).state := by
  refine sameLinks_checked ?_
  show SameLinks s (if _ then _ else _ : State)
  split
  · exact sameLinks_freeBooking ..
  · exact .refl s

theorem sameLinks_promoteBill (s : State) : SameLinks s s.promoteBill := by
  unfold State.promoteBill
  split
  · exact .refl s
  · next x rest _ =>
    have moved : SameLinks s { s with bills := s.bills ++ [x], billWaiting := rest } := .of_ports rfl
    exact moved.trans (later_closeBooking ..).sameLinks

theorem sameLinks_actBillRelease (n : Nat) (s : State) : SameLinks s (actBillRelease n s).state := by
  refine sameLinks_checked ?_
  have freed : SameLinks s (State.freeBooking (bookingIx n) { s with bills := s.bills.tail }) := .of_ports rfl
  exact freed.trans (sameLinks_promoteBill _)

/-- No request changes a link. -/
theorem sameLinks_takeCommand (c : Instr) (s : State) : SameLinks s (s.takeCommand c) := by
  have written : ∀ {t : State}, t.ports = s.ports → SameLinks s t := SameLinks.of_ports
  cases c with
  | unknownRequestCode r code =>
    dsimp only [State.takeCommand, reqUnknownRequestCode]
    split
    · exact .refl s
    · exact sameLinks_takeRequest (fun _ => .refl s) ..
  | restart r b => exact sameLinks_takeRequest (fun _ => sameLinks_actRestart r.m s) ..
  | portSet r b => exact sameLinks_takeRequest (fun a => sameLinks_actPortSet r.m a s) ..
  | book r b =>
    exact sameLinks_takeRequest
      (fun _ => sameLinks_checked ((sameLinks_setBooking ..).trans (sameLinks_handEntry ..))) ..
  | cancel r b => exact sameLinks_takeRequest (fun a => sameLinks_actCancel a s) ..
  | close r b => exact sameLinks_takeRequest (fun _ => sameLinks_checked (sameLinks_updBooking ..)) ..
  | extend r b => exact sameLinks_takeRequest (fun a => sameLinks_actExtend a s) ..
  | mode r b => exact sameLinks_takeRequest (fun a => sameLinks_actMode r.m a s) ..
  | bookingRead r b => exact sameLinks_takeRequest (fun a => sameLinks_actBookingRead a s) ..
  | probe r b =>
    exact sameLinks_takeRequest (fun a => sameLinks_checked (later_probeRequest (portIx a) s).sameLinks) ..
  | watchSet r b => exact sameLinks_takeRequest (fun _ => sameLinks_checked (written rfl)) ..
  | billRelease r b => exact sameLinks_takeRequest (fun a => sameLinks_actBillRelease a s) ..
  | identify r b | timeRead r b | faultRead r b | billRead r b => exact sameLinks_takeRequest (fun _ => written rfl) ..
  | noticeSet r b | timeSet r b | portRead r b | patternSet r b | patternRead r b | tariffSet r b | tariffRead r b
  | probeRead r b | probeConfig r b | watchRead r b | watchUnfreeze r b | faultClear r b | faultMask r b =>
    exact sameLinks_takeRequest (fun _ => sameLinks_checked (written rfl)) ..
  | powerOn _ | secondBoundary _ | lightLost _ _ | lightReturns _ _ | frameReceived _ _ _ | slotStart _ _
  | transmitterPasses _ | silenceTimerExpiry _ _ _ | identTimeoutExpiry _ _ _ | phaseTimerExpiry _ | traceDelivered _ _
  | admissionCompletion _ => exact .refl s

/-! ## Counters without actions -/

/-- Nothing but the counters, their freeze and the raises differs. -/
structure OnlyCounts (s t : State) : Prop where
  rest : t = { s with counters := t.counters, frozen := t.frozen, raised := t.raised }

theorem OnlyCounts.trans (h : OnlyCounts s t) (k : OnlyCounts t u) : OnlyCounts s u := ⟨by rw [k.rest, h.rest]⟩

theorem OnlyCounts.calm (h : OnlyCounts s t) : Calm s t := by
  have e := congrArg State.calm h.rest; exact e

theorem OnlyCounts.ports (h : OnlyCounts s t) : t.ports = s.ports := by
  have e := congrArg State.ports h.rest; exact e

theorem OnlyCounts.bookings (h : OnlyCounts s t) : t.bookings = s.bookings := by
  have e := congrArg State.bookings h.rest; exact e

theorem OnlyCounts.flows (h : OnlyCounts s t) : t.flows = s.flows := by
  have e := congrArg State.flows h.rest; exact e

theorem onlyCounts_addValue (h : s.NoActions) (m : Moment) (i : CounterIx) (w : Nat) : OnlyCounts s (s.addValue m i w) := by
  have quiet : ∀ t : State, t.runAction m (s.counter i) = t := fun t => by
    unfold State.runAction
    rw [h i]
  dsimp only [State.addValue]
  split
  · unfold State.overflowAt
    dsimp only
    rw [quiet]
    split
    · split <;> exact ⟨rfl⟩
    · split <;> exact ⟨rfl⟩
  · exact ⟨rfl⟩

theorem onlyCounts_countEvent (h : s.NoActions) (m : Moment) (e : WatchEvent) (i : CounterIx) :
    OnlyCounts s (s.countEvent m e i) ∧ (s.countEvent m e i).NoActions := by
  dsimp only [State.countEvent]
  split
  · exact ⟨⟨rfl⟩, h⟩
  · split
    · exact ⟨onlyCounts_addValue h .., (counted_addValue h ..).2⟩
    · exact ⟨⟨rfl⟩, noActions_setCounter h i (h i)⟩

/-- What keeps the counters free of actions at each step of a fold does so over the fold. -/
theorem foldl_noActions {α : Type} {P : State → State → Prop} (refl : ∀ s, P s s) (trans : ∀ {s t u}, P s t → P t u → P s u)
    {f : State → α → State} (step : ∀ s x, s.NoActions → P s (f s x) ∧ (f s x).NoActions) (l : List α) (h : s.NoActions) :
    P s (l.foldl f s) ∧ (l.foldl f s).NoActions := by
  induction l generalizing s with
  | nil => exact ⟨refl s, h⟩
  | cons x l ih =>
    obtain ⟨first, free⟩ := step s x h
    obtain ⟨rest, free⟩ := ih free
    exact ⟨trans first rest, free⟩

/-- Without actions an event counts alone. -/
theorem onlyCounts_watch (h : s.NoActions) (m : Moment) (e : WatchEvent) :
    OnlyCounts s (s.watch m e) ∧ (s.watch m e).NoActions :=
  foldl_noActions (fun _ => ⟨rfl⟩) .trans (fun _ i h => onlyCounts_countEvent h m e i) _ h

end Sys2Proof.Machine
end

section
/-! What a received frame does to its port (R48, R50, R51, R54). -/

namespace Sys2Proof.Machine
open Sys2Proof.Config

variable {s t u v w : State} {m : Moment} {p : PortIx} {b : BookingIx} {bytes : List Byte}

/-! ## Good frames -/

theorem goodFrame_settings (x : Port) : x.goodFrame.settings = x.settings := by
  unfold Port.goodFrame; split <;> rfl

theorem goodFrame_badChecks (x : Port) : x.goodFrame.badChecks = x.badChecks := by
  unfold Port.goodFrame; split <;> rfl

theorem goodFrame_sameMedia (x : Port) : SameMedia x x.goodFrame := by
  unfold Port.goodFrame; split <;> exact ⟨rfl, rfl⟩

theorem sameLinks_deliverFrame (m : Moment) (p : PortIx) (f : Frame) (bits : Option FrameBits) (place : Place) (s : State) :
    SameLinks s (s.deliverFrame m p f bits place) := by
  unfold State.deliverFrame
  split
  · exact .refl s
  · unfold State.controlFrameIn
    split
    · exact .refl s
    · split
      · exact .refl s
      · exact (later_takeEarly m s).sameLinks.trans (sameLinks_takeCommand ..)
  · split
    · exact (later_identAtFlow ..).sameLinks
    · exact (later_mediaFrame ..).sameLinks

/-- A good frame's own part of its port, and no other link touched. -/
theorem goodFrame_links (m : Moment) (p : PortIx) (bytes : List Byte) (f : Frame) (place : Place) (s : State) :
    SameLinks ((s.advance m).setPort p (s.port p).goodFrame)
      (((s.countedFrame m p bytes).deliverFrame m p f (headerBits bytes) place).flush m) :=
  ((later_watch ..).sameLinks.trans (sameLinks_deliverFrame ..)).trans (later_flush ..).sameLinks

/-- A good frame that is discarded leaves, without actions, records, flow table, settings and queues alone. -/
structure Discarded (s t : State) : Prop where
  keeps : KeepsSettings s t
  bookings : t.bookings = s.bookings
  flows : t.flows = s.flows
  media : ∀ q, SameMedia (s.port q) (t.port q)

theorem countedFrame_discarded (h : s.NoActions) (m : Moment) (p : PortIx) (bytes : List Byte) :
    Discarded s ((s.countedFrame m p bytes).flush m) := by
  let v := (s.advance m).setPort p (s.port p).goodFrame
  have free : v.NoActions := h.congr (State.advance_counters s m)
  have counts : OnlyCounts v (s.countedFrame m p bytes) := (onlyCounts_watch free m _).1
  have flushed := onward_flush m (s.countedFrame m p bytes)
  have written : KeepsSettings (s.advance m) v :=
    keepsSettings_setPort (by rw [State.advance_port]; exact goodFrame_settings _)
  refine ⟨((keepsSettings_advance m s).trans written).trans (counts.calm.keepsSettings.trans flushed.keeps), ?_, ?_,
    fun q => ?_⟩
  · rw [flush_rest]; exact counts.bookings.trans (State.advance_bookings s m)
  · rw [flush_rest]; exact counts.flows.trans (State.advance_flows s m)
  · have same : (s.countedFrame m p bytes).port q = v.port q := by rw [State.port, State.port, counts.ports]
    have start : SameMedia (s.port q) (v.port q) := by
      rw [State.setPort_port, State.advance_port]
      split
      · next e => subst e; exact goodFrame_sameMedia _
      · exact ⟨rfl, rfl⟩
    have kept := flushed.media q
    rw [same] at kept
    exact ⟨kept.1.trans start.1, kept.2.trans start.2⟩

/-! ## Bad frames -/

/-- The bad checks of the second have passed their limit on an UP port (R51). -/
def Port.LosesFrame (x : Port) : Prop := x.link = .up ∧ 8 < x.badChecks + 1

/-- A port after a bad check: counted, and in LOF where the second's bad checks pass their limit. -/
def Port.afterBad (x : Port) : Port :=
  if x.link = .up ∧ 8 < x.badChecks + 1 then { x.badCheck with link := .lof, upWhole := false } else x.badCheck

theorem afterBad_loses {x : Port} (h : x.LosesFrame) :
    x.afterBad = { x.badCheck with link := .lof, upWhole := false } := if_pos h

theorem afterBad_stays {x : Port} (h : ¬ x.LosesFrame) : x.afterBad = x.badCheck := if_neg h

theorem afterBad_badChecks (x : Port) : x.afterBad.badChecks = x.badChecks + 1 := by
  unfold Port.afterBad; split <;> rfl

theorem afterBad_sameMedia (x : Port) : SameMedia x x.afterBad := by
  unfold Port.afterBad; split <;> exact ⟨rfl, rfl⟩

/-- What a bad frame does: `v` has the port's own part, and `w` the work of the event. -/
structure BadFrame (p : PortIx) (s v w : State) : Prop where
  port : ∀ q, v.port q = if q = p then (s.port p).afterBad else s.port q
  keeps : KeepsSettings s v
  bookings : v.bookings = s.bookings
  flows : v.flows = s.flows
  work : Work (.line p) v w
  lof : (s.port p).link = .up → 8 < (s.port p).badChecks + 1 →
    { cls := .lof, items := .ofPort p, detail := none } ∈ v.raised ∧
      (w.port p).class1 = [] ∧ (w.port p).class2 = [] ∧ Drops ((s.port p).class1 ++ (s.port p).class2) s w

theorem frameReceived_bad (lit : (s.port p).lit = true) (hf : readFrame bytes = none) :
    exec (.frameReceived m p bytes) s = .next (((s.advance m).malformed m p bytes).flush m) := by
  have received : (s.advance m).receive m p bytes = (s.advance m).malformed m p bytes := by
    unfold State.receive
    rw [State.advance_port, if_pos lit, hf]
  show Host.Outcome.next (((s.advance m).receive m p bytes).flush m) = _
  rw [received]

/-- The state in which a bad check has been counted. -/
def State.badChecked (m : Moment) (p : PortIx) (s : State) : State := (s.advance m).setPort p (s.port p).badCheck

theorem badChecked_port (m : Moment) (p q : PortIx) (s : State) :
    (s.badChecked m p).port q = if q = p then (s.port p).badCheck else s.port q := by
  rw [State.badChecked, State.setPort_port, State.advance_port]

theorem keepsSettings_badChecked (m : Moment) (p : PortIx) (s : State) : KeepsSettings s (s.badChecked m p) :=
  (keepsSettings_advance m s).trans (keepsSettings_setPort (by rw [State.advance_port]; rfl))

theorem malformed_stays (h : ¬ (s.port p).LosesFrame) : (s.advance m).malformed m p bytes =
    (s.badChecked m p).watch m (frameEvent .rxBadCheck p none (headerBits bytes) 1) := by
  unfold State.malformed
  rw [State.advance_port]
  exact congrArg (State.watch m _) (if_neg (by rw [State.setPort_port, if_pos rfl]; exact h))

theorem malformed_loses (h : (s.port p).LosesFrame) : (s.advance m).malformed m p bytes =
    ((s.badChecked m p).enterLof m p).watch m (frameEvent .rxBadCheck p none (headerBits bytes) 1) := by
  unfold State.malformed
  rw [State.advance_port]
  exact congrArg (State.watch m _) (if_pos (by rw [State.setPort_port, if_pos rfl]; exact h))

/-- Within the limit a bad check is counted alone. -/
theorem badFrame_stays (h : ¬ (s.port p).LosesFrame) (m : Moment) (bytes : List Byte) :
    BadFrame p s (s.badChecked m p) ((s.advance m).malformed m p bytes) where
  port q := by rw [badChecked_port, afterBad_stays h]
  keeps := keepsSettings_badChecked m p s
  bookings := State.advance_bookings s m
  flows := State.advance_flows s m
  work := by rw [malformed_stays h]; exact work_watch (line_whole p).watches ..
  lof up beyond := absurd ⟨up, beyond⟩ h

/-- The state in which the port has entered LOF, before its legs and queues are touched. -/
def State.lofEntered (m : Moment) (p : PortIx) (s : State) : State :=
  ((s.badChecked m p).setLink p .lof).raise .lof (.ofPort p) none

theorem lofEntered_port (h : (s.port p).LosesFrame) (m : Moment) (q : PortIx) :
    (s.lofEntered m p).port q = if q = p then (s.port p).afterBad else s.port q := by
  rw [State.lofEntered, State.setLink, State.raise_port, State.setPort_port, badChecked_port, badChecked_port,
    if_pos rfl, afterBad_loses h]
  split <;> rfl

/-- Beyond the limit the port enters LOF and its queues are emptied. -/
theorem badFrame_loses (h : (s.port p).LosesFrame) (m : Moment) (bytes : List Byte) :
    BadFrame p s (s.lofEntered m p) ((s.advance m).malformed m p bytes) := by
  let v := s.lofEntered m p
  let e := frameEvent .rxBadCheck p none (headerBits bytes) 1
  have end_ : (s.advance m).malformed m p bytes = ((v.leaveUp m p).recapturePort m p).watch m e := malformed_loses h
  have left : Work (.line p) v (v.leaveUp m p) := leaveUp_within (line_whole p) rfl m v
  have after : Work .records (v.leaveUp m p) (((v.leaveUp m p).recapturePort m p).watch m e) :=
    (recapturePort_within records_whole m p _).trans (work_watch records_whole.watches m e _)
  have routes : SameRoutes (v.leaveUp m p) (((v.leaveUp m p).recapturePort m p).watch m e) :=
    (sameRoutes_recapturePort m p _).trans (sameRoutes_watch m e _)
  have table : v.bookings = s.bookings := State.advance_bookings s m
  have dark : KeepsSettings (s.badChecked m p) ((s.badChecked m p).setLink p .lof) := keepsSettings_setPort rfl
  rw [end_]
  refine ⟨lofEntered_port h m, ((keepsSettings_badChecked m p s).trans dark).trans (calm_raise ..).keepsSettings, table,
    State.advance_flows s m, left.trans (after.line p), fun _ _ => ?_⟩
  obtain ⟨a1, a2⟩ := after.sameMedia (p := p) id
  obtain ⟨e1, e2⟩ := emptyMedia_queues m p (v.silencePort m p)
  have start : Drops [] s v := .of_same (stateOf_congr table) (SameRoutes.of_bookings table).dests
  have gone := (start.trans (drops_leaveUp m p v)).trans (after.drops routes)
  have queues := afterBad_sameMedia (s.port p)
  rw [lofEntered_port h m p, if_pos rfl, queues.1, queues.2, List.nil_append, List.append_nil] at gone
  exact ⟨List.mem_append_right _ (List.mem_singleton.2 rfl), a1.trans e1, a2.trans e2, gone⟩

theorem badFrame_parts (m : Moment) (p : PortIx) (bytes : List Byte) (s : State) :
    ∃ v, BadFrame p s v ((s.advance m).malformed m p bytes) := by
  by_cases h : (s.port p).LosesFrame
  · exact ⟨_, badFrame_loses h m bytes⟩
  · exact ⟨_, badFrame_stays h m bytes⟩

/-- Settles O48. -/
theorem framesDriveTheLink : Obligations.FramesDriveTheLink := by
  refine fun m p bytes s => ⟨fun dark => ?_, fun lit => ?_⟩
  · have nothing : (s.advance m).receive m p bytes = s.advance m := by
      unfold State.receive
      rw [State.advance_port, if_neg (by simp [Port.lit, dark])]
    show Host.Outcome.next (((s.advance m).receive m p bytes).flush m) = _
    rw [nothing, State.flush_of_nil (State.advance_raised ..)]
  have lit : (s.port p).lit = true := by simpa [Port.lit] using lit
  cases hf : readFrame bytes with
  | some f =>
    have links := goodFrame_links m p bytes f (placeOf f.kind (s.port p).link (s.port p).role) s
    have port : ∀ q, ((s.advance m).setPort p (s.port p).goodFrame).port q =
        if q = p then (s.port p).goodFrame else s.port q := fun q => by rw [State.setPort_port, State.advance_port]
    refine ⟨_, frameReceived_good lit hf, fun q hq => ?_, fun g hg => ?_, nofun⟩
    · rw [links.link, links.badChecks, port, if_neg hq]
      exact ⟨rfl, rfl⟩
    · obtain rfl := Option.some.inj hg
      rw [links.link, links.goodRun, links.badChecks, port, if_pos rfl]
      refine ⟨goodFrame_badChecks _, fun acquiring => ?_, fun other => ?_, fun free discarded => ?_⟩
      · unfold Port.goodFrame
        rw [if_pos acquiring]
        refine ⟨rfl, ?_⟩
        show (if 3 ≤ (s.port p).goodRun + 1 then Link.up else (s.port p).link) = _
        rw [acquiring]
      · rw [Port.goodFrame, if_neg other]
      · have place : placeOf f.kind (s.port p).link (s.port p).role = .discard := by
          rcases discarded with fill | ⟨media | ident, shut⟩
          · rw [fill]; rfl
          · rw [media]; exact if_neg fun ⟨up, on⟩ => shut.elim (· up) on
          · rw [ident]; exact if_neg fun ⟨up, on⟩ => shut.elim (· up) on
        rw [place]
        obtain ⟨keeps, bookings, flows, queues⟩ := countedFrame_discarded free m p bytes
        exact ⟨keeps, bookings, flows, queues⟩
  | none =>
    have step := frameReceived_bad (m := m) lit hf
    obtain ⟨v, bad⟩ := badFrame_parts m p bytes s
    generalize (s.advance m).malformed m p bytes = w at step bad
    have later : Later v (w.flush m) := bad.work.later.trans (later_flush m w)
    have still := onward_flush m w
    have own : v.port p = (s.port p).afterBad := by rw [bad.port, if_pos rfl]
    have states : ∀ b, (w.flush m).stateOf b = s.stateOf b := fun b => by
      rw [stateOf_congr (by rw [flush_rest]) b]
      exact (bad.work.stateOf b).trans (stateOf_congr bad.bookings b)
    refine ⟨_, step, fun q hq => ?_, nofun, fun _ => ⟨bad.keeps.trans later.calm.keepsSettings, ?_, states, ?_,
      fun acquiring => ?_, fun lof => ?_, fun up under => ?_, fun up beyond => ?_⟩⟩
    · rw [later.link, later.badChecks, bad.port, if_neg hq]
      exact ⟨rfl, rfl⟩
    · rw [flush_rest]
      exact bad.work.flows.trans bad.flows
    · rw [later.badChecks, own, afterBad_badChecks]
    · rw [later.link, later.goodRun, own, afterBad_stays (by simp [Port.LosesFrame, acquiring])]
      exact ⟨acquiring, if_pos acquiring⟩
    · rw [later.link, own, afterBad_stays (by simp [Port.LosesFrame, lof])]
      exact lof
    · rw [later.link, own, afterBad_stays fun k => Nat.not_lt.2 under k.2]
      exact up
    · obtain ⟨raised, e1, e2, drops⟩ := bad.lof up beyond
      obtain ⟨f1, f2⟩ := still.media p
      rw [later.link, later.upWhole, own, afterBad_loses ⟨up, beyond⟩]
      refine ⟨rfl, rfl, f1.trans e1, f2.trans e2, fun b x hx => ?_, ?_⟩
      · have table : (w.flush m).booking b = w.booking b := State.booking_congr (by rw [flush_rest]) b
        rw [table]
        exact drops.mediaDropped b x hx
      · obtain ⟨l, more, -⟩ := bad.work.raised
        exact flush_flag m (x := { cls := .lof, items := .ofPort p, detail := none }) (by simp [more, raised])

end Sys2Proof.Machine
end

section
/-! PORT SET (R43, R44, R109). -/

namespace Sys2Proof.Machine
open Sys2Proof.Config

variable {s t u v e : State} {a : PortSetArgs} {r : Req} {m : Moment} {p : PortIx} {b : BookingIx} {n : ProbeNo}
  {f : Flight} {w : WaitingProbe}

/-! ## The checks (R43) -/

theorem portSetInRange_iff (a : PortSetArgs) :
    (decide (15 < a.port ∨ 3 < a.role ∨ 2 < a.cls) || outside 1 960 a.capacity || decide (96 < a.reserve)) = false ↔
      PortSetInRange a := by
  simp only [Bool.or_eq_false_iff, decide_eq_false_iff_not, outside_eq_false]
  constructor
  · rintro ⟨⟨numbers, capacity⟩, reserve⟩
    exact ⟨by omega, by omega, by omega, capacity, by omega⟩
  · rintro ⟨port, role, cls, capacity, reserve⟩
    exact ⟨⟨by omega, capacity⟩, by omega⟩

/-- PORT SET changes the capacity, the reserve or the role. -/
theorem changes_iff (a : PortSetArgs) (x : Port) : PortSetArgs.changes a x = true ↔
    a.capacity ≠ x.capacity ∨ a.reserve ≠ x.reserve ∨ a.role ≠ x.role.code := by
  simp only [PortSetArgs.changes, Bool.or_eq_true, decide_eq_true_eq, or_assoc]

theorem holdsPorts_iff (x : Booking) :
    x.holdsPorts = true ↔ x.state ∈ [.pending, .confirmed, .armed, .live, .overrun, .closing] := by
  unfold Booking.holdsPorts Booking.counted
  cases x.state <;> decide

theorem portUsed_iff (p : PortIx) (s : State) : s.anyBooking (fun r => r.holdsPorts && r.usesPort p) = true ↔
    ∃ b x, s.booking b = some x ∧ x.usesPort p = true ∧
      x.state ∈ [.pending, .confirmed, .armed, .live, .overrun, .closing] := by
  simp only [anyBooking_iff, Bool.and_eq_true, holdsPorts_iff, and_comm]

theorem losesOperator_iff (hp : portIx a.port = p) (s : State) : s.losesOperator a = true ↔
    a.cls ≠ 2 ∧ ∀ q : PortIx, q ≠ p → (s.port q).cls ≠ .operator := by
  simp only [State.losesOperator, hp, Bool.and_eq_true, decide_eq_true_eq, List.all_eq_true, List.mem_finRange,
    Bool.or_eq_true, forall_const, or_iff_not_imp_left]
  rfl

theorem checkPortSet_advance (a : PortSetArgs) (m : Moment) (s : State) :
    checkPortSet a (s.advance m) = checkPortSet a s := by
  simp [checkPortSet, State.losesOperator]

theorem checkPortSet_range (h : ¬ PortSetInRange a) (s : State) : checkPortSet a s = some .range := by
  rw [checkPortSet, firstFailing_cons, if_pos (by rwa [← portSetInRange_iff, Bool.not_eq_false] at h)]

theorem checkPortSet_inRange (h : PortSetInRange a) (s : State) : checkPortSet a s =
    if s.restart then some .state
    else if PortSetArgs.changes a (s.port (portIx a.port)) &&
      s.anyBooking (fun r => r.holdsPorts && r.usesPort (portIx a.port)) then some .inUse
    else if s.losesOperator a then some .state else none := by
  simp only [checkPortSet, firstFailing_cons, firstFailing_nil, (portSetInRange_iff a).2 h, Bool.false_eq_true, if_false]

/-! ## The effect (R43, R44) -/

/-- The port with the six settings written. -/
def State.portWritten (m : Moment) (p : PortIx) (a : PortSetArgs) (s : State) : State :=
  (s.advance m).setPort p (PortSetArgs.apply a (s.port p))

theorem portWritten_port (m : Moment) (p q : PortIx) (a : PortSetArgs) (s : State) : (s.portWritten m p a).port q =
    if q = p then PortSetArgs.apply a (s.port p) else s.port q := by
  rw [State.portWritten, State.setPort_port, State.advance_port]

theorem portWritten_sameEngine (m : Moment) (p : PortIx) (a : PortSetArgs) (s : State) :
    SameEngine s (s.portWritten m p a) := by
  rw [State.portWritten, advance_eq]; exact ⟨rfl, rfl, rfl, rfl, rfl, rfl⟩

theorem writePort_off (off : (PortSetArgs.apply a (s.port p)).role = .off) (on : (s.port p).role ≠ .off) :
    (s.advance m).writePort m p a = ((s.portWritten m p a).emptyMedia m p).endProbeOf m p .aborted := by
  unfold State.writePort
  dsimp only
  rw [State.advance_port, State.setPort_port, if_pos rfl, if_pos ⟨off, on⟩]
  rfl

theorem writePort_stays (stays : ¬ ((PortSetArgs.apply a (s.port p)).role = .off ∧ (s.port p).role ≠ .off)) :
    (s.advance m).writePort m p a = s.portWritten m p a := by
  unfold State.writePort
  dsimp only
  rw [State.advance_port, State.setPort_port, if_pos rfl, if_neg stays]
  rfl

theorem calm_writePort (m : Moment) (p : PortIx) (a : PortSetArgs) (s : State) :
    Calm (s.portWritten m p a) ((s.advance m).writePort m p a) := by
  by_cases h : (PortSetArgs.apply a (s.port p)).role = .off ∧ (s.port p).role ≠ .off
  · rw [writePort_off h.1 h.2]
    exact ((later_emptyMedia ..).trans (later_endProbeOf ..)).calm
  · rw [writePort_stays h]
    exact .refl _

/-! ## The emptying of the queues without actions (R55, R73) -/

/-- The reflectometer and the outage states are the same. -/
structure SameProbes (s t : State) : Prop where
  engine : SameEngine s t
  outage : ∀ b, t.outageOf b = s.outageOf b

theorem SameProbes.refl (s : State) : SameProbes s s := ⟨⟨rfl, rfl, rfl, rfl, rfl, rfl⟩, fun _ => rfl⟩

theorem SameProbes.trans (h : SameProbes s t) (k : SameProbes t u) : SameProbes s u :=
  ⟨h.engine.trans k.engine, fun b => (k.outage b).trans (h.outage b)⟩

theorem updBooking_rest (b : BookingIx) (f : Booking → Booking) (s : State) :
    s.updBooking b f = { s with bookings := (s.updBooking b f).bookings } := by
  unfold State.updBooking
  split <;> rfl

theorem sameProbes_countDrop (c : MediaCopy) (s : State) :
    SameProbes s (s.updBooking c.booking fun r => r.countDrop c.position) := by
  refine ⟨by rw [updBooking_rest]; exact ⟨rfl, rfl, rfl, rfl, rfl, rfl⟩, fun b => ?_⟩
  have outage : ∀ r : Booking, (r.countDrop c.position).outage = r.outage := fun r => by
    unfold Booking.countDrop; split <;> rfl
  unfold State.updBooking State.outageOf
  cases hb : s.booking c.booking with
  | none => rfl
  | some r => by_cases e : b = c.booking <;> simp [e, hb, outage]

theorem OnlyCounts.sameProbes (h : OnlyCounts s t) : SameProbes s t :=
  ⟨by rw [h.rest]; exact ⟨rfl, rfl, rfl, rfl, rfl, rfl⟩, fun b => by rw [State.outageOf, State.booking_congr h.bookings]; rfl⟩

theorem egressDrop_noActions (h : s.NoActions) (m : Moment) (p : PortIx) (c : MediaCopy) :
    SameProbes s (s.egressDrop m p c) ∧ (s.egressDrop m p c).NoActions := by
  have free : (s.updBooking c.booking fun r => r.countDrop c.position).NoActions := h.congr (by rw [updBooking_rest])
  obtain ⟨counts, kept⟩ := onlyCounts_watch free m
    { kind := .egressDrops, port := some p, booking := some c.booking, leg := none, bits := some c.bits, weight := 1 }
  exact ⟨(sameProbes_countDrop c s).trans counts.sameProbes, kept⟩

theorem sameProbes_emptyMedia (h : s.NoActions) (m : Moment) (p : PortIx) : SameProbes s (s.emptyMedia m p) := by
  let v := s.setPort p { s.port p with class1 := [], class2 := [] }
  have free : v.NoActions := h
  have emptied : SameProbes v (s.emptyMedia m p) :=
    (foldl_noActions (P := SameProbes) .refl .trans (fun _ c h => egressDrop_noActions h m p c) _ free).1
  have start : SameProbes s v := ⟨⟨rfl, rfl, rfl, rfl, rfl, rfl⟩, fun _ => rfl⟩
  exact start.trans emptied

/-! ## Causes settled by an ABORTED end (R109, R122) -/

/-- Every cause pending on probe `n` is UNKNOWN. -/
def SettledUnknown (n : ProbeNo) (s t : State) : Prop :=
  ∀ b x, s.booking b = some x → ∃ y, t.booking b = some y ∧
    y.outage = x.outage.map fun o => o.settledAs n { value := .unknown, brk := none }

theorem settledUnknown_of_outageOf (h : ∀ b, t.outageOf b =
    (s.outageOf b).map fun z => z.map (·.settledAs n { value := .unknown, brk := none })) : SettledUnknown n s t := by
  intro b x hx
  have out := h b
  simp only [State.outageOf, hx, Option.map_some] at out
  exact Option.map_eq_some_iff.1 out

theorem aborted_flying (hf : s.flight = some f) (hp : f.port = p) (m : Moment) (b : BookingIx) :
    (s.endProbeOf m p .aborted).outageOf b =
      (s.outageOf b).map fun z => z.map (·.settledAs f.number { value := .unknown, brk := none }) := by
  rw [endProbeOf_flying hf hp]
  exact ((leaveNext_passedOn f _).outageOf b).trans ((concludeProbe_concluded m f.number f.port (.bare .aborted) s).outage b)

theorem aborted_waits (inv : s.ProbeInv) (hw : w ∈ s.probeWaiting) (hp : w.port = p) (m : Moment) (b : BookingIx) :
    (s.endProbeOf m p .aborted).outageOf b =
      (s.outageOf b).map fun z => z.map (·.settledAs w.number { value := .unknown, brk := none }) := by
  rw [endProbeOf_waiting inv hw hp]
  exact (concludeProbe_concluded m w.number p (.bare .aborted) (s.withoutWaiting p)).outage b

/-! ## The answer -/

theorem OnlyAnswers.sameMedia (h : OnlyAnswers s t) (q : PortIx) : SameMedia (s.port q) (t.port q) := by
  rw [← h.ports q]; exact ⟨rfl, rfl⟩

section Answer
variable {code : Nat} {res : Result} {body : List Byte}

theorem AnsweredOnly.sameMedia (h : AnsweredOnly s t r code res body) (q : PortIx) : SameMedia (s.port q) (t.port q) := by
  obtain ⟨before, after, u, -, hu, -, rfl⟩ := h
  exact (((onlyAnswers_takeRaises before s).trans hu).trans (onlyAnswers_takeRaises after u)).sameMedia q

theorem AnsweredOnly.bookings (h : AnsweredOnly s t r code res body) : t.bookings = s.bookings := by rw [h.rest]

theorem AnsweredOnly.sameEngine (h : AnsweredOnly s t r code res body) : SameEngine s t := by
  rw [h.rest]; exact ⟨rfl, rfl, rfl, rfl, rfl, rfl⟩

end Answer

theorem MediaDropped.congr (h : MediaDropped s t p) (dests : ∀ b, u.destsOf b = t.destsOf b) : MediaDropped s u p := by
  intro b x hx
  obtain ⟨y, hy, length, each⟩ := h b x hx
  have same := dests b
  simp only [State.destsOf, hy, Option.map_some] at same
  obtain ⟨z, hz, eq⟩ := Option.map_eq_some_iff.1 same
  exact ⟨z, hz, by rw [eq, length], by rwa [eq]⟩

/-! ## A role that becomes OFF -/

/-- The answer to a PORT SET whose role becomes OFF, `v` having the settings written (R44). -/
def AnsweredOff (m : Moment) (p : PortIx) (r : Req) (v t : State) : Prop :=
  AnsweredOnly ((v.emptyMedia m p).endProbeOf m p .aborted) t r 16 .ok []

section Off
variable (h : AnsweredOff m p r v t)
include h

theorem AnsweredOff.empty : (t.port p).class1 = [] ∧ (t.port p).class2 = [] := by
  obtain ⟨e1, e2⟩ := emptyMedia_queues m p v
  obtain ⟨g1, g2⟩ := (endProbeOf_gone m p .aborted (v.emptyMedia m p)).media p
  obtain ⟨a1, a2⟩ := AnsweredOnly.sameMedia h p
  exact ⟨a1.trans (g1.trans e1), a2.trans (g2.trans e2)⟩

theorem AnsweredOff.mediaDropped (table : v.bookings = s.bookings) (queues : SameMedia (s.port p) (v.port p)) :
    MediaDropped s t p := by
  have start : Drops [] s v := .of_same (stateOf_congr table) (SameRoutes.of_bookings table).dests
  have gone := start.trans (drops_emptyMedia m p v)
  rw [queues.1, queues.2, List.nil_append] at gone
  refine gone.mediaDropped.congr fun b => ?_
  rw [State.destsOf, State.booking_congr (AnsweredOnly.bookings h)]
  exact (endProbeOf_gone m p .aborted (v.emptyMedia m p)).dests b

variable (free : v.NoActions)
include free

theorem AnsweredOff.unprobed (engine : SameEngine s v) (none_ : s.probeOf p = none) : SameEngine s t :=
  ended_none (m := m) (engine.trans (sameProbes_emptyMedia free m p).engine) (AnsweredOnly.sameEngine h) none_

variable (table : v.bookings = s.bookings)
include table

/-- The causes that an ABORTED end settles are those that stood before the queues were emptied. -/
theorem AnsweredOff.settled (settles : ∀ b, ((v.emptyMedia m p).endProbeOf m p .aborted).outageOf b =
    ((v.emptyMedia m p).outageOf b).map fun z => z.map (·.settledAs n { value := .unknown, brk := none })) :
    SettledUnknown n s t := by
  refine settledUnknown_of_outageOf fun b => ?_
  have before : v.outageOf b = s.outageOf b := by rw [State.outageOf, State.booking_congr table]; rfl
  rw [State.outageOf, State.booking_congr (AnsweredOnly.bookings h)]
  rw [← before, ← (sameProbes_emptyMedia free m p).outage b]
  exact settles b

theorem AnsweredOff.flying (engine : SameEngine s v) (hf : s.flight = some f) (hp : f.port = p) :
    ProbeEnded s t f (.bare .aborted) ∧ SettledUnknown f.number s t := by
  have start := engine.trans (sameProbes_emptyMedia free m p).engine
  exact ⟨ended_flying start (AnsweredOnly.sameEngine h) (fun _ hx => AnsweredOnly.flag h hx) hf hp,
    AnsweredOff.settled h free table (aborted_flying (start.flight.trans hf) hp m)⟩

theorem AnsweredOff.waiting (engine : SameEngine s v) (inv : s.ProbeInv) (hw : w ∈ s.probeWaiting) (hp : w.port = p) :
    (t.flight = s.flight ∧ t.probeWaiting = s.probeWaiting.filter (fun v => decide (v.port ≠ p)) ∧
      t.flags[FaultClass.probeDone.ix] = true ∧
      t.lastResults[p] = some ((ProbeEnd.bare .aborted).resultOf w.number s)) ∧ SettledUnknown w.number s t := by
  have start := engine.trans (sameProbes_emptyMedia free m p).engine
  exact ⟨ended_waiting start (AnsweredOnly.sameEngine h) (fun _ hx => AnsweredOnly.flag h hx) inv hw hp,
    AnsweredOff.settled h free table
      (aborted_waits (start.probeInv inv) (start.probeWaiting.symm ▸ hw) hp m)⟩

end Off

/-! ## PORT SET -/

theorem roleCode_known {n : Nat} (h : n ≤ 3) : ∃ x, Role.ofCode n = some x := by
  interval_cases n <;> exact ⟨_, rfl⟩

theorem classCode_known {n : Nat} (h : n ≤ 2) : ∃ x, ControlClass.ofCode n = some x := by
  interval_cases n <;> exact ⟨_, rfl⟩

/-- Settles O25. -/
theorem portSetWritesTheSettings : Obligations.PortSetWritesTheSettings := by
  intro r a s p h
  have h' := h.advance r.m
  have refused : ∀ res, checkPortSet a s = some res →
      ∃ t, exec (.portSet r (some a)) s = .next t ∧ AnsweredOnly (s.advance r.m) t r 16 res [] :=
    fun res k => ⟨_, rfl, takeRequest_answered h' (checked_some ((checkPortSet_advance ..).trans k))⟩
  refine ⟨fun range => refused _ (checkPortSet_range range s), fun range restart => refused _ ?_,
    fun range port running => ?_⟩
  · rw [checkPortSet_inRange range, if_pos restart]
  have ix : portIx a.port = p := by rw [← port, portIx_val]
  have check := checkPortSet_inRange range s
  rw [ix, if_neg (by simp [running])] at check
  have busy := (Bool.and_eq_true_iff).trans (and_congr (changes_iff a (s.port p)) (portUsed_iff p s))
  have last := losesOperator_iff (a := a) ix s
  refine ⟨fun used => refused _ ?_, fun unused loses => refused _ ?_, fun unused keeps => ?_⟩
  · rw [check, if_pos (busy.2 used)]
  · rw [check, if_neg (mt busy.1 unused), if_pos (last.2 loses)]
  rw [if_neg (mt busy.1 unused), if_neg (mt last.1 keeps)] at check
  obtain ⟨role, hrole⟩ := roleCode_known range.role
  obtain ⟨cls, hcls⟩ := classCode_known range.cls
  have own : PortSetArgs.apply a (s.port p) = { s.port p with
      role := role, capacity := a.capacity, reserve := a.reserve, demarcation := a.demarcation, cls := cls,
      autoProbe := a.autoProbe } := by simp [PortSetArgs.apply, hrole, hcls]
  have ownRole : (PortSetArgs.apply a (s.port p)).role = role := by rw [own]
  let v := s.portWritten r.m p a
  have answered : AnsweredOnly ((s.advance r.m).writePort r.m p a) (reqPortSet r (some a) (s.advance r.m)) r 16 .ok [] := by
    rw [← ix]
    exact takeRequest_answered h' (checked_none ((checkPortSet_advance ..).trans check))
  refine ⟨_, _, rfl, answered, ?_⟩
  generalize reqPortSet r (some a) (s.advance r.m) = t at answered
  have calm : Calm v t := (calm_writePort r.m p a s).trans answered.calm
  have off : role = .off → (s.port p).role ≠ .off → AnsweredOff r.m p r v t := fun off on => by
    rw [writePort_off (ownRole.trans off) on] at answered
    exact answered
  have isOff : a.role = 0 → role = .off := fun zero => by
    rw [zero] at hrole
    exact (Option.some.inj hrole).symm
  have table : v.bookings = s.bookings := State.advance_bookings s r.m
  have written : v.port p = PortSetArgs.apply a (s.port p) := by rw [portWritten_port, if_pos rfl]
  have queues : SameMedia (s.port p) (v.port p) := by rw [written]; exact ⟨rfl, rfl⟩
  have engine : SameEngine s v := portWritten_sameEngine r.m p a s
  refine ⟨⟨role, cls, hrole, hcls, ?_, fun to_ on => (off to_ on).empty, fun stays => ?_⟩, fun q hq => ?_, ?_,
    fun zero on => (off (isOff zero) on).mediaDropped table queues, fun free zero on => ?_⟩
  · rw [calm.settings, written, own]
    rfl
  · have kept : ¬ ((PortSetArgs.apply a (s.port p)).role = .off ∧ (s.port p).role ≠ .off) := by
      rw [ownRole]
      exact fun ⟨off, on⟩ => stays.elim (· off) on
    rw [← own, writePort_stays kept]
    rfl
  · rw [calm.settings, portWritten_port, if_neg hq]
  · rw [calm.sameLinks.link, written]
    rfl
  · have gone := off (isOff zero) on
    have free : v.NoActions := free.congr (State.advance_counters s r.m)
    refine ⟨fun f hf hp => gone.flying free table engine hf hp, fun w hw hp inv => ?_, fun none_ => ?_⟩
    · obtain ⟨⟨flight, waits, done, result⟩, settled⟩ := gone.waiting free table engine inv hw hp
      exact ⟨flight, waits, done, result, settled⟩
    · have same := gone.unprobed free engine none_
      exact ⟨same.flight, same.probeWaiting, same.lastResults⟩

end Sys2Proof.Machine
end

section
/-! The flow table as a matching of keys to legs (R60 to R62): which leg holds which key, which legs wait for a held one, and
what installing, deferring and removing make of it. -/

namespace Sys2Proof.Machine
open Sys2Proof.Config

variable {s t u : State} {b c : BookingIx} {l : LegId} {r : Booking}

/-! ## Keys and places -/

/-- The port and the label under which frames of leg `l` arrive (R59). -/
def Booking.keyOf (r : Booking) (l : LegId) : Option (PortIx × Nat) := (r.leg l).map fun g => (g.port, g.label)

/-- The key of a leg of the record `x.1`, whatever its state. -/
def State.legKey (s : State) (x : BookingIx × LegId) : Option (PortIx × Nat) :=
  (s.booking x.1).bind fun r => r.keyOf x.2

/-- The key of a leg of an ARMED, LIVE or OVERRUN booking. -/
def State.carriedKey (s : State) (x : BookingIx × LegId) : Option (PortIx × Nat) :=
  (s.booking x.1).bind fun r => if r.carrying then r.keyOf x.2 else none

/-- The flow table, read as keys and the legs that hold them. -/
def State.places (s : State) : List ((PortIx × Nat) × BookingIx × LegId) :=
  s.flows.map fun e => ((e.port, e.label), e.booking, e.leg)

theorem keyOf_eq_some {k : PortIx × Nat} :
    r.keyOf l = some k ↔ ∃ g, r.leg l = some g ∧ (g.port, g.label) = k := Option.map_eq_some_iff

theorem carriedKey_eq_some {x : BookingIx × LegId} {k : PortIx × Nat} : s.carriedKey x = some k ↔
    ∃ r g, s.booking x.1 = some r ∧ r.carrying = true ∧ r.leg x.2 = some g ∧ (g.port, g.label) = k := by
  unfold State.carriedKey
  cases hb : s.booking x.1 with
  | none => simp
  | some r => cases hc : r.carrying <;> simp [hc, keyOf_eq_some]

/-- While a record carries, its legs' keys are carried. -/
theorem carriedKey_of_carrying {x : BookingIx × LegId} (hb : s.booking x.1 = some r) (carrying : r.carrying = true) :
    s.carriedKey x = s.legKey x := by simp [State.carriedKey, State.legKey, hb, carrying]

theorem carriedKey_of_idle {x : BookingIx × LegId} (h : ∀ r, s.booking x.1 = some r → r.carrying = false) :
    s.carriedKey x = none := by
  cases hb : s.booking x.1 with
  | none => simp [State.carriedKey, hb]
  | some r => simp [State.carriedKey, hb, h r hb]

theorem places_keys (s : State) : s.places.map Prod.fst = s.flowKeys := by
  simp [State.places, State.flowKeys, Function.comp_def]

theorem flowOf_ne_none {p : PortIx} {label : Nat} : s.flowOf p label ≠ none ↔ (p, label) ∈ s.flowKeys := by
  rw [State.flowOf, ← Option.isSome_iff_ne_none, List.find?_isSome]
  simp [State.flowKeys]

/-! ## The law of the table -/

/-- The legs with a key in `K` are those that hold it in `P`, those of `D` that wait for it and those of `L` still to be
installed: each leg in one of the three, each key held once, each awaited key held. -/
structure Matched (K : BookingIx × LegId → Option (PortIx × Nat)) (P : List ((PortIx × Nat) × BookingIx × LegId))
    (D L : List (BookingIx × LegId)) : Prop where
  keys : (P.map Prod.fst).Nodup
  entry : ∀ e ∈ P, K e.2 = some e.1
  leg : ∀ x k, K x = some k → (x ∈ P.map Prod.snd ↔ x ∉ D ++ L)
  waits : ∀ x ∈ D, ∃ k, K x = some k ∧ k ∈ P.map Prod.fst
  once : (D ++ L).Nodup

/-- The law of the flow table, with nothing left to install. -/
theorem flowsMatch_iff : s.FlowsMatch ↔ Matched s.carriedKey s.places s.deferred [] := by
  have holds : ∀ x : BookingIx × LegId, x ∈ s.places.map Prod.snd ↔ ∃ e ∈ s.flows, e.booking = x.1 ∧ e.leg = x.2 := by
    simp [State.places, Prod.ext_iff]
  constructor
  · rintro ⟨keys, entry, leg, deferred, once⟩
    refine ⟨by rw [places_keys]; exact keys, ?_, ?_, ?_, by simpa using once⟩
    · intro e he
      obtain ⟨x, hx, rfl⟩ := List.mem_map.1 he
      obtain ⟨r, g, hb, carrying, hl, port, label⟩ := entry x hx
      exact carriedKey_eq_some.2 ⟨r, g, hb, carrying, hl, by rw [port, label]⟩
    · intro x k hx
      obtain ⟨r, g, hb, carrying, hl, -⟩ := carriedKey_eq_some.1 hx
      rw [holds, List.append_nil]
      exact leg x.1 r x.2 g hb carrying hl
    · intro x hx
      obtain ⟨r, g, hb, carrying, hl, held⟩ := deferred x hx
      exact ⟨_, carriedKey_eq_some.2 ⟨r, g, hb, carrying, hl, rfl⟩, by rw [places_keys]; exact flowOf_ne_none.1 held⟩
  · rintro ⟨keys, entry, leg, waits, once⟩
    refine ⟨by rw [places_keys] at keys; exact keys, ?_, ?_, ?_, by simpa using once⟩
    · intro e he
      obtain ⟨r, g, hb, carrying, hl, key⟩ := carriedKey_eq_some.1 (entry _ (List.mem_map.2 ⟨e, he, rfl⟩))
      simp only [Prod.mk.injEq] at key
      exact ⟨r, g, hb, carrying, hl, key.1.symm, key.2.symm⟩
    · intro b r l g hb carrying hl
      rw [← holds (b, l), leg (b, l) _ (carriedKey_eq_some.2 ⟨r, g, hb, carrying, hl, rfl⟩), List.append_nil]
    · intro x hx
      obtain ⟨k, hk, held⟩ := waits x hx
      obtain ⟨r, g, hb, carrying, hl, rfl⟩ := carriedKey_eq_some.1 hk
      exact ⟨r, g, hb, carrying, hl, flowOf_ne_none.2 (by rw [← places_keys]; exact held)⟩

section Table

variable {K K' : BookingIx × LegId → Option (PortIx × Nat)} {P : List ((PortIx × Nat) × BookingIx × LegId)}
  {D L : List (BookingIx × LegId)} {x : BookingIx × LegId} {k : PortIx × Nat}

/-- A leg the booking does not have is not installed. -/
theorem Matched.skip (h : Matched K P D (x :: L)) (absent : K x = none) : Matched K P D L where
  keys := h.keys
  entry := h.entry
  leg y k hy := by
    have other : y ≠ x := by rintro rfl; rw [absent] at hy; cases hy
    rw [h.leg y k hy]
    simp [other]
  waits := h.waits
  once := h.once.sublist ((List.sublist_cons_self x L).append_left D)

/-- A leg whose key is held is deferred (R60). -/
theorem Matched.defer (h : Matched K P D (x :: L)) (hx : K x = some k) (held : k ∈ P.map Prod.fst) :
    Matched K P (D ++ [x]) L where
  keys := h.keys
  entry := h.entry
  leg y k hy := by rw [h.leg y k hy, List.append_assoc, List.singleton_append]
  waits y hy := by
    rcases List.mem_append.1 hy with hy | hy
    · exact h.waits y hy
    · rw [List.mem_singleton.1 hy]; exact ⟨k, hx, held⟩
  once := by rw [List.append_assoc]; exact h.once

/-- A leg whose key is free takes it (R60). -/
theorem Matched.install (h : Matched K P D (x :: L)) (hx : K x = some k) (free : k ∉ P.map Prod.fst) :
    Matched K (P ++ [(k, x)]) D L where
  keys := by
    rw [List.map_append]
    refine List.nodup_append.2 ⟨h.keys, by simp, ?_⟩
    rintro a ha c hc rfl
    rw [List.mem_singleton.1 hc] at ha
    exact free ha
  entry e he := by
    rcases List.mem_append.1 he with he | he
    · exact h.entry e he
    · rw [List.mem_singleton.1 he]; exact hx
  leg y k' hy := by
    have once := h.once
    rw [List.nodup_middle, List.nodup_cons] at once
    have old := h.leg y k' hy
    by_cases e : y = x
    · subst e; simpa using once.1
    · simpa [e] using old
  waits y hy := by
    obtain ⟨k', hk, held⟩ := h.waits y hy
    exact ⟨k', hk, by rw [List.map_append]; exact List.mem_append_left _ held⟩
  once := h.once.sublist ((List.sublist_cons_self x L).append_left D)

/-- A booking arms: its legs are to be installed (R60). -/
theorem Matched.arm (h : Matched K P D []) (before : ∀ x, x.1 = b → K x = none) (others : ∀ x, x.1 ≠ b → K' x = K x)
    (mine : ∀ x ∈ L, x.1 = b) (all : ∀ x k, x.1 = b → K' x = some k → x ∈ L) (once : L.Nodup) : Matched K' P D L := by
  have kept : ∀ x k, K x = some k → x.1 ≠ b ∧ K' x = some k := fun x k hx => by
    have other : x.1 ≠ b := fun e => by rw [before x e] at hx; cases hx
    exact ⟨other, (others x other).trans hx⟩
  refine ⟨h.keys, fun e he => (kept _ _ (h.entry e he)).2, fun x k hx => ?_, fun x hx => ?_, ?_⟩
  · by_cases e : x.1 = b
    · have absent : x ∉ P.map Prod.snd := fun hx => by
        obtain ⟨p, hp, rfl⟩ := List.mem_map.1 hx
        exact (kept _ _ (h.entry p hp)).1 e
      simp [absent, all x k e hx]
    · have old := h.leg x k ((others x e).symm.trans hx)
      have apart : x ∉ L := fun hx => e (mine x hx)
      simpa [apart] using old
  · obtain ⟨k, hk, held⟩ := h.waits x hx
    exact ⟨k, (kept x k hk).2, held⟩
  · refine List.nodup_append.2 ⟨by simpa using h.once, once, ?_⟩
    rintro x hx _ hy rfl
    obtain ⟨k, hk, -⟩ := h.waits x hx
    exact (kept x k hk).1 (mine x hy)

/-- A booking closes: its legs leave, and the others' waiting ones are to be installed anew (R61). -/
theorem Matched.close (h : Matched K P D []) (gone : ∀ x, x.1 = b → K' x = none) (others : ∀ x, x.1 ≠ b → K' x = K x) :
    Matched K' (P.filter fun e => decide (e.2.1 ≠ b)) [] (D.filter fun x => decide (x.1 ≠ b)) where
  keys := h.keys.sublist (List.filter_sublist.map _)
  entry e he := by
    obtain ⟨he, other⟩ := List.mem_filter.1 he
    exact (others _ (of_decide_eq_true other)).trans (h.entry e he)
  leg x k hx := by
    have other : x.1 ≠ b := fun e => by rw [gone x e] at hx; cases hx
    have old := h.leg x k ((others x other).symm.trans hx)
    simp only [List.mem_map, List.append_nil] at old
    simp only [List.nil_append, List.mem_filter, other, ne_eq, not_false_eq_true, decide_true, and_true, ← old,
      List.mem_map]
    refine exists_congr fun e => ?_
    constructor
    · rintro ⟨⟨he, -⟩, rfl⟩; exact ⟨he, rfl⟩
    · rintro ⟨he, rfl⟩; exact ⟨⟨he, decide_eq_true other⟩, rfl⟩
  waits := nofun
  once := by simpa using (List.append_nil D ▸ h.once).filter _

end Table

/-! ## Installing -/

/-- What installing a leg does: nothing where the booking does not have it; deferred while its key is held; else installed
(R60). -/
theorem installLeg_cases (x : BookingIx × LegId) (s : State) :
    s.legKey x = none ∧ s.installLeg x.1 x.2 = s ∨
    ∃ k, s.legKey x = some k ∧
      (k ∈ s.places.map Prod.fst ∧ (s.installLeg x.1 x.2).places = s.places ∧
          (s.installLeg x.1 x.2).deferred = s.deferred ++ [x] ∨
        k ∉ s.places.map Prod.fst ∧ (s.installLeg x.1 x.2).places = s.places ++ [(k, x)] ∧
          (s.installLeg x.1 x.2).deferred = s.deferred) := by
  rw [places_keys]
  unfold State.legKey State.installLeg
  cases hb : s.booking x.1 with
  | none => exact .inl ⟨rfl, rfl⟩
  | some r =>
    cases hl : r.leg x.2 with
    | none => exact .inl (by simp [Booking.keyOf, hl])
    | some g =>
      refine .inr ⟨(g.port, g.label), by simp [Booking.keyOf, hl], ?_⟩
      rw [← flowOf_ne_none, ← Option.isSome_iff_ne_none]
      by_cases held : (s.flowOf g.port g.label).isSome = true
      · exact .inl ⟨held, by simp [hl, held, State.places]⟩
      · exact .inr ⟨held, by simp [hl, held, State.places, FlowEntry.install]⟩

theorem legKey_congr (h : t.bookings = s.bookings) (x : BookingIx × LegId) : t.legKey x = s.legKey x := by
  rw [State.legKey, State.booking_congr h]; rfl

/-- The legs still to be installed, each installed or deferred in turn. -/
theorem matched_foldl_installLeg {K : BookingIx × LegId → Option (PortIx × Nat)} {L : List (BookingIx × LegId)}
    (keys : ∀ x ∈ L, K x = s.legKey x) (h : Matched K s.places s.deferred L) :
    let t := L.foldl (fun s x => s.installLeg x.1 x.2) s
    Matched K t.places t.deferred [] := by
  induction L generalizing s with
  | nil => exact h
  | cons x L ih =>
    have here := keys x (List.mem_cons_self ..)
    refine ih (s := s.installLeg x.1 x.2) (fun y hy => ?_) ?_
    · rw [legKey_congr (installLeg_installs x.1 x.2 s).bookings]
      exact keys y (List.mem_cons_of_mem _ hy)
    · rcases installLeg_cases x s with ⟨hk, same⟩ | ⟨k, hk, ⟨held, places, deferred⟩ | ⟨free, places, deferred⟩⟩
      · rw [same]; exact h.skip (here.trans hk)
      · rw [places, deferred]; exact h.defer (here.trans hk) held
      · rw [places, deferred]; exact h.install (here.trans hk) free

/-- The legs of an arming booking installed (R60). -/
theorem matched_installLegs {K : BookingIx × LegId → Option (PortIx × Nat)} (h : Matched K s.places s.deferred [])
    (before : ∀ x, x.1 = b → K x = none) (others : ∀ x, x.1 ≠ b → s.carriedKey x = K x) (hb : s.booking b = some r)
    (carrying : r.carrying = true) : (s.installLegs b).FlowsMatch := by
  let L : List (BookingIx × LegId) := [(b, .main), (b, .backup)]
  have mine : ∀ x ∈ L, x.1 = b := by simp [L]
  have all : ∀ x : BookingIx × LegId, x.1 = b → x ∈ L := by
    rintro ⟨c, l⟩ rfl
    cases l <;> simp [L]
  have due := h.arm before others mine (fun x _ e _ => all x e) (by simp [L])
  have keys : (s.installLegs b).carriedKey = s.carriedKey := by
    funext x; rw [State.carriedKey, installLegs_booking]; rfl
  rw [flowsMatch_iff, keys]
  exact matched_foldl_installLeg (fun x hx => carriedKey_of_carrying (by rw [mine x hx]; exact hb) carrying) due

/-- Everything of a closing booking removed, and what waited for its keys installed (R61). -/
theorem matched_removeFlows (h : s.FlowsMatch) (b : BookingIx) :
    Matched (fun x => if x.1 = b then none else s.carriedKey x) (s.removeFlows b).places (s.removeFlows b).deferred [] := by
  rw [flowsMatch_iff] at h
  have due := h.close (b := b) (K' := fun x => if x.1 = b then none else s.carriedKey x) (fun x e => if_pos e)
    fun x e => if_neg e
  let u : State := { s with flows := s.flows.filter fun e => decide (e.booking ≠ b), deferred := [] }
  have places : u.places = s.places.filter fun e => decide (e.2.1 ≠ b) := by
    simp only [State.places, u, List.filter_map]
    rfl
  refine matched_foldl_installLeg (s := u) (fun x hx => ?_) (by rw [places]; exact due)
  obtain ⟨hx, other⟩ := List.mem_filter.1 hx
  obtain ⟨k, hk, -⟩ := h.waits x hx
  obtain ⟨r, -, hb, carrying, -⟩ := carriedKey_eq_some.1 hk
  rw [if_neg (of_decide_eq_true other), carriedKey_of_carrying hb carrying]
  exact (legKey_congr rfl x).symm

/-! ## Who waits -/

theorem installLeg_deferred (x : BookingIx × LegId) (s : State) :
    ∀ y ∈ (s.installLeg x.1 x.2).deferred, y ∈ s.deferred ∨ y = x := by
  unfold State.installLeg
  split
  · exact fun y => .inl
  · split
    · exact fun y => .inl
    · split
      · intro y hy
        exact (List.mem_append.1 hy).imp id List.mem_singleton.1
      · exact fun y => .inl

theorem foldl_installLeg_deferred (L : List (BookingIx × LegId)) (s : State) :
    ∀ y ∈ (L.foldl (fun s x => s.installLeg x.1 x.2) s).deferred, y ∈ s.deferred ∨ y ∈ L := by
  induction L generalizing s with
  | nil => exact fun y => .inl
  | cons x L ih =>
    intro y hy
    rcases ih _ y hy with hy | hy
    · exact (installLeg_deferred x s y hy).imp id fun e => by simp [e]
    · exact .inr (List.mem_cons_of_mem _ hy)

theorem installLegs_deferred (b : BookingIx) (s : State) :
    ∀ y ∈ (s.installLegs b).deferred, y ∈ s.deferred ∨ y.1 = b := by
  intro y hy
  refine (foldl_installLeg_deferred [(b, .main), (b, .backup)] s y hy).imp id fun hy => ?_
  simp only [List.mem_cons, List.not_mem_nil, or_false] at hy
  rcases hy with rfl | rfl <;> rfl

theorem removeFlows_deferred (b : BookingIx) (s : State) : ∀ y ∈ (s.removeFlows b).deferred, y ∈ s.deferred := by
  intro y hy
  rcases foldl_installLeg_deferred _ _ y hy with hy | hy
  · cases hy
  · exact (List.mem_filter.1 hy).1

end Sys2Proof.Machine
end

section
/-! The law of labels in its parts (R32, R60, R62): what the claims owe each other, what the flow table owes the carrying
bookings; and why two of those share a key only where the one hands it to the other. -/

namespace Sys2Proof.Machine
open Sys2Proof.Config

variable {s t u : State} {b c : BookingIx} {l : LegId} {r r' x y : Booking}

/-! ## What the terms decide -/

theorem start_of_terms (h : r'.fixedTerms = r.fixedTerms) :
    r'.start = r.start ∧ r'.finish = r.finish ∧ r'.armLead = r.armLead := by
  simp only [Booking.fixedTerms, Prod.mk.injEq, List.cons.injEq, and_true] at h
  obtain ⟨⟨-, -, -, start, finish, lead⟩, -⟩ := h
  exact ⟨start, finish, lead⟩

theorem legKeys_of_terms (h : r'.fixedTerms = r.fixedTerms) :
    r'.legs.map (fun g => (g.port, g.label)) = r.legs.map fun g => (g.port, g.label) := by
  have legs := congrArg (fun k => k.2.1.map fun z => (z.1, z.2.1)) h
  simpa [Booking.fixedTerms, Function.comp_def] using legs

theorem termsInRange_of_asks (h : r'.asks = r.asks) (k : r.TermsInRange) : r'.TermsInRange := by
  have terms : r'.fixedTerms = r.fixedTerms := congrArg Prod.fst h
  obtain ⟨start, finish, lead⟩ := start_of_terms terms
  have allowance := allowance_of_asks h
  have ports := legPorts_of_terms terms
  obtain ⟨h1, h2, h3, h4, h5⟩ := k
  exact ⟨by omega, by omega, by omega, by omega, by rw [ports]; exact h5⟩

theorem windowStart_of_terms (h : r'.fixedTerms = r.fixedTerms) : r'.windowStart = r.windowStart := by
  obtain ⟨start, -, lead⟩ := start_of_terms h
  rw [Booking.windowStart, Booking.windowStart, start, lead]

/-- The place of a leg among a booking's legs. -/
def legRank : LegId → Nat
  | .main => 0
  | .backup => 1

theorem leg_eq_getElem (r : Booking) (l : LegId) : r.leg l = r.legs[legRank l]? := by
  cases l with
  | main => rfl
  | backup => cases h : r.backup <;> simp [Booking.leg, Booking.legs, legRank, h]

theorem keyOf_of_terms (h : r'.fixedTerms = r.fixedTerms) (l : LegId) : r'.keyOf l = r.keyOf l := by
  rw [Booking.keyOf, Booking.keyOf, leg_eq_getElem, leg_eq_getElem, ← List.getElem?_map, ← List.getElem?_map,
    legKeys_of_terms h]

theorem mem_legs_of_leg {g : Leg} (h : r.leg l = some g) : g ∈ r.legs := by
  rw [leg_eq_getElem] at h
  exact List.mem_of_getElem? h

/-- The two legs of a booking stand on different ports (R3). -/
theorem leg_unique {k : LegId} {g g' : Leg} (h : r.TermsInRange) (hl : r.leg l = some g) (hk : r.leg k = some g')
    (port : g.port = g'.port) : l = k := by
  have apart := h.ports
  have two : ∀ {g : Leg}, r.leg .backup = some g → r.main.port ≠ g.port := fun {g} hg => by
    have hg : r.backup = some g := hg
    simpa [Booking.legs, hg] using apart
  cases l <;> cases k
  · rfl
  · cases hl; exact absurd port (two hk)
  · cases hk; exact absurd port.symm (two hl)
  · rfl

/-! ## The law in its parts -/

/-- What the records and the entries of the queue owe each other (R21, R32). -/
structure State.Apart (s : State) : Prop where
  terms : ∀ b r, s.booking b = some r → r.TermsInRange
  extend : ∀ e ∈ s.entries, e.void = false → ∀ total clamped, e.kind = .extend total clamped →
    ∃ r, s.booking e.booking = some r ∧ r.extendPending = true ∧ r.allowance ≤ total ∧ total ≤ 7200 ∧
      r.finish + total ≤ 4294967295
  once : ((s.entries.filter fun e => decide (e.kind ≠ .book ∧ e.void = false)).map (·.booking)).Nodup
  labels : ∀ i j a c, i ≠ j → s.countedClaim i = some a → s.countedClaim j = some c → a.lo < c.hi → c.lo < a.hi →
    (∀ k ∈ a.legs, k ∉ c.legs) ∧ ∀ k ∈ a.dests, k ∉ c.dests

/-- What the flow table and the carrying bookings owe each other in the second `n` (R60, R62). -/
structure State.CarriageAt (s : State) (n : Nat) : Prop where
  flows : s.FlowsMatch
  window : ∀ b r, s.booking b = some r → r.carrying = true → r.InWindow n
  deferred : ∀ x ∈ s.deferred, ∀ r, s.booking x.1 = some r → r.state = .armed ∧ r.windowStart = n

/-- The same in the second in progress. -/
def State.Carriage (s : State) : Prop := s.CarriageAt s.sec

theorem labelInv_iff : s.LabelInv ↔ s.CapacityInv ∧ s.Apart ∧ s.Carriage := by
  constructor
  · rintro ⟨capacity, flows, terms, extend, once, window, deferred, labels⟩
    exact ⟨capacity, ⟨terms, extend, once, labels⟩, flows, window, deferred⟩
  · rintro ⟨capacity, ⟨terms, extend, once, labels⟩, flows, window, deferred⟩
    exact ⟨capacity, flows, terms, extend, once, window, deferred, labels⟩

/-! ## Why two carrying bookings share a key (R60, R62) -/

theorem carrying_iff : r.carrying = true ↔ r.state ∈ [.armed, .live, .overrun] := by simp [Booking.carrying]

theorem counted_of_carrying (h : r.carrying = true) : r.counted = true := by
  have states := carrying_iff.1 h
  rw [counted_iff]
  revert states
  cases r.state <;> simp [countedStates]

/-- Of two bookings that stand in windows without a common second, the one whose window is over is in its after-window
second, and the other's window begins with it. -/
theorem handsOver_of_apart {sec : Nat} (hx : x.TermsInRange) (hy : y.TermsInRange) (wx : x.InWindow sec)
    (wy : y.InWindow sec)
    (apart : ¬ (x.windowStart < y.finish + y.allowance ∧ y.windowStart < x.finish + x.allowance)) :
    OneHandsOver x y sec ∨ OneHandsOver y x sec := by
  have one : ∀ {x y : Booking}, x.TermsInRange → y.TermsInRange → x.InWindow sec → y.InWindow sec →
      ¬ (x.windowStart < y.finish + y.allowance ∧ y.windowStart < x.finish + x.allowance) → x.AfterWindow sec →
      OneHandsOver x y sec := fun {x y} hx hy wx wy apart past => by
    obtain ⟨-, allowance, -, last⟩ := id past
    have dx := hx.duration
    have dy := hy.duration
    have leadx := hx.lead
    have leady := hy.lead
    have begun := wy.begun
    have ends : sec < y.finish + y.allowance := wy.ends.resolve_right fun k => by
      have := k.2.2.2
      simp only [Booking.windowStart] at apart
      omega
    have first : y.windowStart = sec := by simp only [Booking.windowStart] at apart begun ⊢; omega
    refine ⟨past, ?_, first⟩
    by_contra k
    have := wy.live k
    simp only [Booking.windowStart] at first
    omega
  rcases wx.ends with ex | ex
  · rcases wy.ends with ey | ey
    · exact absurd ⟨lt_of_le_of_lt wx.begun ey, lt_of_le_of_lt wy.begun ex⟩ apart
    · exact .inr (one hy hx wy wx (fun k => apart k.symm) ey)
  · exact .inl (one hx hy wx wy apart ex)

/-- The claims name a common key among their legs or among their destinations. -/
def Claim.SharesKey (a c : Claim) : Prop := (∃ k ∈ a.legs, k ∈ c.legs) ∨ ∃ k ∈ a.dests, k ∈ c.dests

/-- Two counted bookings that share a leg's key or a destination's have no second in common (R32). -/
theorem State.Apart.windows (h : s.Apart) (ne : b ≠ c) (hx : s.booking b = some x) (hy : s.booking c = some y)
    (cx : x.counted = true) (cy : y.counted = true)
    (shared : (x.claim x.allowance).SharesKey (y.claim y.allowance)) :
    ¬ (x.windowStart < y.finish + y.allowance ∧ y.windowStart < x.finish + x.allowance) := by
  rintro ⟨h1, h2⟩
  obtain ⟨legs, dests⟩ := h.labels b c _ _ ne ((countedClaim_of_booking hx).trans (if_pos cx))
    ((countedClaim_of_booking hy).trans (if_pos cy)) h1 h2
  rcases shared with ⟨k, kx, ky⟩ | ⟨k, kx, ky⟩
  · exact legs k kx ky
  · exact dests k kx ky

/-- What two carrying bookings share, the one hands over to the other. -/
theorem handsOver_of_shared (apart : s.Apart)
    (window : ∀ b r, s.booking b = some r → r.carrying = true → r.InWindow s.sec) (ne : b ≠ c)
    (hx : s.booking b = some x) (hy : s.booking c = some y) (cx : x.carrying = true) (cy : y.carrying = true)
    (shared : (x.claim x.allowance).SharesKey (y.claim y.allowance)) :
    OneHandsOver x y s.sec ∨ OneHandsOver y x s.sec :=
  handsOver_of_apart (apart.terms b x hx) (apart.terms c y hy) (window b x hx cx) (window c y hy cy)
    (apart.windows ne hx hy (counted_of_carrying cx) (counted_of_carrying cy) shared)

/-- A deferred leg's key is held by a leg of another booking, and the one of the two hands it to the other. -/
theorem deferred_shared (flows : s.FlowsMatch) (apart : s.Apart)
    (window : ∀ b r, s.booking b = some r → r.carrying = true → r.InWindow s.sec) {w : BookingIx × LegId}
    (hw : w ∈ s.deferred) : ∃ y g e x, s.booking w.1 = some y ∧ y.carrying = true ∧ y.leg w.2 = some g ∧
      s.flowOf g.port g.label = some e ∧ e.booking ≠ w.1 ∧ s.booking e.booking = some x ∧
      (OneHandsOver x y s.sec ∨ OneHandsOver y x s.sec) := by
  obtain ⟨y, g, hy, cy, hg, held⟩ := flows.deferred w hw
  obtain ⟨e, he⟩ := Option.ne_none_iff_exists'.1 held
  have key := List.find?_some he
  have stands := List.mem_of_find?_eq_some he
  simp only [decide_eq_true_eq] at key
  obtain ⟨x, g', hx, cx, hg', port, label⟩ := flows.entry e stands
  have port : g'.port = g.port := port.symm.trans key.1
  have label : g'.label = g.label := label.symm.trans key.2
  have other : e.booking ≠ w.1 := by
    intro same
    rw [same] at hx
    obtain rfl : x = y := Option.some_inj.1 (hx.symm.trans hy)
    have legs : e.leg = w.2 := leg_unique (apart.terms _ _ hy) hg' hg port
    exact (flows.leg w.1 x w.2 g hy cy hg).1 ⟨e, stands, same, legs⟩ hw
  refine ⟨y, g, e, x, hy, cy, hg, he, other, hx, handsOver_of_shared apart window other hx hy cx cy (.inl ?_)⟩
  refine ⟨(g.port, g.label), List.mem_map.2 ⟨g', mem_legs_of_leg hg', by rw [port, label]⟩,
    List.mem_map.2 ⟨g, mem_legs_of_leg hg, rfl⟩⟩

end Sys2Proof.Machine
end

section
/-! What keeps the law of labels: work that leaves the carrying bookings, the flow table and the second as they are, and work
that leaves the claims and the marks of pending extensions. -/

namespace Sys2Proof.Machine
open Sys2Proof.Config

variable {s t u : State} {b c : BookingIx} {r r' x y : Booking}

/-! ## The carrying bookings -/

/-- Record `b` where it carries. -/
def State.carried (s : State) (b : BookingIx) : Option Booking := (s.booking b).filter Booking.carrying

theorem carried_eq_some : s.carried b = some r ↔ s.booking b = some r ∧ r.carrying = true := Option.filter_eq_some_iff

theorem carriedKey_eq (s : State) (x : BookingIx × LegId) :
    s.carriedKey x = (s.carried x.1).bind fun r => r.keyOf x.2 := by
  unfold State.carriedKey State.carried
  cases s.booking x.1 with
  | none => rfl
  | some r => cases h : r.carrying <;> simp [Option.filter, h]

/-- A carrying record goes on: its state, its terms and its LIVE entry stand, and its allowance does not shrink. -/
structure Booking.Continues (r r' : Booking) : Prop where
  state : r'.state = r.state
  terms : r'.fixedTerms = r.fixedTerms
  liveFrom : r'.liveFrom = r.liveFrom
  allowance : r.allowance ≤ r'.allowance

theorem Booking.Continues.refl (r : Booking) : r.Continues r := ⟨rfl, rfl, rfl, le_rfl⟩

theorem Booking.Continues.trans (h : x.Continues y) (k : y.Continues r) : x.Continues r :=
  ⟨k.state.trans h.state, k.terms.trans h.terms, k.liveFrom.trans h.liveFrom, h.allowance.trans k.allowance⟩

theorem Booking.Continues.carrying (h : r.Continues r') : r'.carrying = r.carrying := by
  rw [Booking.carrying, Booking.carrying, h.state]

/-- A record that goes on stands in its window still. -/
theorem Booking.Continues.inWindow (h : r.Continues r') {sec : Nat} (k : r.InWindow sec) : r'.InWindow sec := by
  obtain ⟨state, terms, liveFrom, allowance⟩ := h
  obtain ⟨start, finish, -⟩ := start_of_terms terms
  refine ⟨by rw [windowStart_of_terms terms]; exact k.begun, fun e => by rw [finish]; exact k.armed (state ▸ e),
    fun e => by rw [start]; exact k.live (state ▸ e), ?_⟩
  rcases k.ends with e | ⟨live, zero, from_, at_⟩
  · exact .inl (by omega)
  · by_cases more : r'.allowance = 0
    · exact .inr ⟨state.trans live, more, by rw [liveFrom, from_, finish], by rw [finish]; exact at_⟩
    · exact .inl (by omega)

/-- The same records carry and go on. -/
def SameCarried (s t : State) : Prop := ∀ b, Option.Rel Booking.Continues (s.carried b) (t.carried b)

theorem SameCarried.refl (s : State) : SameCarried s s := fun b => by
  cases s.carried b with
  | none => exact .none
  | some r => exact .some (.refl r)

theorem SameCarried.trans (h : SameCarried s t) (k : SameCarried t u) : SameCarried s u := fun b => by
  have h := h b
  have k := k b
  revert h k
  cases s.carried b <;> cases t.carried b <;> cases u.carried b <;> intro h k <;> cases h <;> cases k
  · exact .none
  · next h k => exact .some (h.trans k)

/-- Each carrying record of `t` was one. -/
theorem SameCarried.back (h : SameCarried s t) (hb : t.booking b = some r') (carrying : r'.carrying = true) :
    ∃ r, s.booking b = some r ∧ r.carrying = true ∧ r.Continues r' := by
  have k := h b
  rw [carried_eq_some.2 ⟨hb, carrying⟩] at k
  cases hs : s.carried b with
  | none => rw [hs] at k; cases k
  | some r =>
    rw [hs] at k
    cases k with
    | some k => exact ⟨r, (carried_eq_some.1 hs).1, (carried_eq_some.1 hs).2, k⟩

theorem SameCarried.carriedKey (h : SameCarried s t) : t.carriedKey = s.carriedKey := by
  funext x
  rw [carriedKey_eq, carriedKey_eq]
  have k := h x.1
  revert k
  cases s.carried x.1 <;> cases t.carried x.1 <;> intro k <;> cases k
  · rfl
  · next k => exact keyOf_of_terms k.terms x.2

/-- One record seen alone: it did not carry and does not, or it goes on. -/
theorem rel_carried (h : (∀ r, s.booking b = some r → r.carrying = false) ∧ (∀ r, t.booking b = some r → r.carrying = false) ∨
    ∃ r r', s.booking b = some r ∧ t.booking b = some r' ∧ r.Continues r') :
    Option.Rel Booking.Continues (s.carried b) (t.carried b) := by
  rcases h with ⟨hs, ht⟩ | ⟨r, r', hs, ht, k⟩
  · have none_ : ∀ u : State, (∀ r, u.booking b = some r → r.carrying = false) → u.carried b = none := fun u h => by
      rw [State.carried, Option.filter_eq_none_iff]
      exact fun r hr => by simp [h r hr]
    rw [none_ s hs, none_ t ht]
    exact .none
  · unfold State.carried
    rw [hs, ht]
    cases e : r.carrying with
    | true => rw [Option.filter_some_pos e, Option.filter_some_pos (k.carrying.trans e)]; exact .some k
    | false =>
      rw [Option.filter_some_neg (by simp [e]), Option.filter_some_neg (by simp [k.carrying, e])]
      exact .none

theorem SameCarried.of_bookings (h : t.bookings = s.bookings) : SameCarried s t := fun b => by
  have same : t.carried b = s.carried b := by rw [State.carried, State.booking_congr h]; rfl
  rw [same]; exact SameCarried.refl s b

/-- One record written, that went on, or carried neither before nor after. -/
theorem sameCarried_record (others : ∀ c, c ≠ b → t.booking c = s.booking c)
    (here : (∀ r, s.booking b = some r → r.carrying = false) ∧ (∀ r, t.booking b = some r → r.carrying = false) ∨
      ∃ r r', s.booking b = some r ∧ t.booking b = some r' ∧ r.Continues r') : SameCarried s t := fun c => by
  by_cases e : c = b
  · rw [e]; exact rel_carried here
  · have same : t.carried c = s.carried c := by rw [State.carried, others c e]; rfl
    rw [same]; exact SameCarried.refl s c


/-! ## The flow table, the deferred legs and the second -/

/-- The carrying records go on, and the keys, their holders, the deferred legs and the second are the same. -/
structure SameCarriage (s t : State) : Prop where
  carried : SameCarried s t
  sec : t.sec = s.sec
  deferred : t.deferred = s.deferred
  places : s.FlowInv → t.places = s.places

theorem SameCarriage.refl (s : State) : SameCarriage s s := ⟨.refl s, rfl, rfl, fun _ => rfl⟩

theorem flowInv_iff : s.FlowInv ↔ (s.places.map Prod.fst).Nodup := by rw [places_keys]; rfl

theorem SameCarriage.trans (h : SameCarriage s t) (k : SameCarriage t u) : SameCarriage s u where
  carried := h.carried.trans k.carried
  sec := k.sec.trans h.sec
  deferred := k.deferred.trans h.deferred
  places i := (k.places (flowInv_iff.2 (by rw [h.places i]; exact flowInv_iff.1 i))).trans (h.places i)

theorem places_congr (h : t.flows = s.flows) : t.places = s.places := by rw [State.places, h]; rfl

theorem flowsMatch_kept (h : s.FlowsMatch) (keys : t.carriedKey = s.carriedKey) (deferred : t.deferred = s.deferred)
    (places : t.places = s.places) : t.FlowsMatch := by
  rw [flowsMatch_iff] at h ⊢
  rw [keys, deferred, places]
  exact h

theorem carriageAt_kept {n : Nat} (k : s.CarriageAt n) (carried : SameCarried s t) (deferred : t.deferred = s.deferred)
    (places : t.places = s.places) : t.CarriageAt n := by
  have flows := flowsMatch_kept k.flows carried.carriedKey deferred places
  refine ⟨flows, fun b r' hb carrying => ?_, fun x hx r' hb => ?_⟩
  · obtain ⟨r, hr, carrying, goes⟩ := carried.back hb carrying
    exact goes.inWindow (k.window b r hr carrying)
  · obtain ⟨r', -, hr', carrying, -⟩ := flows.deferred x hx
    rw [hb] at hr'
    cases hr'
    obtain ⟨r, hr, -, goes⟩ := carried.back hb carrying
    rw [deferred] at hx
    obtain ⟨armed, first⟩ := k.deferred x hx r hr
    exact ⟨goes.state.trans armed, by rw [windowStart_of_terms goes.terms, first]⟩

theorem SameCarriage.carriage (h : SameCarriage s t) (k : s.Carriage) : t.Carriage := by
  unfold State.Carriage
  rw [h.sec]
  exact carriageAt_kept k h.carried h.deferred (h.places k.flows.keys)

/-! ## Claims, marks and carriage together -/

/-- Whether an extension of record `b` is pending, or none when it is FREE. -/
def State.markOf (s : State) (b : BookingIx) : Option Bool := (s.booking b).map (·.extendPending)

theorem markOf_congr (h : t.booking b = s.booking b) : t.markOf b = s.markOf b := by rw [State.markOf, h]; rfl

/-- No record changes what it asks for or its mark of a pending extension, none begins to count, and the entries stand. -/
structure SameClaims (s t : State) : Prop where
  asks : ∀ b, t.asksOf b = s.asksOf b
  marks : ∀ b, t.markOf b = s.markOf b
  claims : NoNewClaim s t
  entries : t.entries = s.entries

theorem SameClaims.refl (s : State) : SameClaims s s := ⟨fun _ => rfl, fun _ => rfl, fun _ => .inr rfl, rfl⟩

theorem NoNewClaim.trans (h : NoNewClaim s t) (k : NoNewClaim t u) : NoNewClaim s u := fun b => by
  rcases k b with e | e
  · exact .inl e
  · rw [e]; exact h b

theorem SameClaims.trans (h : SameClaims s t) (k : SameClaims t u) : SameClaims s u :=
  ⟨fun b => (k.asks b).trans (h.asks b), fun b => (k.marks b).trans (h.marks b), h.claims.trans k.claims,
    k.entries.trans h.entries⟩

theorem Steady.sameClaims (h : Steady s t) (marks : ∀ b, t.markOf b = s.markOf b) : SameClaims s t :=
  ⟨h.asks, marks, h.noNewClaim, h.entries⟩

/-- Work that leaves the law of labels: the claims and the carriage stand. -/
structure Rests (s t : State) : Prop where
  claims : SameClaims s t
  carriage : SameCarriage s t

theorem Rests.refl (s : State) : Rests s s := ⟨.refl s, .refl s⟩

theorem Rests.trans (h : Rests s t) (k : Rests t u) : Rests s u := ⟨h.claims.trans k.claims, h.carriage.trans k.carriage⟩

theorem Rests.after (k : Rests t u) (h : Rests s t) : Rests s u := h.trans k

theorem Steady.rests (h : Steady s t) (marks : ∀ b, t.markOf b = s.markOf b) (carriage : SameCarriage s t) : Rests s t :=
  ⟨h.sameClaims marks, carriage⟩

/-- No claim is new, so the labels stay apart. -/
theorem labels_kept (h : s.Apart) (claims : NoNewClaim s t) {i j : BookingIx} {a c : Claim} (ne : i ≠ j)
    (hi : t.countedClaim i = some a) (hj : t.countedClaim j = some c) (h1 : a.lo < c.hi) (h2 : c.lo < a.hi) :
    (∀ k ∈ a.legs, k ∉ c.legs) ∧ ∀ k ∈ a.dests, k ∉ c.dests := by
  have old : ∀ {b x}, t.countedClaim b = some x → s.countedClaim b = some x := fun {b x} hb => by
    rcases claims b with e | e
    · rw [e] at hb; cases hb
    · rw [← e]; exact hb
  exact h.labels i j a c ne (old hi) (old hj) h1 h2

theorem record_of_asks (h : t.asksOf b = s.asksOf b) (hb : t.booking b = some r') :
    ∃ r, s.booking b = some r ∧ r'.asks = r.asks := by
  rw [asksOf_of_booking hb] at h
  obtain ⟨r, hr, e⟩ := Option.map_eq_some_iff.1 h.symm
  exact ⟨r, hr, e.symm⟩

theorem SameClaims.apart (h : SameClaims s t) (k : s.Apart) : t.Apart where
  terms b r' hb := by
    obtain ⟨r, hr, asks⟩ := record_of_asks (h.asks b) hb
    exact termsInRange_of_asks asks (k.terms b r hr)
  extend e he void total clamped kind := by
    rw [h.entries] at he
    obtain ⟨r, hr, mark, allowance, total7200, last⟩ := k.extend e he void total clamped kind
    obtain ⟨r', hr', asks⟩ := record_of_asks (h.asks e.booking).symm hr
    have marks := h.marks e.booking
    simp only [State.markOf, hr, hr', Option.map_some, Option.some_inj] at marks
    have finish := (start_of_terms (congrArg Prod.fst asks)).2.1
    have allow := allowance_of_asks asks
    exact ⟨r', hr', by rw [marks, mark], by omega, total7200, by omega⟩
  once := by rw [h.entries]; exact k.once
  labels _ _ _ _ := labels_kept k h.claims

/-! ## Operations that rest -/

theorem Later.markOf (h : Later s t) (b : BookingIx) : t.markOf b = s.markOf b := by
  have k := congrArg (Option.map (·.extendPending)) (h.bare b)
  simpa [State.markOf, Option.map_map, Function.comp_def, Booking.bare] using k

/-- The work of an event that settles no state but CLOSING. -/
theorem Later.sameCarried (h : Later s t) (k : Settles s t) : SameCarried s t := fun b => by
  have bare := h.bare b
  cases hs : s.booking b with
  | none =>
    rw [hs, Option.map_none, Option.map_eq_none_iff] at bare
    exact rel_carried (.inl ⟨by simp [hs], by simp [bare]⟩)
  | some r =>
    rw [hs] at bare
    obtain ⟨r', ht, bare⟩ := Option.map_eq_some_iff.1 bare
    have states := k.states b
    rw [stateOf_of_booking hs, stateOf_of_booking ht] at states
    simp only [Option.some_inj] at states
    rcases states with state | ⟨closing, closed⟩
    · have liveFrom : r'.bare.liveFrom = r.bare.liveFrom := by rw [bare]
      have allowance : r'.bare.allowance = r.bare.allowance := by rw [bare]
      exact rel_carried (.inr ⟨r, r', hs, ht, state, fixedTerms_of_bare bare, liveFrom, ge_of_eq allowance⟩)
    · refine rel_carried (.inl ⟨fun x hx => ?_, fun x hx => ?_⟩)
      · rw [hs] at hx; cases hx; simp [Booking.carrying, closing]
      · rw [ht] at hx; cases hx; simp [Booking.carrying, closed]

theorem Later.rests (h : Later s t) (k : Settles s t) (flows : s.FlowInv → t.places = s.places) : Rests s t :=
  (h.steady k).rests h.markOf ⟨h.sameCarried k, h.sec, h.deferred, flows⟩

theorem Work.rests {R : Reach} (h : Work R s t) : Rests s t :=
  h.later.rests h.quiet.settles fun _ => places_congr h.flows

theorem SameClaims.of_eq (bookings : t.bookings = s.bookings) (entries : t.entries = s.entries) : SameClaims s t where
  asks b := asksOf_congr (State.booking_congr bookings b)
  marks b := markOf_congr (State.booking_congr bookings b)
  claims b := .inr (countedClaim_congr (State.booking_congr bookings b))
  entries := entries

/-- Nothing of all this is written. -/
theorem Rests.of_eq (bookings : t.bookings = s.bookings) (entries : t.entries = s.entries) (flows : t.flows = s.flows)
    (deferred : t.deferred = s.deferred) (sec : t.sec = s.sec) : Rests s t where
  claims := .of_eq bookings entries
  carriage := ⟨.of_bookings bookings, sec, deferred, fun _ => places_congr flows⟩

/-- A record written that asks for what it did. -/
theorem rests_setBooking (hb : s.booking b = some r) (asks : r'.asks = r.asks) (mark : r'.extendPending = r.extendPending)
    (moves : r'.state = r.state ∧ r'.liveFrom = r.liveFrom ∨
      r.state ∉ [.pending, .armed, .live, .overrun] ∧ r'.carrying = false ∧
        mayBecome (some r.state) (some r'.state) = true) : Rests s (s.setBooking b (some r')) := by
  have here : (s.setBooking b (some r')).booking b = some r' := by simp
  have others : ∀ c, c ≠ b → (s.setBooking b (some r')).booking c = s.booking c := fun c e => by simp [e]
  have steady : Steady s (s.setBooking b (some r')) := by
    refine steady_setBooking hb asks (moves.imp And.left fun h => ⟨fun e => h.1 (by simp [e]), h.2.2⟩)
  refine steady.rests (fun c => ?_) ⟨sameCarried_record others ?_, rfl, rfl, fun _ => rfl⟩
  · by_cases e : c = b
    · subst e; rw [State.markOf, here, State.markOf, hb]; exact congrArg some mark
    · exact markOf_congr (others c e)
  · rcases moves with ⟨state, liveFrom⟩ | ⟨idle, idle', -⟩
    · exact .inr ⟨r, r', hb, here, state, congrArg Prod.fst asks, liveFrom, ge_of_eq (allowance_of_asks asks)⟩
    · refine .inl ⟨fun x hx => ?_, fun x hx => ?_⟩
      · rw [hb] at hx; cases hx
        rw [← Bool.not_eq_true, carrying_iff]
        exact fun k => idle (List.mem_cons_of_mem _ k)
      · rw [here] at hx; cases hx; exact idle'

theorem rests_advance (m : Moment) (s : State) : Rests s (s.advance m) := by
  refine .of_eq ?_ (advance_entries s m) ?_ ?_ ?_
  all_goals rw [advance_eq]; rfl

theorem rests_flush (m : Moment) (s : State) : Rests s (s.flush m) := by rw [flush_rest]; exact .of_eq rfl rfl rfl rfl rfl

theorem rests_takeEarly (m : Moment) (s : State) : Rests s (s.takeEarly m) := by
  rw [takeEarly_rest]; exact .of_eq rfl rfl rfl rfl rfl

theorem rests_respond (r : Req) (code : Nat) (res : Result) (body : List Byte) (s : State) :
    Rests s (s.respond r code res body) := by
  rw [(respond_answeredOnly r code res body s).rest]; exact .of_eq rfl rfl rfl rfl rfl

theorem rests_setPort (p : PortIx) (x : Port) (s : State) : Rests s (s.setPort p x) := .of_eq rfl rfl rfl rfl rfl

theorem rests_raise (k : FaultClass) (it : RaiseItems) (d : Option Detail) (s : State) : Rests s (s.raise k it d) :=
  .of_eq rfl rfl rfl rfl rfl

theorem rests_elapseTo (i : Nat) (s : State) : Rests s (s.elapseTo i) := .of_eq rfl rfl rfl rfl rfl

theorem rests_watch (m : Moment) (e : WatchEvent) (s : State) : Rests s (s.watch m e) :=
  (work_watch Reach.all_watches m e s).rests

theorem rests_updBooking {f : Booking → Booking} (asks : ∀ r, (f r).asks = r.asks)
    (mark : ∀ r, (f r).extendPending = r.extendPending) (state : ∀ r, (f r).state = r.state)
    (liveFrom : ∀ r, (f r).liveFrom = r.liveFrom) (b : BookingIx) (s : State) : Rests s (s.updBooking b f) := by
  unfold State.updBooking
  split
  · exact .refl s
  · next r hr => exact rests_setBooking hr (asks r) (mark r) (.inl ⟨state r, liveFrom r⟩)

end Sys2Proof.Machine
end

section
/-! The law of labels under the operations of frames, light, probes and requests, none of which arms, closes or admits. -/

namespace Sys2Proof.Machine
open Sys2Proof.Config

variable {s t u : State} {b c : BookingIx} {r r' x y : Booking}

/-! ## Probes and settlements -/

theorem rests_settleBooking (b : BookingIx) (s : State) : Rests s (s.settleBooking b) := by
  refine (later_settleBooking b s).rests (settles_settleBooking b s) fun _ => places_congr ?_
  rw [settleBooking_rest]

theorem concludeProbe_flows (m : Moment) (n : ProbeNo) (p : PortIx) (e : ProbeEnd) (s : State) :
    (s.concludeProbe m n p e).flows = s.flows := by
  unfold State.concludeProbe
  dsimp only
  rw [State.raise, settleAll_rest]
  rfl

theorem endFlight_flows (m : Moment) (f : Flight) (e : ProbeEnd) (s : State) : (s.endFlight m f e).flows = s.flows := by
  have passed := (leaveNext_passedOn f (s.concludeProbe m f.number f.port e)).rest
  have flows := congrArg State.flows passed
  exact Eq.trans flows (concludeProbe_flows ..)

theorem endProbeOf_flows (m : Moment) (p : PortIx) (o : ProbeOutcome) (s : State) :
    (s.endProbeOf m p o).flows = s.flows := by
  by_cases flying : ∃ f, s.flight = some f ∧ f.port = p
  · obtain ⟨f, hf, hp⟩ := flying
    rw [endProbeOf_flying hf hp]
    exact endFlight_flows ..
  · rw [endProbeOf_waits fun f hf hp => flying ⟨f, hf, hp⟩]
    split
    · exact concludeProbe_flows ..
    · rfl

theorem rests_endFlight (m : Moment) (f : Flight) (e : ProbeEnd) (s : State) : Rests s (s.endFlight m f e) :=
  (later_endFlight ..).rests (settles_endFlight ..) fun _ => places_congr (endFlight_flows ..)

theorem rests_endProbeOf (m : Moment) (p : PortIx) (o : ProbeOutcome) (s : State) : Rests s (s.endProbeOf m p o) :=
  (later_endProbeOf ..).rests (settles_endProbeOf ..) fun _ => places_congr (endProbeOf_flows ..)

theorem rests_abortAll (m : Moment) (s : State) : Rests s (s.abortAll m) :=
  (later_abortAll ..).rests (settles_abortAll ..) fun _ => places_congr (aborted_abortAll m s).flows

theorem rests_deliver (m : Moment) (f : Flight) (x : Measured) (s : State) : Rests s (s.deliver m f x) := by
  unfold State.deliver
  split
  · split
    · exact rests_endFlight ..
    · exact .of_eq rfl rfl rfl rfl rfl
  · split
    · split
      · exact .of_eq rfl rfl rfl rfl rfl
      · exact .refl s
    · exact .refl s
  · split <;> exact rests_endFlight ..
  · exact .refl s

/-! ## Light (R49 to R51) -/

theorem rests_loseLight (m : Moment) (p : PortIx) (s : State) : Rests s (s.loseLight m p) := by
  dsimp only [State.loseLight]
  have dark := (rests_setPort p { s.port p with link := .down, upWhole := false } s).trans (rests_raise .los (.ofPort p) none _)
  have probed := fun t : State => (work_autoProbe (R := .all) p t).rests
  have left : ∀ (x : Bool) (t : State), Rests t (if x = true then t.leaveUp m p else t) := fun x t => by
    split
    · exact (work_leaveUp m p t).rests
    · exact .refl t
  have captured := fun t : State => (work_recapturePort m p t).rests
  cases m.autoFirst
  · exact ((dark.trans (left ..)).trans (captured _)).trans (probed _)
  · exact ((dark.trans (probed _)).trans (left ..)).trans (captured _)

theorem rests_enterLof (m : Moment) (p : PortIx) (s : State) : Rests s (s.enterLof m p) := by
  have lof : Rests s (s.setLink p .lof) := .of_eq rfl rfl rfl rfl rfl
  exact ((lof.trans (rests_raise .lof (.ofPort p) none _)).trans (work_leaveUp m p _).rests).trans
    (work_recapturePort m p _).rests

/-! ## Frames -/

theorem rests_malformed (m : Moment) (p : PortIx) (bytes : List Byte) (s : State) : Rests s (s.malformed m p bytes) := by
  dsimp only [State.malformed]
  refine (rests_watch ..).after ?_
  split
  · exact (rests_setPort ..).trans (rests_enterLof ..)
  · exact rests_setPort ..

/-- An entry rewritten with the leg it stands for. -/
theorem setFlow_places {e e' : FlowEntry} (inv : s.FlowInv) (he : e ∈ s.flows) (key : (e'.port, e'.label) = (e.port, e.label))
    (place : (e'.booking, e'.leg) = (e.booking, e.leg)) : (s.setFlow e').places = s.places := by
  have port : e'.port = e.port := congrArg Prod.fst key
  have label : e'.label = e.label := congrArg Prod.snd key
  rw [State.places, State.setFlow, List.map_map]
  refine List.map_congr_left fun x hx => ?_
  simp only [Function.comp_apply, port, label]
  split
  · next same =>
    obtain rfl : x = e := List.inj_on_of_nodup_map inv hx he (Prod.ext same.1 same.2)
    rw [key, place]
  · rfl

theorem refill_police_kept (e : FlowEntry) (now bits : Nat) : let e' := ((e.refill now).police bits).2
    (e'.port, e'.label) = (e.port, e.label) ∧ (e'.booking, e'.leg) = (e.booking, e.leg) := by
  unfold FlowEntry.police
  dsimp only
  split <;> exact ⟨rfl, rfl⟩

theorem rests_mediaFrame (m : Moment) (p : PortIx) (f : Frame) (bits : Option FrameBits) (s : State) :
    Rests s (s.mediaFrame m p f bits) := by
  refine (later_mediaFrame ..).rests (quiet_mediaFrame ..).settles fun inv => ?_
  dsimp only [State.mediaFrame]
  split
  · exact places_congr (work_watch Reach.all_watches m _ s).flows
  · next e he =>
    obtain ⟨key, place⟩ := refill_police_kept e s.clock (f.payload.length * 8)
    have written := setFlow_places inv (List.mem_of_find?_eq_some he) key place
    split
    · exact (places_congr (work_mergeFrame m ..).flows).trans written
    · exact (places_congr (work_policerDrop m ..).flows).trans written

theorem rests_identAtFlow (m : Moment) (p : PortIx) (f : Frame) (bits : Option FrameBits) (s : State) :
    Rests s (s.identAtFlow m p f bits) := by
  unfold State.identAtFlow
  split
  · exact rests_watch ..
  · exact (work_identFrame m _ _ (Reach.all_has _ _)).rests

/-! ## Requests that admit nothing -/

theorem rests_markRestart (s : State) : Rests s s.markRestart := by
  have record : ∀ b r, s.booking b = some r → ∃ r', s.markRestart.booking b = some r' ∧ r.Continues r' ∧
      r'.asks = r.asks ∧ r'.extendPending = r.extendPending := fun b r hb => by
    have marked := (markRestart_booking b s).trans (congrArg _ hb)
    rw [Option.map_some] at marked
    refine ⟨_, marked, ?_⟩
    split
    · exact ⟨⟨rfl, rfl, rfl, le_rfl⟩, rfl, rfl⟩
    · exact ⟨.refl r, rfl, rfl⟩
  refine (steady_markRestart s).rests (fun b => ?_) ⟨fun b => ?_, rfl, rfl, fun _ => rfl⟩ <;> cases hb : s.booking b
  · rw [State.markOf, State.markOf, markRestart_booking, hb]; rfl
  · next r =>
    obtain ⟨r', hr', -, -, mark⟩ := record b r hb
    rw [State.markOf, State.markOf, hr', hb]
    exact congrArg some mark
  · exact rel_carried (.inl ⟨by simp [hb], by simp [markRestart_booking, hb]⟩)
  · next r =>
    obtain ⟨r', hr', goes, -⟩ := record b r hb
    exact rel_carried (.inr ⟨r, r', hb, hr', goes⟩)

theorem rests_switchOff (m : Moment) (p : PortIx) (s : State) : Rests s (s.switchOff m p) :=
  (work_emptyMedia m p s).rests.trans (rests_endProbeOf ..)

theorem rests_writePort (m : Moment) (p : PortIx) (a : PortSetArgs) (s : State) : Rests s (s.writePort m p a) := by
  unfold State.writePort
  dsimp only
  split
  · exact (rests_setPort ..).trans (rests_switchOff ..)
  · exact rests_setPort ..

theorem applyMode_rests (r : Booking) (mode : ProtectionMode) : (r.applyMode mode).asks = r.asks ∧
    (r.applyMode mode).extendPending = r.extendPending ∧ (r.applyMode mode).liveFrom = r.liveFrom := by
  have kept : (r.applyMode mode).allowance = r.allowance ∧ (r.applyMode mode).extendPending = r.extendPending ∧
      (r.applyMode mode).liveFrom = r.liveFrom := by
    unfold Booking.applyMode; split <;> exact ⟨rfl, rfl, rfl⟩
  exact ⟨Prod.ext (applyMode_kept r mode).1 kept.1, kept.2⟩

theorem rests_changeMode (m : Moment) (hb : s.booking b = some r) (mode : ProtectionMode) :
    Rests s (s.changeMode m b r mode) := by
  obtain ⟨asks, mark, liveFrom⟩ := applyMode_rests r mode
  exact (work_judged ..).rests.after (rests_setBooking hb asks mark (.inl ⟨(applyMode_kept r mode).2, liveFrom⟩))

theorem rests_probeRequest (p : PortIx) (s : State) : Rests s (s.probeRequest p).1 := by
  rw [probeRequest_rest]; exact .of_eq rfl rfl rfl rfl rfl

/-- A waiting bill moved up closes a CLOSING record alone (R155). -/
theorem rests_promoteBill (h : s.BillsMatch) : Rests s s.promoteBill := by
  unfold State.promoteBill
  split
  · exact .refl s
  · next x rest waiting =>
    obtain ⟨r, hr, closing⟩ := h.closing x (by rw [waiting]; exact List.mem_cons_self ..)
    have popped : Rests s { s with bills := s.bills ++ [x], billWaiting := rest } := .of_eq rfl rfl rfl rfl rfl
    refine popped.trans ?_
    unfold State.closeBooking State.updBooking
    have found : State.booking { s with bills := s.bills ++ [x], billWaiting := rest } x.booking = some r := hr
    rw [found]
    exact rests_setBooking (r' := { r with state := .closed }) found rfl rfl
      (.inr (by rw [closing]; exact ⟨by simp, rfl, rfl⟩))

end Sys2Proof.Machine
end

section
/-! The law of labels where admission is concerned (R10, R19, R21, R32, R35, R36): a record filled or freed, an entry handed
over, a scan completed; and where no booking carries. -/

namespace Sys2Proof.Machine
open Sys2Proof.Config

variable {s t u : State} {b c : BookingIx} {r r' x y : Booking} {e : AdmissionEntry} {sc : Scan}

/-- The law of labels without the law of capacity, which is kept by itself. -/
structure State.Labelled (s : State) : Prop where
  apart : s.Apart
  carriage : s.Carriage

theorem Rests.labelled (h : Rests s t) (k : s.Labelled) : t.Labelled := ⟨h.claims.apart k.apart, h.carriage.carriage k.carriage⟩

/-! ## Nothing carries -/

/-- Where no booking carries, the windows and the deferred legs ask for nothing. -/
theorem carriage_idle (flows : s.FlowsMatch) (idle : ∀ b r, s.booking b = some r → r.carrying = false) : s.Carriage := by
  refine ⟨flows, fun b r hb carrying => ?_, fun x hx => ?_⟩
  · rw [idle b r hb] at carrying; cases carrying
  · obtain ⟨r, -, hb, carrying, -⟩ := flows.deferred x hx
    rw [idle x.1 r hb] at carrying; cases carrying

theorem flowsMatch_empty (idle : ∀ b r, s.booking b = some r → r.carrying = false) (flows : s.flows = [])
    (deferred : s.deferred = []) : s.FlowsMatch where
  keys := by rw [State.FlowInv, flows]; exact List.nodup_nil
  entry e he := by rw [flows] at he; cases he
  leg b r l lg hb carrying := by rw [idle b r hb] at carrying; cases carrying
  deferred x hx := by rw [deferred] at hx; cases hx
  once := by rw [deferred]; exact List.nodup_nil

/-- TIME SET is refused while a booking carries (R8). -/
theorem labelled_actTimeSet (a : TimeSetArgs) (k : s.Labelled) : (actTimeSet a s).state.Labelled := by
  unfold actTimeSet
  cases h : checkTimeSet a s with
  | some res => exact k
  | none =>
    show (s.loadTime a).Labelled
    have rest : Rests s { s with timeSet := true, idleClose := clamp 5 300 a.idleClose } := .of_eq rfl rfl rfl rfl rfl
    have kept := rest.labelled k
    rw [checkTimeSet, firstFailing_none] at h
    have free := h (s.anyBooking Booking.barsTimeSet, .inUse) (by simp)
    have idle : ∀ b r, s.booking b = some r → r.carrying = false := fun b r hb => by
      by_contra carrying
      rw [Bool.not_eq_false, carrying_iff] at carrying
      rw [← Bool.not_eq_true, anyBooking_iff] at free
      refine free ⟨b, r, hb, ?_⟩
      revert carrying
      cases hs : r.state <;> simp [Booking.barsTimeSet, hs]
    obtain ⟨keys, entry, leg, deferred, once⟩ := k.carriage.flows
    obtain ⟨terms, extend, once', labels⟩ := k.apart
    exact ⟨⟨terms, extend, once', labels⟩, carriage_idle ⟨keys, entry, leg, deferred, once⟩ idle⟩

/-! ## A record filled, an entry handed over (R10, R21, R26) -/

theorem handEntry_entries (e : AdmissionEntry) (s : State) : (s.handEntry e).entries.Perm (e :: s.entries) := by
  cases hs : s.scan with
  | none =>
    obtain ⟨sc, begin_, begun⟩ := beginScan_begun e s
    have handed : s.handEntry e = { s with scan := some sc } := by rw [State.handEntry, hs]; exact begin_
    rw [handed]
    simp [State.entries, hs, begun.entry]
  | some sc =>
    obtain ⟨scan, waiting⟩ := handEntry_busy (s := s) (by simp [hs]) e
    simp only [State.entries, scan, waiting, ← List.append_assoc]
    exact List.perm_append_singleton ..

/-- An entry that is not void is the one EXTEND of its record, and lengthens it (R21). -/
def State.MayExtend (s : State) (e : AdmissionEntry) : Prop := e.void = false → ∀ total clamped,
  e.kind = .extend total clamped →
    (∃ r, s.booking e.booking = some r ∧ r.extendPending = true ∧ r.allowance ≤ total ∧ total ≤ 7200 ∧
      r.finish + total ≤ 4294967295) ∧
    ∀ x ∈ s.entries, x.kind ≠ .book → x.void = false → x.booking ≠ e.booking

theorem apart_handEntry (k : s.Apart) (new : s.MayExtend e) : (s.handEntry e).Apart := by
  have table : ∀ b, (s.handEntry e).booking b = s.booking b := fun b => handEntry_booking e b s
  have perm := handEntry_entries e s
  have claims : NoNewClaim s (s.handEntry e) := fun b => .inr (countedClaim_congr (table b))
  refine ⟨fun b r hb => k.terms b r ((table b).symm.trans hb), fun x hx void total clamped kind => ?_, ?_,
    fun _ _ _ _ => labels_kept k claims⟩
  · rw [table]
    rcases List.mem_cons.1 (perm.subset hx) with rfl | hx
    · exact (new void total clamped kind).1
    · exact k.extend x hx void total clamped kind
  · refine ((perm.filter _).map _).nodup_iff.2 ?_
    by_cases counts : e.kind ≠ .book ∧ e.void = false
    · rw [List.filter_cons_of_pos (by simpa using counts), List.map_cons, List.nodup_cons]
      refine ⟨fun named => ?_, k.once⟩
      obtain ⟨x, hx, same⟩ := List.mem_map.1 named
      obtain ⟨hx, kind⟩ := List.mem_filter.1 hx
      obtain ⟨kind, void⟩ := of_decide_eq_true kind
      cases he : e.kind with
      | book => exact counts.1 he
      | extend total clamped => exact (new counts.2 total clamped he).2 x hx kind void same
    · rw [List.filter_cons_of_neg (by simpa using counts)]
      exact k.once

theorem sameCarriage_handEntry (e : AdmissionEntry) (s : State) : SameCarriage s (s.handEntry e) := by
  refine ⟨fun b => ?_, ?_, ?_, fun _ => ?_⟩
  · have same : (s.handEntry e).carried b = s.carried b := by rw [State.carried, handEntry_booking]; rfl
    rw [same]; exact SameCarried.refl s b
  all_goals rw [handEntry_rest]
  rfl

/-- A BOOK fills a FREE record with terms in range (R10). -/
theorem labelled_fill (k : s.Labelled) (free : s.booking b = none) (pending : r.state = .pending)
    (terms : r.TermsInRange) : (s.setBooking b (some r)).Labelled := by
  have here : (s.setBooking b (some r)).booking b = some r := by simp
  have others : ∀ i, i ≠ b → (s.setBooking b (some r)).booking i = s.booking i := fun i ne => by simp [ne]
  have claims : NoNewClaim s (s.setBooking b (some r)) := fun i => by
    by_cases ne : i = b
    · subst ne
      rw [countedClaim_of_booking here]
      exact .inl (by simp [Booking.counted, pending])
    · exact .inr (countedClaim_congr (others i ne))
  have carried : SameCarried s (s.setBooking b (some r)) := by
    refine sameCarried_record others (.inl ⟨by simp [free], fun y hy => ?_⟩)
    rw [here] at hy; cases hy
    simp [Booking.carrying, pending]
  have same : SameCarriage s (s.setBooking b (some r)) := ⟨carried, rfl, rfl, fun _ => rfl⟩
  refine ⟨⟨fun c y hc => ?_, fun e he void total clamped kind => ?_, k.apart.once,
    fun _ _ _ _ => labels_kept k.apart claims⟩, same.carriage k.carriage⟩
  · by_cases e : c = b
    · subst e; rw [here] at hc; cases hc; exact terms
    · exact k.apart.terms c y ((others c e).symm.trans hc)
  · obtain ⟨y, hy, laws⟩ := k.apart.extend e he void total clamped kind
    have other : e.booking ≠ b := by rintro rfl; rw [free] at hy; cases hy
    exact ⟨y, (others _ other).trans hy, laws⟩

theorem toBooking_inRange {a : BookArgs} (h : BookInRange a s) : (BookArgs.toBooking a).TermsInRange := by
  refine ⟨h.duration.1, ⟨h.armLead.1, h.window.1⟩, h.allowance, h.window.2, ?_⟩
  have once : (a.legs.map (·.port)).Nodup := (List.nodup_append.1 h.ports).1
  have ports : (a.legs.map LegArgs.toLeg).map (·.port) = (a.legs.map (·.port)).map portIx := by
    simp [LegArgs.toLeg, Function.comp_def]
  rw [toBooking_legs h.legCount, ports]
  refine once.map_on fun p hp q hq same => ?_
  have small : ∀ p ∈ a.legs.map (·.port), p ≤ 15 := fun p hp => by
    obtain ⟨l, hl, rfl⟩ := List.mem_map.1 hp
    exact (h.leg l hl).1
  have sp := small p hp
  have sq := small q hq
  have val := congrArg Fin.val same
  simp only [portIx, Fin.val_ofNat] at val
  omega

/-- A request refused changes nothing. -/
theorem labelled_checked {c : Option Result} {a : Answer} (k : s.Labelled) (h : c = none → a.state.Labelled) :
    (checked c s a).state.Labelled := by
  cases c with
  | none => exact h rfl
  | some res => exact k

theorem labelled_actBook (a : BookArgs) (k : s.Labelled) : (actBook a s).state.Labelled := by
  refine labelled_checked k fun h => ?_
  rw [checkBook, firstFailing_none] at h
  have free := firstFree_of_room (h (s.bookings.toList.all Option.isSome, .noRoom) (by simp))
  have range := (bookInRange_iff a s).1 (h _ (List.mem_cons_self ..))
  have filled := labelled_fill k free rfl (toBooking_inRange range)
  exact ⟨apart_handEntry filled.apart nofun, (sameCarriage_handEntry _ _).carriage filled.carriage⟩

/-- EXTEND marks a record on which no extension is pending, and hands over its one entry (R21). -/
theorem labelled_extendBooking (k : s.Labelled) (hb : s.booking b = some r) (free : r.extendPending = false)
    (a : ExtendArgs) (last : r.finish + min 7200 (r.allowance + a.seconds) ≤ 4294967295) :
    (s.extendBooking b r a).state.Labelled := by
  let y := { r with extendPending := true }
  let v := s.setBooking b (some y)
  have here : v.booking b = some y := by simp [v]
  have others : ∀ i, i ≠ b → v.booking i = s.booking i := fun i ne => by simp [v, ne]
  have steady : Steady s v := steady_setBooking (r' := y) hb rfl (.inl rfl)
  have same : SameCarriage s v :=
    ⟨sameCarried_record others (.inr ⟨r, y, hb, here, rfl, rfl, rfl, le_rfl⟩), rfl, rfl, fun _ => rfl⟩
  have fresh : ∀ x ∈ s.entries, x.kind ≠ .book → x.void = false → x.booking ≠ b := fun x hx kind void named => by
    cases hk : x.kind with
    | book => exact kind hk
    | extend total clamped =>
      obtain ⟨z, hz, pending, -⟩ := k.apart.extend x hx void total clamped hk
      rw [named, hb] at hz
      cases hz
      rw [free] at pending
      cases pending
  have marked : v.Apart := by
    refine ⟨fun c z hc => ?_, fun x hx void total clamped kind => ?_, k.apart.once,
      fun _ _ _ _ => labels_kept k.apart steady.noNewClaim⟩
    · obtain ⟨z', hz, asks⟩ := record_of_asks (steady.asks c) hc
      exact termsInRange_of_asks asks (k.apart.terms c z' hz)
    · have other := fresh x hx (by simp [kind]) void
      rw [others _ other]
      exact k.apart.extend x hx void total clamped kind
  refine ⟨apart_handEntry marked fun _ total clamped kind => ?_, (same.trans (sameCarriage_handEntry _ _)).carriage k.carriage⟩
  have small := (k.apart.terms b r hb).allowance
  cases kind
  refine ⟨⟨y, here, rfl, ?_, Nat.min_le_left .., last⟩, fresh⟩
  exact Nat.le_min.2 ⟨small, Nat.le_add_right ..⟩

theorem labelled_actExtend (a : ExtendArgs) (k : s.Labelled) : (actExtend a s).state.Labelled := by
  refine labelled_checked k fun h => ?_
  rw [checkExtend, firstFailing_none] at h
  have range := h _ (List.mem_cons_self ..)
  have accepted := h (!s.recordIs a.index Booking.acceptsExtend, .state) (by simp)
  split
  · next r hr =>
    simp only [State.recordIs, hr, Option.any_some, Bool.not_eq_false', Bool.and_eq_true] at accepted
    obtain ⟨index, accepts⟩ := accepted
    have open_ := (acceptsExtend_iff r).1 accepts
    have last := (Bool.or_eq_false_iff.1 range).2
    simp only [State.recordIs, hr, index, Option.any_some, Bool.true_and, decide_eq_false_iff_not, Nat.not_lt] at last
    exact labelled_extendBooking k hr open_.2.2 a last
  · exact k

/-! ## A record freed (R1, R36) -/

theorem filter_map_sublist {α : Type} {f : α → α} {p : α → Bool} (h : ∀ x, p (f x) = true → f x = x) (l : List α) :
    ((l.map f).filter p).Sublist (l.filter p) := by
  induction l with
  | nil => exact List.Sublist.refl _
  | cons x l ih =>
    rw [List.map_cons]
    cases hp : p (f x) with
    | true =>
      have same := h x hp
      rw [same] at hp ⊢
      rw [List.filter_cons_of_pos hp, List.filter_cons_of_pos hp]
      exact ih.cons_cons x
    | false =>
      rw [List.filter_cons_of_neg (by simp [hp])]
      exact ih.trans ((List.sublist_cons_self x l).filter p)

/-- A record freed that does not carry: the EXTEND entries that name it are void. -/
theorem labelled_freeBooking (k : s.Labelled) (idle : ∀ r, s.booking b = some r → r.carrying = false) :
    (s.freeBooking b).Labelled := by
  have here : (s.freeBooking b).booking b = none := by rw [freeBooking_booking, if_pos rfl]
  have others : ∀ i, i ≠ b → (s.freeBooking b).booking i = s.booking i := fun i ne => by
    rw [freeBooking_booking, if_neg ne]
  have claims : NoNewClaim s (s.freeBooking b) := fun i => by
    by_cases ne : i = b
    · exact .inl (countedClaim_of_free (by rw [ne, here]))
    · exact .inr (countedClaim_congr (others i ne))
  have same : SameCarriage s (s.freeBooking b) :=
    ⟨sameCarried_record others (.inl ⟨idle, by simp [here]⟩), rfl, rfl, fun _ => rfl⟩
  refine ⟨⟨fun c r hc => ?_, fun x hx void total clamped kind => ?_, ?_, fun _ _ _ _ => labels_kept k.apart claims⟩,
    same.carriage k.carriage⟩
  · by_cases e : c = b
    · rw [e, here] at hc; cases hc
    · exact k.apart.terms c r ((others c e).symm.trans hc)
  · rw [freeBooking_entries] at hx
    obtain ⟨e, he, rfl⟩ := List.mem_map.1 hx
    obtain ⟨stays, other⟩ := voidFor_valid void
    rw [stays] at void kind ⊢
    rw [others _ (other (by simp [kind]))]
    exact k.apart.extend e he void total clamped kind
  · rw [freeBooking_entries]
    refine k.apart.once.sublist ((filter_map_sublist (fun x hx => ?_) _).map _)
    exact (voidFor_valid (of_decide_eq_true hx).2).1

/-! ## A scan completed (R32, R33, R35) -/

/-- A candidate that passes the label check shares no label with an overlapping claim among those seen. -/
theorem labelVerdict_none {cand : Claim} {seen : List Claim} (h : labelVerdict cand seen = none) {c : Claim}
    (hc : c ∈ seen) (overlap : max cand.lo c.lo < min cand.hi c.hi) : ¬ cand.SharesKey c := by
  unfold labelVerdict at h
  dsimp only at h
  have other : c ∈ seen.filter fun c => cand.overlaps c := List.mem_filter.2 ⟨hc, decide_eq_true overlap⟩
  split at h
  · cases h
  · next legs =>
    rw [Option.map_eq_none_iff, List.find?_eq_none] at h
    rw [List.find?_eq_none] at legs
    rintro (⟨k, ka, kc⟩ | ⟨k, ka, kc⟩)
    · exact legs k ka (List.any_eq_true.2 ⟨c, other, decide_eq_true kc⟩)
    · exact h k ka (List.any_eq_true.2 ⟨c, other, decide_eq_true kc⟩)

theorem verdict_none {sc : Scan} {bookable : PortIx → Nat} (h : sc.verdict bookable = none) :
    labelVerdict sc.candidate sc.seen = none := by
  unfold Scan.verdict at h
  split at h
  · cases h
  · exact h

/-- The settled record asks for what it did, but for an allowance that grows within its range; it goes on where it carries,
and does not carry where it did not. -/
theorem settledRecord_terms (e : AdmissionEntry) (x : Booking) (v : Option Verdict) (terms : x.TermsInRange)
    (extend : ∀ total clamped, e.kind = .extend total clamped →
      x.allowance ≤ total ∧ total ≤ 7200 ∧ x.finish + total ≤ 4294967295) :
    (e.settledRecord x v).TermsInRange ∧ (e.kind ≠ .book → x.Continues (e.settledRecord x v)) := by
  unfold AdmissionEntry.settledRecord
  cases he : e.kind with
  | book =>
    refine ⟨termsInRange_of_asks (r := x) ?_ terms, fun h => absurd rfl h⟩
    dsimp only [Booking.afterBook]
    split
    · rfl
    · cases v <;> rfl
  | extend total clamped =>
    obtain ⟨grows, small, last⟩ := extend total clamped he
    obtain ⟨duration, lead, -, -, ports⟩ := id terms
    dsimp only [Booking.afterExtend]
    split
    · cases v with
      | none => exact ⟨⟨duration, lead, small, last, ports⟩, fun _ => ⟨rfl, rfl, rfl, grows⟩⟩
      | some why =>
        cases why <;> exact ⟨termsInRange_of_asks (r := x) rfl terms, fun _ => ⟨rfl, rfl, rfl, le_rfl⟩⟩
    · exact ⟨termsInRange_of_asks (r := x) rfl terms, fun _ => ⟨rfl, rfl, rfl, le_rfl⟩⟩

theorem settledRecord_book (h : e.kind = .book) (x : Booking) (v : Option Verdict) :
    (e.settledRecord x v).carrying = false := by
  unfold AdmissionEntry.settledRecord Booking.afterBook
  rw [h]
  dsimp only
  split
  · rfl
  · cases v <;> rfl

section Completion

variable {v : Option Verdict}

/-- The label check has compared the candidate with every other counted claim. -/
theorem ScanSettled.labels (h : ScanSettled s t sc v) (k : s.Apart) (terms : ∀ b r, t.booking b = some r → r.TermsInRange)
    (scans : s.Scans sc) (verdict : v = (sc.visitTo s.bookings 256).verdict fun p => (s.port p).bookable)
    {i j : BookingIx} {a c : Claim} (ne : i ≠ j) (hi : t.countedClaim i = some a) (hj : t.countedClaim j = some c)
    (h1 : a.lo < c.hi) (h2 : c.lo < a.hi) : (∀ k ∈ a.legs, k ∉ c.legs) ∧ ∀ k ∈ a.dests, k ∉ c.dests := by
  rcases h.claim scans with claims | ⟨fits, candidate⟩
  · exact labels_kept k claims ne hi hj h1 h2
  · have others : ∀ b, b ≠ sc.entry.booking → t.countedClaim b = s.countedClaim b := fun b ne =>
      countedClaim_congr (h.others b ne)
    have window : ∀ b z, t.countedClaim b = some z → z.lo < z.hi := fun b z hz => by
      obtain ⟨r, hr, claim⟩ := Option.bind_eq_some_iff.1 hz
      have inRange := (terms b r hr).duration
      split at claim
      · cases claim
        simp only [Booking.claim, Booking.windowStart]
        omega
      · cases claim
    have seen : ∀ b, b ≠ sc.entry.booking → ∀ z, t.countedClaim b = some z → z ∈ (sc.visitTo s.bookings 256).seen :=
      fun b ne z hz => by
        have visited := (scans.visitTo 256).seen
        have all : (sc.visitTo s.bookings 256).visited = max sc.visited 256 := rfl
        rw [all, visitedClaims_all s _ (Nat.le_max_right ..)] at visited
        rw [others b ne] at hz
        exact visited.subset (List.mem_filterMap.2 ⟨b, List.mem_filter.2 ⟨List.mem_finRange b, decide_eq_true ne⟩, hz⟩)
    have apart : ∀ b, b ≠ sc.entry.booking → ∀ z, t.countedClaim b = some z → sc.candidate.lo < z.hi →
        z.lo < sc.candidate.hi → ¬ sc.candidate.SharesKey z := fun b ne z hz k1 k2 => by
      have mine := window _ _ candidate
      have theirs := window b z hz
      have overlap : max sc.candidate.lo z.lo < min sc.candidate.hi z.hi := by omega
      exact labelVerdict_none (verdict_none (verdict.symm.trans fits)) (seen b ne z hz) overlap
    by_cases ei : i = sc.entry.booking
    · rw [ei, candidate, Option.some_inj] at hi
      subst hi
      have free := apart j (fun e => ne (ei.trans e.symm)) c hj h1 h2
      exact ⟨fun k ka kc => free (.inl ⟨k, ka, kc⟩), fun k ka kc => free (.inr ⟨k, ka, kc⟩)⟩
    · by_cases ej : j = sc.entry.booking
      · rw [ej, candidate, Option.some_inj] at hj
        subst hj
        have free := apart i ei a hi h2 h1
        exact ⟨fun k ka kc => free (.inl ⟨k, kc, ka⟩), fun k ka kc => free (.inr ⟨k, kc, ka⟩)⟩
      · exact k.labels i j a c ne ((others i ei).symm.trans hi) ((others j ej).symm.trans hj) h1 h2

/-- Of the entries behind it, none that is not void extends the record it settles (R21, R25). -/
theorem booking_ne_of_waiting (k : s.Apart) (admits : s.Admits) (hsc : s.scan = some sc) (valid : sc.entry.void = false)
    (he : e ∈ s.waiting) (void : e.void = false) (kind : e.kind ≠ .book) : e.booking ≠ sc.entry.booking := by
  have entries : s.entries = sc.entry :: s.waiting := by simp [State.entries, hsc]
  intro same
  by_cases hk : sc.entry.kind = .book
  · have pending := (admits.serves.book sc.entry (by simp [entries]) hk).2
    exact (admits.serves.extend e (by simp [entries, he]) kind void).2 (by rw [same]; exact pending)
  · have once := k.once
    rw [entries, List.filter_cons_of_pos (by simp [hk, valid]), List.map_cons, List.nodup_cons] at once
    exact once.1 (List.mem_map.2 ⟨e, List.mem_filter.2 ⟨he, by simp [kind, void]⟩, same⟩)

theorem labelled_completeScan (k : s.Labelled) (admits : s.Admits) (hsc : s.scan = some sc) :
    (s.completeScan sc).Labelled := by
  have h := completeScan_settled sc s
  have entries : s.entries = sc.entry :: s.waiting := by simp [State.entries, hsc]
  generalize hv : (sc.visitTo s.bookings 256).verdict (fun p => (s.port p).bookable) = v at h
  generalize s.completeScan sc = t at h
  have record : sc.entry.void = false → ∃ x, s.booking sc.entry.booking = some x ∧
      t.booking sc.entry.booking = some (sc.entry.settledRecord x v) ∧ x.TermsInRange ∧
      (∀ total clamped, sc.entry.kind = .extend total clamped →
        x.allowance ≤ total ∧ total ≤ 7200 ∧ x.finish + total ≤ 4294967295) ∧
      (sc.entry.kind = .book → x.state = .pending) := fun void => by
    obtain ⟨x, hx⟩ := booking_of_taken (admits.serves.taken (by simp [entries]) void)
    refine ⟨x, hx, h.record x void hx, k.apart.terms _ x hx, fun total clamped kind => ?_, fun kind => ?_⟩
    · obtain ⟨y, hy, -, laws⟩ := k.apart.extend sc.entry (by simp [entries]) void total clamped kind
      rw [hx] at hy; cases hy
      exact laws
    · have pending := (admits.serves.book sc.entry (by simp [entries]) kind).2
      rwa [stateOf_of_booking hx, Option.some_inj] at pending
  have terms : ∀ b r, t.booking b = some r → r.TermsInRange := fun b r hb => by
    by_cases ne : b = sc.entry.booking
    · subst ne
      cases void : sc.entry.void with
      | true => exact k.apart.terms _ r ((State.booking_congr (h.void void) _).symm.trans hb)
      | false =>
        obtain ⟨x, -, hx, inRange, extend, -⟩ := record void
        rw [hx] at hb; cases hb
        exact (settledRecord_terms sc.entry x v inRange extend).1
    · exact k.apart.terms b r ((h.others b ne).symm.trans hb)
  have carried : SameCarried s t := by
    cases void : sc.entry.void with
    | true => exact .of_bookings (h.void void)
    | false =>
      obtain ⟨x, hx, ht, inRange, extend, book⟩ := record void
      refine sameCarried_record h.others ?_
      by_cases kind : sc.entry.kind = .book
      · have pending := book kind
        refine .inl ⟨fun y hy => ?_, fun y hy => ?_⟩
        · rw [hx] at hy; cases hy; simp [Booking.carrying, pending]
        · rw [ht] at hy; cases hy; exact settledRecord_book kind x v
      · exact .inr ⟨x, _, hx, ht, (settledRecord_terms sc.entry x v inRange extend).2 kind⟩
  have left : t.entries.Sublist s.waiting := by rw [h.entries]; exact List.dropWhile_sublist _
  have same : SameCarriage s t := by
    refine ⟨carried, ?_, ?_, fun _ => places_congr ?_⟩ <;> rw [h.rest]
  refine ⟨⟨terms, fun e he void total clamped kind => ?_, ?_,
    fun _ _ _ _ => h.labels k.apart terms (admits.scans sc hsc) hv.symm⟩, same.carriage k.carriage⟩
  · have waits := left.subset he
    have old := k.apart.extend e (by simp [entries, waits]) void total clamped kind
    cases valid : sc.entry.void with
    | true => rw [State.booking_congr (h.void valid)]; exact old
    | false =>
      have other := booking_ne_of_waiting k.apart admits hsc valid waits void (by simp [kind])
      rw [h.others _ other]; exact old
  · have once := k.apart.once
    rw [entries] at once
    exact once.sublist (((left.trans (List.sublist_cons_self ..)).filter _).map _)

end Completion

end Sys2Proof.Machine
end

section
/-! The law of labels at a boundary (R12 to R17, R24, R60 to R62): what a transition makes of its record, of the flow table
and of the deferred legs, and why whoever carries in the new second stands in a window. -/

namespace Sys2Proof.Machine
open Sys2Proof.Config

variable {s t u v : State} {b c : BookingIx} {r r' x y : Booking} {m : Moment} {n : Nat}

/-! ## One record -/

/-- What a transition leaves of a record's state and of the second it went LIVE in. -/
def Transition.Leaves (x : Transition) (r r' : Booking) (now : Nat) : Prop :=
  match x with
  | .stay => r' = r
  | .expire => r'.state = .expired
  | .arm => r'.state = .armed
  | .goLive => r'.state = .live ∧ r'.liveFrom = some now
  | .overrun => r'.state = .overrun
  | .close _ => r'.carrying = false

/-- The record behind a transition: what it asks for and its mark stand. -/
structure LeftAs (x : Transition) (r r' : Booking) (now : Nat) : Prop where
  asks : r'.asks = r.asks
  mark : r'.extendPending = r.extendPending
  leaves : x.Leaves r r' now

/-- A closed record, and what its settlement leaves of it. -/
theorem closeRecord_record (cut : CutReason) (r : Booking) (b : BookingIx) (s : State) :
    ∃ r', (s.closeRecord b r cut).booking b = some r' ∧ r'.asks = r.asks ∧ r'.extendPending = r.extendPending ∧
      r'.carrying = false := by
  let v := (s.removeFlows b).setBooking b (some (r.atClosing cut s.sec))
  have here : v.booking b = some (r.atClosing cut s.sec) := by simp [v]
  have bare := (later_settleBooking b v).bare b
  have states := (settles_settleBooking b v).states b
  rw [here] at bare
  obtain ⟨r', hr', bare⟩ := Option.map_eq_some_iff.1 bare
  rw [stateOf_of_booking here, stateOf_of_booking hr'] at states
  have mark : r'.bare.extendPending = (r.atClosing cut s.sec).bare.extendPending := by rw [bare]
  have asks : r'.asks = (r.atClosing cut s.sec).asks := by rw [← asks_bare, bare, asks_bare]
  refine ⟨r', hr', asks.trans (Prod.ext (atClosing_fixedTerms ..) rfl), mark, ?_⟩
  have closing : (r.atClosing cut s.sec).state = .closing := rfl
  simp only [closing, Option.some_inj] at states
  rcases states with e | ⟨-, e⟩ <;> simp [Booking.carrying, e]

theorem applyTransition_record (m : Moment) (hb : s.booking b = some r) (x : Transition) :
    ∃ r', (s.applyTransition m b r x).booking b = some r' ∧ LeftAs x r r' s.sec := by
  have written : ∀ r', (s.setBooking b (some r')).booking b = some r' := fun r' => by simp
  cases x with
  | stay => exact ⟨r, hb, rfl, rfl, rfl⟩
  | expire => exact ⟨_, written _, rfl, rfl, rfl⟩
  | arm =>
    exact ⟨_, (installLegs_booking ..).trans (written _), Prod.ext (armLegs_fixedTerms r s.clock s.identTimeout) rfl, rfl,
      rfl⟩
  | goLive =>
    have work := work_judged m b [] (s.setBooking b (some (r.atLive s.sec)))
    have bare := work.later.bare b
    have state := work.stateOf b
    rw [written] at bare
    obtain ⟨r', hr', bare⟩ := Option.map_eq_some_iff.1 bare
    rw [stateOf_of_booking (written _), stateOf_of_booking hr', Option.some_inj] at state
    have mark : r'.bare.extendPending = (r.atLive s.sec).bare.extendPending := by rw [bare]
    have liveFrom : r'.bare.liveFrom = (r.atLive s.sec).bare.liveFrom := by rw [bare]
    have asks : r'.asks = (r.atLive s.sec).asks := by rw [← asks_bare, bare, asks_bare]
    exact ⟨r', hr', asks.trans (Prod.ext (atLive_fixedTerms ..) rfl), mark, state, liveFrom⟩
  | overrun => exact ⟨_, written _, rfl, rfl, rfl⟩
  | close cut =>
    dsimp only [State.applyTransition]
    obtain ⟨r', hr', asks, mark, idle⟩ := closeRecord_record cut r b
      (if cut = .allowanceEnd then s.raise .overrunExhausted (.ofBooking b) none else s)
    exact ⟨r', hr', asks, mark, idle⟩

/-- Each record of the table takes its one transition. -/
theorem schedule_record (m : Moment) (hb : s.booking b = some r) : ∃ r', (s.schedule m).booking b = some r' ∧
    LeftAs (r.transition s.sec s.idleClose s.restart) r r' s.sec := by
  obtain ⟨v, w, before, kept, rfl, behind, -⟩ := schedule_around m b s
  have found := before.booking.trans hb
  have taken : v.scheduleOne m b = v.applyTransition m b r (r.transition s.sec s.idleClose s.restart) := by
    simp only [State.scheduleOne, found, kept.calm.sec, kept.calm.idleClose, kept.calm.restart]
  obtain ⟨r', hr', left⟩ := applyTransition_record m found (r.transition s.sec s.idleClose s.restart)
  rw [kept.calm.sec] at left
  exact ⟨r', by rw [behind.booking, taken, hr'], left⟩

theorem schedule_free (m : Moment) (hb : s.booking b = none) : (s.schedule m).booking b = none := by
  obtain ⟨v, w, before, -, rfl, behind, -⟩ := schedule_around m b s
  have found := before.booking.trans hb
  rw [behind.booking, State.scheduleOne, found]
  exact found

theorem sameClaims_schedule (m : Moment) (s : State) : SameClaims s (s.schedule m) := by
  refine (steady_schedule m s).sameClaims fun b => ?_
  cases hb : s.booking b with
  | none => rw [State.markOf, State.markOf, schedule_free m hb, hb]
  | some r =>
    obtain ⟨r', hr', left⟩ := schedule_record m hb
    rw [State.markOf, State.markOf, hr', hb]
    exact congrArg some left.mark

/-! ## The flow table (R60, R61) -/

theorem carriedKey_congr {x : BookingIx × LegId} (h : t.booking x.1 = s.booking x.1) : t.carriedKey x = s.carriedKey x := by
  rw [State.carriedKey, h]; rfl

/-- A record that carries before and after, in whatever state. -/
theorem carriedKey_record (others : ∀ c, c ≠ b → t.booking c = s.booking c) (hb : s.booking b = some r)
    (hb' : t.booking b = some r') (terms : r'.fixedTerms = r.fixedTerms) (carrying : r'.carrying = r.carrying) :
    t.carriedKey = s.carriedKey := by
  funext x
  by_cases e : x.1 = b
  · unfold State.carriedKey
    rw [e, hb, hb', Option.bind_some, Option.bind_some, carrying, keyOf_of_terms terms]
  · exact carriedKey_congr (others _ e)

theorem flowsMatch_closeRecord (h : s.FlowsMatch) (cut : CutReason) (r : Booking) (b : BookingIx) :
    (s.closeRecord b r cut).FlowsMatch := by
  let v := (s.removeFlows b).setBooking b (some (r.atClosing cut s.sec))
  obtain ⟨r', hr', -, -, idle⟩ := closeRecord_record cut r b s
  have rest := settleBooking_rest b v
  have keys : (s.closeRecord b r cut).carriedKey = fun x => if x.1 = b then none else s.carriedKey x := by
    funext x
    split
    · next e =>
      refine carriedKey_of_idle fun z hz => ?_
      rw [e, hr'] at hz
      cases hz
      exact idle
    · next e =>
      refine carriedKey_congr ?_
      rw [State.closeRecord, settleBooking_other e, State.setBooking_booking, if_neg e, removeFlows_booking]
  have flows : (s.closeRecord b r cut).flows = (s.removeFlows b).flows := by
    show (v.settleBooking b).flows = _
    rw [rest]; rfl
  have deferred : (s.closeRecord b r cut).deferred = (s.removeFlows b).deferred := by
    show (v.settleBooking b).deferred = _
    rw [rest]; rfl
  rw [flowsMatch_iff, keys, places_congr flows, deferred]
  exact matched_removeFlows h b

theorem flowsMatch_applyTransition (h : s.FlowsMatch) (m : Moment) (hb : s.booking b = some r) (x : Transition)
    (from_ : x.from r.state) : (s.applyTransition m b r x).FlowsMatch := by
  obtain ⟨r', hr', asks, -, leaves⟩ := applyTransition_record m hb x
  have others : ∀ c, c ≠ b → (s.applyTransition m b r x).booking c = s.booking c := fun c e =>
    applyTransition_other m e r x s
  have terms : r'.fixedTerms = r.fixedTerms := congrArg Prod.fst asks
  have goes : r'.carrying = r.carrying → (s.applyTransition m b r x).deferred = s.deferred →
      (s.applyTransition m b r x).flows = s.flows → (s.applyTransition m b r x).FlowsMatch := fun carrying deferred flows =>
    flowsMatch_kept h (carriedKey_record others hb hr' terms carrying) deferred (places_congr flows)
  cases x with
  | stay => exact h
  | expire =>
    have was : r.state = .confirmed := from_
    have is_ : r'.state = .expired := leaves
    exact goes (by simp [Booking.carrying, was, is_]) rfl rfl
  | arm =>
    have was : r.state = .confirmed := from_
    let z := { r.armLegs s.clock s.identTimeout with state := .armed }
    refine matched_installLegs (K := s.carriedKey) (s := s.setBooking b (some z)) (r := z) (flowsMatch_iff.1 h) (fun x e => ?_)
      (fun x e => carriedKey_congr (by simp [e])) (by simp) rfl
    refine carriedKey_of_idle fun y hy => ?_
    rw [e, hb] at hy
    cases hy
    simp [Booking.carrying, was]
  | goLive =>
    have was : r.state = .armed := from_
    have is_ : r'.state = .live := leaves.1
    have work := work_judged m b [] (s.setBooking b (some (r.atLive s.sec)))
    exact goes (by simp [Booking.carrying, was, is_]) work.later.deferred work.flows
  | overrun =>
    have was : r.state = .live := from_
    have is_ : r'.state = .overrun := leaves
    exact goes (by simp [Booking.carrying, was, is_]) rfl rfl
  | close cut =>
    dsimp only [State.applyTransition]
    refine flowsMatch_closeRecord ?_ cut r b
    split
    · exact flowsMatch_kept h rfl rfl rfl
    · exact h

theorem flowsMatch_schedule (h : s.FlowsMatch) (m : Moment) : (s.schedule m).FlowsMatch := by
  unfold State.schedule
  generalize bookingOrder m = order
  induction order generalizing s with
  | nil => exact h
  | cons b order ih =>
    refine ih (s := s.scheduleOne m b) ?_
    unfold State.scheduleOne
    split
    · exact h
    · next r hr => exact flowsMatch_applyTransition h m hr _ (transition_from ..)

/-! ## Who waits behind the scheduler -/

theorem applyTransition_deferred (m : Moment) (hb : s.booking b = some r) (x : Transition) (from_ : x.from r.state) :
    ∀ w ∈ (s.applyTransition m b r x).deferred, w ∈ s.deferred ∨ w.1 = b ∧ s.carries b = false := by
  intro w hw
  cases x with
  | arm =>
    have was : r.state = .confirmed := from_
    refine (installLegs_deferred b _ w hw).imp id fun e => ⟨e, ?_⟩
    simp [State.carries, hb, Booking.carrying, was]
  | goLive =>
    have same := (work_judged m b [] (s.setBooking b (some (r.atLive s.sec)))).later.deferred
    exact .inl (same ▸ hw : w ∈ (s.setBooking b (some (r.atLive s.sec))).deferred)
  | close cut =>
    have same : (s.applyTransition m b r (.close cut)).deferred = (State.removeFlows b
        (if cut = .allowanceEnd then s.raise .overrunExhausted (.ofBooking b) none else s)).deferred := by
      dsimp only [State.applyTransition, State.closeRecord]
      rw [settleBooking_rest]; rfl
    rw [same] at hw
    have left := removeFlows_deferred b _ w hw
    split at left <;> exact .inl left
  | _ => exact .inl hw

theorem schedule_deferred (m : Moment) (s : State) :
    ∀ w ∈ (s.schedule m).deferred, w ∈ s.deferred ∨ s.carries w.1 = false := by
  have fold : ∀ (order : List BookingIx) (s : State), order.Nodup →
      ∀ w ∈ (order.foldl (fun s b => s.scheduleOne m b) s).deferred,
        w ∈ s.deferred ∨ w.1 ∈ order ∧ s.carries w.1 = false := by
    intro order
    induction order with
    | nil => exact fun s _ w hw => .inl hw
    | cons b order ih =>
      intro s nodup w hw
      obtain ⟨fresh, nodup⟩ := List.nodup_cons.1 nodup
      have head : ∀ w ∈ (s.scheduleOne m b).deferred, w ∈ s.deferred ∨ w.1 = b ∧ s.carries b = false := by
        unfold State.scheduleOne
        split
        · exact fun w hw => .inl hw
        · next r hr => exact applyTransition_deferred m hr _ (transition_from ..)
      rcases ih (s.scheduleOne m b) nodup w hw with hw | ⟨later, idle⟩
      · exact (head w hw).imp id fun ⟨e, idle⟩ => ⟨by simp [e], e ▸ idle⟩
      · have other : w.1 ≠ b := fun e => fresh (e ▸ later)
        rw [State.carries, scheduleOne_other m other] at idle
        exact .inr ⟨List.mem_cons_of_mem _ later, idle⟩
  exact fun w hw => (fold (bookingOrder m) s (nodup_bookingOrder m) w hw).imp id And.right

/-! ## The windows (R12 to R15, R60) -/

theorem transition_arm {now idle : Nat} {restart : Bool} (h : r.transition now idle restart = .arm) :
    r.state = .confirmed ∧ r.windowStart ≤ now ∧ now < r.finish := by
  have was : r.state = .confirmed := by
    have from_ := transition_from r now idle restart
    rwa [h] at from_
  simp only [Booking.transition, was, Booking.confirmedStep] at h
  split_ifs at h with h1 h2 h3
  exact ⟨was, h3, Nat.lt_of_not_le h2⟩

theorem transition_goLive {now idle : Nat} {restart : Bool} (h : r.transition now idle restart = .goLive) :
    r.state = .armed ∧ r.start ≤ now := by
  have was : r.state = .armed := by
    have from_ := transition_from r now idle restart
    rwa [h] at from_
  simp only [Booking.transition, was, Booking.armedStep] at h
  split_ifs at h with h1 h2 h3
  exact ⟨was, h3⟩

theorem transition_overrun {now idle : Nat} {restart : Bool} (h : r.transition now idle restart = .overrun) :
    r.state = .live ∧ r.finish ≤ now ∧ now < r.finish + r.allowance := by
  have was : r.state = .live := by
    have from_ := transition_from r now idle restart
    rwa [h] at from_
  simp only [Booking.transition, was, Booking.liveStep] at h
  split_ifs at h with h1 h2 h3 h4
  exact ⟨was, Nat.le_of_not_lt h2, Nat.lt_of_not_le fun k => h4 (.inr k)⟩

/-- A carrying record that stays has not reached its start in ARMED, its end in LIVE, the end of its allowance in
OVERRUN. -/
theorem transition_stays {now idle : Nat} {restart : Bool} (h : r.transition now idle restart = .stay)
    (carrying : r.carrying = true) : r.state = .armed ∧ now < r.start ∨ r.state = .live ∧ now < r.finish ∨
      r.state = .overrun ∧ now < r.finish + r.allowance := by
  have states := carrying_iff.1 carrying
  simp only [List.mem_cons, List.not_mem_nil, or_false] at states
  rcases states with was | was | was <;> rw [Booking.transition, was] at h
  · simp only [Booking.armedStep] at h
    split_ifs at h with h1 h2 h3
    exact .inl ⟨was, Nat.lt_of_not_le h3⟩
  · simp only [Booking.liveStep] at h
    split_ifs at h with h1 h2 h3
    exact .inr (.inl ⟨was, h2⟩)
  · refine .inr (.inr ⟨was, Nat.lt_of_not_le fun late => ?_⟩)
    simp only [Booking.overrunStep, if_pos late] at h
    split_ifs at h

/-- Whoever carries behind its transition stands in its window, or in its after-window second. -/
theorem inWindow_of_leaves {idle : Nat} {restart : Bool} (terms : r.TermsInRange)
    (window : r.carrying = true → r.InWindow n)
    (left : LeftAs (r.transition (n + 1) idle restart) r r' (n + 1)) (carrying : r'.carrying = true) :
    r'.InWindow (n + 1) := by
  obtain ⟨asks, -, leaves⟩ := left
  have fixed : r'.fixedTerms = r.fixedTerms := congrArg Prod.fst asks
  obtain ⟨start, finish, -⟩ := start_of_terms fixed
  have first := windowStart_of_terms fixed
  have allowance := allowance_of_asks asks
  have duration := terms.duration
  have early : r.windowStart ≤ r.start := Nat.sub_le ..
  cases hx : r.transition (n + 1) idle restart with
  | stay =>
    rw [hx] at leaves
    obtain rfl : r' = r := leaves
    have old := window carrying
    have begun := old.begun
    have lived := old.live
    rcases transition_stays hx carrying with ⟨was, before⟩ | ⟨was, before⟩ | ⟨was, before⟩
    · exact ⟨by omega, fun _ => by omega, fun k => absurd was k, .inl (by omega)⟩
    · have := lived (by simp [was])
      exact ⟨by omega, fun k => by simp [was] at k, fun _ => by omega, .inl (by omega)⟩
    · have := lived (by simp [was])
      exact ⟨by omega, fun k => by simp [was] at k, fun _ => by omega, .inl (by omega)⟩
  | expire =>
    rw [hx] at leaves
    have is_ : r'.state = .expired := leaves
    simp [Booking.carrying, is_] at carrying
  | arm =>
    rw [hx] at leaves
    have is_ : r'.state = .armed := leaves
    obtain ⟨-, begun, before⟩ := transition_arm hx
    exact ⟨by omega, fun _ => by omega, fun k => absurd is_ k, .inl (by omega)⟩
  | goLive =>
    rw [hx] at leaves
    have is_ : r'.state = .live := leaves.1
    obtain ⟨was, begun⟩ := transition_goLive hx
    have old := (window (by simp [Booking.carrying, was])).armed was
    refine ⟨by omega, fun k => by simp [is_] at k, fun _ => by omega, ?_⟩
    by_cases before : n + 1 < r'.finish + r'.allowance
    · exact .inl before
    · have last : n + 1 = r'.finish := by omega
      exact .inr ⟨is_, by omega, by rw [leaves.2, last], last⟩
  | overrun =>
    rw [hx] at leaves
    have is_ : r'.state = .overrun := leaves
    obtain ⟨-, begun, before⟩ := transition_overrun hx
    exact ⟨by omega, fun k => by simp [is_] at k, fun _ => by omega, .inl (by omega)⟩
  | close cut =>
    rw [hx] at leaves
    have idle : r'.carrying = false := leaves
    rw [idle] at carrying
    cases carrying

/-- The only transition that makes a record carry is its arming. -/
theorem armed_of_leaves {now idle : Nat} {restart : Bool} (left : LeftAs (r.transition now idle restart) r r' now)
    (before : r.carrying = false) (carrying : r'.carrying = true) : r'.state = .armed := by
  have leaves := left.leaves
  have states : r.state ∉ [.armed, .live, .overrun] := fun k => by rw [carrying_iff.2 k] at before; cases before
  cases hx : r.transition now idle restart <;> rw [hx] at leaves
  · obtain rfl : r' = r := leaves
    rw [before] at carrying; cases carrying
  · have is_ : r'.state = .expired := leaves
    simp [Booking.carrying, is_] at carrying
  · exact leaves
  · exact absurd (by simp [(transition_goLive hx).1]) states
  · exact absurd (by simp [(transition_overrun hx).1]) states
  · have idle : r'.carrying = false := leaves
    rw [idle] at carrying; cases carrying

/-! ## The scheduler in the new second -/

/-- The carriage of the second that ended, taken into the new one: a leg that waits behind the scheduler has just armed, for
one that waited before is not in its after-window second, and its holder's window is over. -/
theorem carriage_schedule (apart : s.Apart) (k : s.CarriageAt n) (sec : s.sec = n + 1) (m : Moment) :
    (s.schedule m).Carriage := by
  have claims := (sameClaims_schedule m s).apart apart
  have flows := flowsMatch_schedule k.flows m
  have second : (s.schedule m).sec = n + 1 := (calm_schedule m s).sec.trans sec
  have before : ∀ b r', (s.schedule m).booking b = some r' → ∃ r, s.booking b = some r ∧
      LeftAs (r.transition (n + 1) s.idleClose s.restart) r r' (n + 1) := fun b r' hb => by
    cases hs : s.booking b with
    | none => rw [schedule_free m hs] at hb; cases hb
    | some r =>
      obtain ⟨z, hz, left⟩ := schedule_record m hs
      rw [hb] at hz
      cases hz
      exact ⟨r, rfl, sec ▸ left⟩
  have window : ∀ b r', (s.schedule m).booking b = some r' → r'.carrying = true → r'.InWindow (s.schedule m).sec :=
    fun b r' hb carrying => by
      obtain ⟨r, hr, left⟩ := before b r' hb
      rw [second]
      exact inWindow_of_leaves (apart.terms b r hr) (k.window b r hr) left carrying
  refine ⟨flows, window, fun w hw y hy => ?_⟩
  obtain ⟨y', g, e, x, hy', carrying, -, -, -, -, hands⟩ := deferred_shared flows claims window hw
  rw [hy] at hy'
  cases hy'
  rcases hands with ⟨-, armed, first⟩ | ⟨⟨live, -, -, last⟩, -⟩
  · exact ⟨armed, first⟩
  · obtain ⟨r, hr, left⟩ := before w.1 y hy
    rcases schedule_deferred m s w hw with old | idle
    · have first := (k.deferred w old r hr).2
      have terms := apart.terms _ r hr
      have duration := terms.duration
      have lead := terms.lead
      have finish := (start_of_terms (congrArg Prod.fst left.asks)).2.1
      rw [second] at last
      simp only [Booking.windowStart] at first
      omega
    · rw [State.carries, hr] at idle
      rw [armed_of_leaves left idle carrying] at live
      cases live

end Sys2Proof.Machine
end

section
/-! Every command keeps the law of labels, but a boundary in the last second before the count wraps (R62). -/

namespace Sys2Proof.Machine
open Sys2Proof.Config

variable {s t u : State} {b c : BookingIx} {r x y : Booking} {m : Moment}

/-! ## The boundary -/

/-- The completion of a restart leaves CLOSED records alone, an empty queue and an empty flow table (R24). -/
theorem labelled_finishRestart (k : s.Labelled) : s.finishRestart.Labelled := by
  have record : ∀ b r, s.finishRestart.booking b = some r → r.state = .closed ∧
      ∃ z, s.booking b = some z ∧ r.asks = z.asks := fun b r hb => by
    rw [finishRestart_booking] at hb
    obtain ⟨z, hz, after_⟩ := Option.bind_eq_some_iff.1 hb
    by_cases closed : z.state = .closed
    · rw [afterRestart_closed closed, Option.some_inj] at after_
      subst after_
      split
      · exact ⟨closed, z, hz, rfl⟩
      · exact ⟨closed, z, hz, rfl⟩
    · rw [afterRestart_none closed] at after_; cases after_
  have idle : ∀ b r, s.finishRestart.booking b = some r → r.carrying = false := fun b r hb => by
    simp [Booking.carrying, (record b r hb).1]
  have claims : NoNewClaim s s.finishRestart := fun b => by
    cases hb : s.finishRestart.booking b with
    | none => exact .inl (countedClaim_of_free hb)
    | some r =>
      rw [countedClaim_of_booking hb]
      exact .inl (by simp [Booking.counted, (record b r hb).1])
  refine ⟨⟨fun b r hb => ?_, nofun, List.nodup_nil, fun _ _ _ _ => labels_kept k.apart claims⟩,
    carriage_idle (flowsMatch_empty idle rfl rfl) idle⟩
  obtain ⟨-, z, hz, asks⟩ := record b r hb
  exact termsInRange_of_asks asks (k.apart.terms b z hz)

theorem labelled_tryFinishRestart (k : s.Labelled) (m : Moment) : (s.tryFinishRestart m).Labelled := by
  unfold State.tryFinishRestart
  split
  · exact labelled_finishRestart ((rests_flush m s).labelled k)
  · exact k

theorem secondEnded_parts (m : Moment) (s : State) : SameClaims s (s.secondEnded m) ∧ SameCarried s (s.secondEnded m) := by
  let v := (s.advance m).stepSecond.portsBoundary
  have stepped : SameClaims s v ∧ SameCarried s v := by
    have bookings : v.bookings = s.bookings := State.advance_bookings s m
    exact ⟨.of_eq bookings (advance_entries s m), .of_bookings bookings⟩
  have settles := (quiet_classify s.sec v).settles
  have later := later_classify s.sec v
  exact ⟨stepped.1.trans ((steady_classify s.sec v).sameClaims later.markOf), stepped.2.trans (later.sameCarried settles)⟩

theorem labelled_secondBoundary (k : s.Labelled) (before : s.sec < 4294967295) (h : exec (.secondBoundary m) s = .next t) :
    t.Labelled := by
  obtain ⟨v, w, first, last, -, run⟩ := secondBoundary_parts m s
  rw [run] at h
  cases h
  have rest := secondEnded_rest m s
  obtain ⟨claims, carried⟩ := secondEnded_parts m s
  have watched : Rests (s.secondEnded m) v := first.rests
  have apart : v.Apart := (claims.trans watched.claims).apart k.apart
  have deferred : (s.secondEnded m).deferred = s.deferred := by rw [rest]
  have places : (s.secondEnded m).places = s.places := places_congr (by rw [rest])
  have ended := carriageAt_kept k.carriage carried deferred places
  have carriage := carriageAt_kept ended watched.carriage.carried watched.carriage.deferred
    (watched.carriage.places ended.flows.keys)
  have sec : v.sec = s.sec + 1 := by
    rw [watched.carriage.sec, rest]
    show s.nextSecond = _
    unfold State.nextSecond
    omega
  have scheduled : (v.schedule m).Labelled :=
    ⟨(sameClaims_schedule m v).apart apart, carriage_schedule apart carriage sec m⟩
  exact (rests_flush m w).labelled (last.rests.labelled (labelled_tryFinishRestart scheduled m))

/-! ## Requests -/

theorem labelled_takeRequest {α : Type} {act : α → State → Answer} (k : s.Labelled)
    (h : ∀ a, (act a s).state.Labelled) (r : Req) (code : Nat) (body : Body α) :
    (s.takeRequest r code body act).Labelled := by
  unfold State.takeRequest
  split
  · exact k
  · split
    · exact (rests_respond ..).labelled k
    · split
      · exact (rests_respond ..).labelled k
      · exact (rests_respond ..).labelled (h _)

theorem labelled_cancelBooking (k : s.Labelled) (hb : s.booking b = some r) : (s.cancelBooking b r).state.Labelled := by
  unfold State.cancelBooking
  split
  case h_1 => exact (rests_setBooking (r' := { r with cancelReq := true }) hb rfl rfl (.inl ⟨rfl, rfl⟩)).labelled k
  case h_2 hs =>
    split
    · refine ((rests_setBooking (r' := r.atLateCancel s.sec) hb rfl rfl (.inr ?_)).trans
        (rests_settleBooking ..)).labelled k
      rw [hs]; exact ⟨by simp, rfl, rfl⟩
    · refine labelled_freeBooking k fun z hz => ?_
      rw [hb] at hz
      cases hz
      simp [Booking.carrying, hs]
  case h_3 => exact (rests_setBooking (r' := r.requestClose .cancelledArmed) hb rfl rfl (.inl ⟨rfl, rfl⟩)).labelled k
  case h_4 => exact (rests_setBooking (r' := r.requestClose .closedEarly) hb rfl rfl (.inl ⟨rfl, rfl⟩)).labelled k
  all_goals exact k

theorem labelled_actCancel (n : Nat) (k : s.Labelled) : (actCancel n s).state.Labelled := by
  refine labelled_checked k fun _ => ?_
  split
  · next r hr => exact labelled_cancelBooking k hr
  · exact k

theorem labelled_actClose (n : Nat) (k : s.Labelled) : (actClose n s).state.Labelled :=
  labelled_checked k fun _ => (rests_updBooking (f := fun r => r.requestClose r.state.closeReason) (fun _ => rfl)
    (fun _ => rfl) (fun _ => rfl) (fun _ => rfl) _ s).labelled k

theorem labelled_actMode (m : Moment) (a : ModeArgs) (k : s.Labelled) : (actMode m a s).state.Labelled := by
  refine labelled_checked k fun _ => ?_
  split
  · next r hr => exact (rests_changeMode m hr _).labelled k
  · exact k

theorem labelled_actBookingRead (n : Nat) (k : s.Labelled) : (actBookingRead n s).state.Labelled := by
  refine labelled_checked k fun _ => ?_
  show State.Labelled (if _ then _ else _)
  split
  · next h =>
    obtain ⟨r, hr, frees⟩ := (Option.any_eq_true ..).1 h
    refine labelled_freeBooking k fun z hz => ?_
    rw [hr] at hz
    cases hz
    revert frees
    cases hs : r.state <;> simp [Booking.readFrees, Booking.carrying, hs]
  · exact k

/-- The head bill's booking is CLOSED, so it does not carry, and the waiting bill that moves up closes a CLOSING one. -/
theorem labelled_actBillRelease (n : Nat) (k : s.Labelled) (admits : s.Admits) (bills : s.BillsMatch) :
    (actBillRelease n s).state.Labelled := by
  refine labelled_checked k fun h => ?_
  rw [checkBillRelease, firstFailing_none] at h
  have range := h (decide (255 < n), .range) (by simp)
  have head := h (!(s.bills.head?.any fun x => decide (x.booking.val = n)), .state) (by simp)
  simp only [decide_eq_false_iff_not, Nat.not_lt] at range
  cases e : s.bills with
  | nil => simp [e] at head
  | cons x rest =>
    simp only [e, List.head?_cons, Option.any_some, Bool.not_eq_false', decide_eq_true_eq] at head
    have named : x.booking = bookingIx n := Fin.ext (by simp [head, bookingIx, Fin.ofNat]; omega)
    have closed := ((billsMatch_iff.1 bills).2.1 (bookingIx n)).1 (by simp [e, named])
    have popped : Rests s { s with bills := s.bills.tail } := .of_eq rfl rfl rfl rfl rfl
    have freed := (follows_freeHead e named).bills bills admits.bookPending
    refine (rests_promoteBill freed).labelled (labelled_freeBooking (popped.labelled k) fun r hr => ?_)
    obtain ⟨z, hz, state⟩ := stateOf_eq_some.1 closed
    have same : some r = some z := hr.symm.trans hz
    cases same
    simp [Booking.carrying, state]

theorem labelled_actRestart (m : Moment) (k : s.Labelled) : (actRestart m s).state.Labelled :=
  labelled_checked k fun _ => ((rests_markRestart s).trans (Rests.after (rests_abortAll m _) (.of_eq rfl rfl rfl rfl rfl))).labelled k

theorem labelled_takeCommand (c : Instr) (k : s.Labelled) (admits : s.Admits) (bills : s.BillsMatch) :
    (s.takeCommand c).Labelled := by
  have same : ∀ {t : State}, t.bookings = s.bookings → t.entries = s.entries → t.flows = s.flows →
      t.deferred = s.deferred → t.sec = s.sec → t.Labelled := fun e1 e2 e3 e4 e5 => (Rests.of_eq e1 e2 e3 e4 e5).labelled k
  have written : ∀ {c : Option Result} {a : Answer}, a.state.bookings = s.bookings → a.state.entries = s.entries →
      a.state.flows = s.flows → a.state.deferred = s.deferred → a.state.sec = s.sec → (checked c s a).state.Labelled :=
    fun e1 e2 e3 e4 e5 => labelled_checked k fun _ => same e1 e2 e3 e4 e5
  cases c with
  | unknownRequestCode r code =>
    dsimp only [State.takeCommand, reqUnknownRequestCode]
    split
    · exact k
    · exact labelled_takeRequest k (fun _ => k) ..
  | identify r b => exact labelled_takeRequest k (fun _ => same rfl rfl rfl rfl rfl) ..
  | restart r b => exact labelled_takeRequest k (fun _ => labelled_actRestart r.m k) ..
  | noticeSet r b => exact labelled_takeRequest k (fun _ => written rfl rfl rfl rfl rfl) ..
  | timeSet r b => exact labelled_takeRequest k (fun a => labelled_actTimeSet a k) ..
  | timeRead r b => exact labelled_takeRequest k (fun _ => k) ..
  | portSet r b =>
    exact labelled_takeRequest k (fun a => labelled_checked k fun _ => (rests_writePort r.m (portIx a.port) a s).labelled k) ..
  | portRead r b => exact labelled_takeRequest k (fun _ => written rfl rfl rfl rfl rfl) ..
  | book r b => exact labelled_takeRequest k (fun a => labelled_actBook a k) ..
  | cancel r b => exact labelled_takeRequest k (fun a => labelled_actCancel a k) ..
  | close r b => exact labelled_takeRequest k (fun a => labelled_actClose a k) ..
  | extend r b => exact labelled_takeRequest k (fun a => labelled_actExtend a k) ..
  | mode r b => exact labelled_takeRequest k (fun a => labelled_actMode r.m a k) ..
  | bookingRead r b => exact labelled_takeRequest k (fun a => labelled_actBookingRead a k) ..
  | patternSet r b => exact labelled_takeRequest k (fun _ => written rfl rfl rfl rfl rfl) ..
  | patternRead r b => exact labelled_takeRequest k (fun _ => written rfl rfl rfl rfl rfl) ..
  | tariffSet r b => exact labelled_takeRequest k (fun _ => written rfl rfl rfl rfl rfl) ..
  | tariffRead r b => exact labelled_takeRequest k (fun _ => written rfl rfl rfl rfl rfl) ..
  | probe r b =>
    exact labelled_takeRequest k (fun a => labelled_checked k fun _ => (rests_probeRequest (portIx a) s).labelled k) ..
  | probeRead r b => exact labelled_takeRequest k (fun _ => written rfl rfl rfl rfl rfl) ..
  | probeConfig r b => exact labelled_takeRequest k (fun _ => written rfl rfl rfl rfl rfl) ..
  | watchSet r b => exact labelled_takeRequest k (fun _ => written rfl rfl rfl rfl rfl) ..
  | watchRead r b => exact labelled_takeRequest k (fun _ => written rfl rfl rfl rfl rfl) ..
  | watchUnfreeze r b => exact labelled_takeRequest k (fun _ => written rfl rfl rfl rfl rfl) ..
  | faultRead r b => exact labelled_takeRequest k (fun _ => same rfl rfl rfl rfl rfl) ..
  | faultClear r b => exact labelled_takeRequest k (fun _ => written rfl rfl rfl rfl rfl) ..
  | faultMask r b => exact labelled_takeRequest k (fun _ => written rfl rfl rfl rfl rfl) ..
  | billRead r b => exact labelled_takeRequest k (fun _ => k) ..
  | billRelease r b => exact labelled_takeRequest k (fun a => labelled_actBillRelease a k admits bills) ..
  | powerOn _ => exact k
  | secondBoundary _ => exact k
  | lightLost _ _ => exact k
  | lightReturns _ _ => exact k
  | frameReceived _ _ _ => exact k
  | slotStart _ _ => exact k
  | transmitterPasses _ => exact k
  | silenceTimerExpiry _ _ _ => exact k
  | identTimeoutExpiry _ _ _ => exact k
  | phaseTimerExpiry _ => exact k
  | traceDelivered _ _ => exact k
  | admissionCompletion _ => exact k

/-! ## Frames and the other events -/

theorem labelled_receive (m : Moment) (p : PortIx) (bytes : List Byte) (k : s.Labelled) (admits : s.Admits)
    (bills : s.BillsMatch) : (s.receive m p bytes).Labelled := by
  unfold State.receive
  split
  · split
    · exact (rests_malformed ..).labelled k
    · next f _ =>
      dsimp only [State.goodFrame]
      let e := frameEvent .rxFrames p none (headerBits bytes) 1
      have counted := (rests_setPort p (s.port p).goodFrame s).trans (rests_watch m e _)
      have steady := (steady_setPort (goodFrame_bookable (s.port p))).trans (steady_watch m e _)
      have quiet := (quiet_setPort p (s.port p).goodFrame s).trans (quiet_watch m e _)
      have k := counted.labelled k
      have admits := steady.admits admits
      have bills := quiet.settles.bills bills
      generalize State.watch m _ _ = t at k admits bills
      unfold State.deliverFrame
      split
      · exact k
      · unfold State.controlFrameIn
        split
        · exact k
        · split
          · exact k
          · exact labelled_takeCommand _ ((rests_takeEarly ..).labelled k) ((steady_takeEarly ..).admits admits)
              ((quiet_takeEarly ..).settles.bills bills)
      · split
        · exact (rests_identAtFlow ..).labelled k
        · exact (rests_mediaFrame ..).labelled k
  · exact k

theorem labelled_powerOn (straps : Straps) (l : List Instr) : (State.powerOn straps l).Labelled := by
  have free : ∀ b, (State.powerOn straps l).booking b = none := fun b => by simp [State.booking, State.powerOn]
  have idle : ∀ b r, (State.powerOn straps l).booking b = some r → r.carrying = false := fun b r hb => by
    rw [free] at hb; cases hb
  refine ⟨⟨fun b r hb => ?_, nofun, List.nodup_nil, fun i j a c _ hi => ?_⟩,
    carriage_idle (flowsMatch_empty idle rfl rfl) idle⟩
  · rw [free] at hb; cases hb
  · rw [countedClaim_of_free (free i)] at hi; cases hi

theorem labelled_exec {c : Instr} (k : s.Labelled) (admits : s.Admits) (bills : s.BillsMatch) (before : s.sec < 4294967295)
    (h : exec c s = .next t) : t.Labelled := by
  have now := fun m => (rests_advance m s).labelled k
  cases hs : c.sender with
  | some r =>
    rw [exec_request hs] at h
    cases h
    exact labelled_takeCommand c (now r.m) (admits_advance r.m admits) ((quiet_advance r.m s).settles.bills bills)
  | none =>
    cases c with
    | powerOn straps => cases h; exact labelled_powerOn ..
    | secondBoundary m => exact labelled_secondBoundary k before h
    | lightLost m p =>
      dsimp only [exec, execLightLost] at h
      split at h <;> cases h
      · exact ((rests_loseLight ..).trans (rests_flush ..)).labelled (now m)
      · exact now m
    | lightReturns m p =>
      dsimp only [exec, execLightReturns] at h
      split at h <;> cases h
      · exact now m
      · exact (((rests_setPort ..).trans (rests_endProbeOf ..)).trans (rests_flush ..)).labelled (now m)
    | frameReceived m p bytes =>
      cases h
      exact (rests_flush ..).labelled (labelled_receive m p bytes (now m) (admits_advance m admits)
        ((quiet_advance m s).settles.bills bills))
    | slotStart m p =>
      dsimp only [exec, execSlotStart] at h
      split at h
      · cases h; exact now m
      · split at h <;> cases h
        · exact ((rests_elapseTo ..).trans (rests_setPort ..)).labelled (now m)
        · exact (rests_setPort ..).labelled (now m)
    | transmitterPasses m =>
      dsimp only [exec, execTransmitterPasses] at h
      split at h
      · split at h <;> cases h
        · exact Rests.labelled (s := s.advance m) (.of_eq rfl rfl rfl rfl rfl) (now m)
        · exact now m
      · cases h; exact now m
    | silenceTimerExpiry m b l =>
      dsimp only [exec, execSilenceTimerExpiry] at h
      split at h <;> cases h
      · exact (((rests_elapseTo ..).trans (work_legSilent ..).rests).trans (rests_flush ..)).labelled (now m)
      · exact now m
    | identTimeoutExpiry m b l =>
      dsimp only [exec, execIdentTimeoutExpiry] at h
      split at h <;> cases h
      · exact (((rests_elapseTo ..).trans (work_identExpire m l (Reach.all_has _ _)).rests).trans
          (rests_flush ..)).labelled (now m)
      · exact now m
    | phaseTimerExpiry m =>
      dsimp only [exec, execPhaseTimerExpiry] at h
      split at h
      · split at h <;> cases h
        · exact (((rests_elapseTo ..).trans (rests_endFlight ..)).trans (rests_flush ..)).labelled (now m)
        · exact now m
      · cases h; exact now m
    | traceDelivered m x =>
      dsimp only [exec, execTraceDelivered] at h
      split at h
      · split at h
        · split at h <;> cases h
          · exact (((rests_elapseTo ..).trans (rests_deliver ..)).trans (rests_flush ..)).labelled (now m)
          · exact now m
        · cases h; exact now m
      · cases h; exact now m
    | admissionCompletion m =>
      have begun : Rests s (s.beginEvent m.dt) := .of_eq rfl rfl rfl rfl rfl
      have admitted : State.Admits (s.beginEvent m.dt) := admits_of_eq admits rfl rfl rfl rfl
      dsimp only [exec, execAdmissionCompletion] at h
      split at h <;> cases h
      · next sc hsc =>
        exact (rests_flush ..).labelled (labelled_completeScan (begun.labelled k) admitted hsc)
      · exact begun.labelled k
    | _ => cases hs

/-! ## The law -/

theorem labelled_of_labelInv (h : s.LabelInv) : s.Labelled := by
  obtain ⟨-, apart, carriage⟩ := labelInv_iff.1 h
  exact ⟨apart, carriage⟩

theorem exec_labelInv {c : Instr} (h : s.LabelInv) (before : s.sec < 4294967295) (k : exec c s = .next t) : t.LabelInv := by
  obtain ⟨capacity, apart, carriage⟩ := labelInv_iff.1 h
  obtain ⟨admits, bills⟩ := capacityInv_iff.1 capacity
  obtain ⟨apart', carriage'⟩ := labelled_exec ⟨apart, carriage⟩ admits bills before k
  exact labelInv_iff.2 ⟨exec_capacityInv capacity k, apart', carriage'⟩

/-- The law does not read the queue of commands. -/
theorem labelInv_pending (h : s.LabelInv) (l : List Instr) : State.LabelInv { s with pending := l } := by
  obtain ⟨capacity, apart, carriage⟩ := labelInv_iff.1 h
  have same : Rests s { s with pending := l } := .of_eq rfl rfl rfl rfl rfl
  obtain ⟨apart', carriage'⟩ := same.labelled ⟨apart, carriage⟩
  exact labelInv_iff.2 ⟨capacityInv_pending capacity l, apart', carriage'⟩

theorem powerOn_labelInv (straps : Straps) (l : List Instr) : (State.powerOn straps l).LabelInv := by
  obtain ⟨apart, carriage⟩ := labelled_powerOn straps l
  exact labelInv_iff.2 ⟨capacityInv_iff.2 ⟨powerOn_admits .., powerOn_billsMatch ..⟩, apart, carriage⟩

/-- Settles O10: the windows decide who shares a key, admission keeps the windows of a label apart, and each command keeps
the parts of the law, the boundary by one transition of each record. -/
theorem labelsStayApart : Obligations.LabelsStayApart := by
  refine ⟨powerOn_labelInv .., fun s t h before k => ?_, fun s h => ⟨fun b r l g hb states hl here => ?_, fun e he => ?_,
    fun b c x y d ne hx hy sx sy dx dy => ?_, fun b l y g hd hy hg => ?_⟩⟩
  · unfold step at k
    split at k
    · cases k; exact h
    · next c rest _ => exact exec_labelInv (labelInv_pending h rest) before k
  · have carrying := carrying_iff.2 states
    obtain ⟨e, he, booking, leg⟩ := (h.flows.leg b r l g hb carrying hl).2 here
    obtain ⟨r', g', hb', -, hl', port, label⟩ := h.flows.entry e he
    rw [booking, hb] at hb'
    cases hb'
    rw [leg, hl] at hl'
    cases hl'
    exact ⟨e, he, port, label, booking, leg⟩
  · obtain ⟨r, g, hb, carrying, hl, key⟩ := h.flows.entry e he
    exact ⟨r, g, hb, carrying_iff.1 carrying, hl, key⟩
  · exact handsOver_of_shared (labelled_of_labelInv h).apart h.window ne hx hy (carrying_iff.2 sx) (carrying_iff.2 sy)
      (.inr ⟨d, dx, dy⟩)
  · obtain ⟨y', g', e, x, hy', -, hg', he, other, hx, hands⟩ :=
      deferred_shared h.flows (labelled_of_labelInv h).apart h.window hd
    rw [hy] at hy'
    cases hy'
    rw [hg] at hg'
    cases hg'
    refine ⟨e, x, he, other, hx, hands.resolve_right fun past => ?_⟩
    have live := past.1.1
    rw [(h.deferred (b, l) hd y hy).1] at live
    cases live

end Sys2Proof.Machine
end

section
/-! A MEDIA or IDENT frame that reaches the flow table, where no watch counter has an action: what its counting leaves,
the entry it looks up, the policer's refill, and what a judgement makes of its record (R54, R63 to R66, R92, R93). -/

namespace Sys2Proof.Machine
open Sys2Proof.Config

variable {s t u v : State} {m : Moment} {p : PortIx} {b : BookingIx} {x y : Booking} {f : Frame} {bytes : List Byte}

/-! ## The frame at the flow table (R50, R54) -/

/-- The frame has come and been counted on an UP port: time has passed, and nothing that a frame's way reads has
changed. -/
structure Arrived (m : Moment) (s u : State) : Prop where
  ports : u.ports = s.ports
  bookings : u.bookings = s.bookings
  flows : u.flows = s.flows
  clock : u.clock = s.clock + m.dt
  keeps : KeepsSettings s u
  noActions : u.NoActions

theorem countedFrame_arrived (h : s.NoActions) (up : (s.port p).link = .up) (m : Moment) (bytes : List Byte) :
    Arrived m s (s.countedFrame m p bytes) := by
  let v := (s.advance m).setPort p (s.port p).goodFrame
  have free : v.NoActions := h.congr (State.advance_counters s m)
  obtain ⟨counts, kept⟩ := onlyCounts_watch free m (frameEvent .rxFrames p none (headerBits bytes) 1)
  have good : (s.port p).goodFrame = s.port p := if_neg (by simp [up])
  have ports : v.ports = s.ports := by
    show ((s.advance m).ports.set p (s.port p).goodFrame) = s.ports
    rw [good, State.advance_ports]
    exact Vector.set_getElem_self ..
  have written : KeepsSettings (s.advance m) v := keepsSettings_setPort (by rw [good, State.advance_port])
  refine ⟨counts.ports.trans ports, counts.bookings.trans (State.advance_bookings s m),
    counts.flows.trans (State.advance_flows s m), counts.calm.clock.trans (State.advance_clock s m),
    ((keepsSettings_advance m s).trans written).trans counts.calm.keepsSettings, kept⟩

theorem frameReceived_table (up : (s.port p).link = .up) (on : (s.port p).role ≠ .off) (hf : readFrame bytes = some f)
    (kind : f.kind = .media ∨ f.kind = .ident) (m : Moment) : exec (.frameReceived m p bytes) s =
      .next (((s.countedFrame m p bytes).deliverFrame m p f (headerBits bytes) .flowTable).flush m) := by
  have place : placeOf f.kind (s.port p).link (s.port p).role = .flowTable := by
    rcases kind with k | k <;> rw [k] <;> exact if_pos ⟨up, on⟩
  rw [frameReceived_good (by simp [Port.lit, up]) hf, place]

/-- What a frame's work `w` from its counting leaves is what the command leaves: the fault unit touches none of it. -/
structure Settled (m : Moment) (w t : State) : Prop where
  bookings : t.bookings = w.bookings
  flows : t.flows = w.flows
  keeps : KeepsSettings w t
  media : ∀ q, SameMedia (w.port q) (t.port q)
  flags : ∀ c : FaultClass, (∃ r ∈ w.raised, r.cls = c) → t.flags[c.ix] = true

theorem flush_settled (m : Moment) (w : State) : Settled m w (w.flush m) := by
  have onward := onward_flush m w
  refine ⟨by rw [flush_rest], by rw [flush_rest], onward.keeps, onward.media, ?_⟩
  rintro _ ⟨r, hr, rfl⟩
  exact flush_flag m hr

theorem SameMedia.trans {x y z : Port} (h : SameMedia x y) (k : SameMedia y z) : SameMedia x z :=
  ⟨k.1.trans h.1, k.2.trans h.2⟩

/-! ## The entry and its policer (R65, R66) -/

/-- The entry written is the one found under its key. -/
theorem setFlow_flowOf {label : Nat} {e e' : FlowEntry} (he : s.flowOf p label = some e)
    (key : e'.port = e.port ∧ e'.label = e.label) : (s.setFlow e').flowOf p label = some e' := by
  have found := List.find?_some he
  simp only [decide_eq_true_eq] at found
  have test : (fun z : FlowEntry => decide (z.port = p ∧ z.label = label)) ∘
      (fun z => if z.port = e'.port ∧ z.label = e'.label then e' else z) =
      fun z => decide (z.port = p ∧ z.label = label) := by
    funext z
    simp only [Function.comp_apply, key.1, key.2, found.1, found.2]
    split
    · next same => simp [key.1, key.2, found.1, found.2, same]
    · rfl
  rw [State.flowOf, State.setFlow, List.find?_map, test]
  show Option.map _ (s.flowOf p label) = _
  rw [he, Option.map_some, if_pos ⟨key.1.symm, key.2.symm⟩]

theorem flowOf_congr (h : t.flows = s.flows) (p : PortIx) (label : Nat) : t.flowOf p label = s.flowOf p label := by
  rw [State.flowOf, h]; rfl

/-- Two refills in turn add what one adds, up to the depth. -/
theorem refill_refill (e : FlowEntry) {a c : Nat} (h : a ≤ c) : (e.refill a).refill c = e.refill c := by
  have micros : a / ticksPerMicro ≤ c / ticksPerMicro := Nat.div_le_div_right h
  unfold FlowEntry.refill
  dsimp only
  have elapsed : (a / ticksPerMicro - e.lastRefill) +
      (c / ticksPerMicro - (e.lastRefill + (a / ticksPerMicro - e.lastRefill))) = c / ticksPerMicro - e.lastRefill := by
    omega
  have added := congrArg (fun n => e.rate * 10 * n) elapsed
  simp only [Nat.mul_add] at added
  congr 1 <;> omega

/-! ## Judgements (R92, R93) -/

/-- What a capture leaves of its record: the outage records apart, everything; and the outage flag. -/
structure CausesOnly (x y : Booking) : Prop where
  rest : y = { x with outage := y.outage }
  flag : y.outage.map (·.flag) = x.outage.map (·.flag)

theorem CausesOnly.refl (x : Booking) : CausesOnly x x := ⟨rfl, rfl⟩

theorem CausesOnly.trans {z : Booking} (h : CausesOnly x y) (k : CausesOnly y z) : CausesOnly x z :=
  ⟨by rw [k.rest, h.rest], k.flag.trans h.flag⟩

theorem capture1_record (hb : s.booking b = some x) (l : LegId) :
    ∃ y, (s.capture1 b l).booking b = some y ∧ CausesOnly x y := by
  unfold State.capture1
  simp only [hb]
  split
  · split
    · exact ⟨x, hb, .refl x⟩
    · split
      · exact ⟨x, hb, .refl x⟩
      · split
        · exact ⟨x, hb, .refl x⟩
        · next sit _ _ =>
          have same := (work_causeFor (R := .counting) sit ‹Leg›.port s).booking (b := b) fun _ _ => id
          rw [hb] at same
          simp only [State.updBooking, same]
          exact ⟨_, (State.setBooking_booking ..).trans (if_pos rfl), rfl, by
            cases h : x.outage <;> simp [Booking.updOutage, OutageState.updRecord, h]⟩
  · exact ⟨x, hb, .refl x⟩

theorem captureLegs_record (hb : s.booking b = some x) (ls : List LegId) :
    ∃ y, (s.captureLegs b ls).booking b = some y ∧ CausesOnly x y := by
  unfold State.captureLegs
  induction ls generalizing s x with
  | nil => exact ⟨x, hb, .refl x⟩
  | cons l ls ih =>
    obtain ⟨y, hy, first⟩ := capture1_record hb l
    obtain ⟨z, hz, later⟩ := ih hy
    exact ⟨z, hz, first.trans later⟩

/-- What a judgement makes of its record: the outage state and, at an exit, the resync flag change alone; a forwarding
booking with an outage state is in outage exactly when no leg is usable; any other is left alone. -/
structure Judged (x y : Booking) : Prop where
  rest : y = { x with outage := y.outage, merge := y.merge }
  merge : y.merge = if x.outage.any (·.flag) = true ∧ x.forwarding = true ∧ x.anyUsable = true then
    x.merge.map fun k => { k with resync := true } else x.merge
  idle : x.forwarding = false → y.outage = x.outage
  flag : x.forwarding = true → y.outage.map (·.flag) = x.outage.map fun _ => !x.anyUsable

theorem exitOutage_record (hb : s.booking b = some x) : (s.exitOutage b).booking b = some
    { x with merge := x.merge.map (fun k => { k with resync := true }), outage := x.outage.map (·.freeze s.sec) } := by
  simp only [State.exitOutage, State.trackExit, State.updBooking, hb, State.setBooking_booking, if_true,
    Booking.updOutage]
  rfl

theorem enterOutage_record (hb : s.booking b = some x) (m : Moment) : ∃ y, (s.enterOutage m b).booking b = some y ∧
    y = { x with outage := y.outage } ∧ y.outage.map (·.flag) = x.outage.map fun _ => true := by
  let raised := s.raise .feedLost (.ofBooking b) none
  have opened : (raised.updBooking b fun r => r.updOutage (·.enter raised.sec)).booking b =
      some (x.updOutage (·.enter raised.sec)) := by
    have found : raised.booking b = some x := hb
    rw [State.updBooking, found]
    exact (State.setBooking_booking ..).trans (if_pos rfl)
  obtain ⟨y, hy, rest, flag⟩ := captureLegs_record opened (legOrder m)
  refine ⟨y, hy, by rw [rest]; rfl, flag.trans ?_⟩
  cases h : x.outage <;> simp [Booking.updOutage, OutageState.enter, h]

theorem flag_of_any {o : Option OutageState} {v : Bool} (h : o.any (·.flag) = v) :
    o.map (·.flag) = o.map fun _ => v := by
  cases o with
  | none => rfl
  | some o => exact congrArg some h

theorem judge_record (hb : s.booking b = some x) (m : Moment) (ls : List LegId) :
    ∃ y, (s.judge m b ls).booking b = some y ∧ Judged x y := by
  unfold State.judge
  simp only [hb]
  cases forwarding : x.forwarding with
  | false => exact ⟨x, hb, rfl, by simp [forwarding], fun _ => rfl, fun k => absurd (k.symm.trans forwarding) (by simp)⟩
  | true =>
    have judged : ¬ x.forwarding = false := by simp [forwarding]
    cases flagged : x.outage.any (·.flag) <;> cases usable : x.anyUsable
    · obtain ⟨y, hy, rest, flag⟩ := enterOutage_record hb m
      have merge : y.merge = x.merge := by have e := congrArg Booking.merge rest; exact e
      exact ⟨y, hy, by rw [merge]; exact rest, by simp [merge, flagged], fun k => absurd k judged, fun _ => by
        simpa [usable] using flag⟩
    · exact ⟨x, hb, rfl, by simp [flagged], fun _ => rfl, fun _ => by rw [usable]; exact flag_of_any flagged⟩
    · obtain ⟨y, hy, rest, flag⟩ := captureLegs_record hb ((legOrder m).filter fun l => decide (l ∈ ls))
      have merge : y.merge = x.merge := by have e := congrArg Booking.merge rest; exact e
      exact ⟨y, hy, by rw [merge]; exact rest, by simp [merge, usable], fun k => absurd k judged, fun _ => by
        rw [usable]; exact flag.trans (flag_of_any flagged)⟩
    · refine ⟨_, exitOutage_record hb, rfl, by simp [flagged, forwarding, usable], fun k => absurd k judged,
        fun _ => ?_⟩
      cases h : x.outage <;> simp [OutageState.freeze, usable]

end Sys2Proof.Machine
end

section
/-! Frames that the flow table stops, and IDENT frames (R63 to R67, R86). -/

namespace Sys2Proof.Machine
open Sys2Proof.Config

variable {s t u v w : State} {m : Moment} {p : PortIx} {b : BookingIx} {x y : Booking} {f : Frame} {bytes : List Byte}
  {e : FlowEntry}

/-! ## From the work on a counted frame to the command (R54) -/

theorem Arrived.port (h : Arrived m s u) (q : PortIx) : u.port q = s.port q := State.port_congr h.ports q

theorem Arrived.booking (h : Arrived m s u) (b : BookingIx) : u.booking b = s.booking b :=
  State.booking_congr h.bookings b

theorem Arrived.flowOf (h : Arrived m s u) (p : PortIx) (label : Nat) : u.flowOf p label = s.flowOf p label :=
  flowOf_congr h.flows p label

theorem Arrived.tableWork (h : Arrived m s u) (keeps : KeepsSettings u w) (media : ∀ q, SameMedia (u.port q) (w.port q))
    (settled : Settled m w t) : KeepsSettings s t ∧ ∀ q, SameMedia (s.port q) (t.port q) := by
  refine ⟨(h.keeps.trans keeps).trans settled.keeps, fun q => ?_⟩
  rw [← h.port q]
  exact (media q).trans (settled.media q)

/-- A MEDIA frame that reaches the flow table. -/
theorem mediaReceived (h : s.NoActions) (up : (s.port p).link = .up) (on : (s.port p).role ≠ .off)
    (hf : readFrame bytes = some f) (kind : f.kind = .media) (m : Moment) : ∃ u t, Arrived m s u ∧
      exec (.frameReceived m p bytes) s = .next t ∧ Settled m (u.mediaFrame m p f (headerBits bytes)) t := by
  have run := frameReceived_table up on hf (.inl kind) m
  simp only [State.deliverFrame, kind, reduceCtorEq, if_false] at run
  exact ⟨_, _, countedFrame_arrived h up m bytes, run, flush_settled m _⟩

/-- An IDENT frame that reaches the flow table. -/
theorem identReceived (h : s.NoActions) (up : (s.port p).link = .up) (on : (s.port p).role ≠ .off)
    (hf : readFrame bytes = some f) (kind : f.kind = .ident) (m : Moment) : ∃ u t, Arrived m s u ∧
      exec (.frameReceived m p bytes) s = .next t ∧ Settled m (u.identAtFlow m p f (headerBits bytes)) t := by
  have run := frameReceived_table up on hf (.inr kind) m
  simp only [State.deliverFrame, kind, if_true] at run
  exact ⟨_, _, countedFrame_arrived h up m bytes, run, flush_settled m _⟩

theorem OnlyCounts.media (h : OnlyCounts s t) (q : PortIx) : SameMedia (s.port q) (t.port q) := by
  rw [State.port_congr h.ports]; exact ⟨rfl, rfl⟩

/-! ## Frames stopped (R63, R66, R67) -/

/-- An unbooked frame is counted alone. -/
theorem unbooked_stopped (h : Arrived m s u) (counts : OnlyCounts u w) (settled : Settled m w t) :
    KeepsSettings s t ∧ t.bookings = s.bookings ∧ t.flows = s.flows ∧ ∀ q, SameMedia (s.port q) (t.port q) := by
  obtain ⟨keeps, media⟩ := h.tableWork counts.calm.keepsSettings counts.media settled
  exact ⟨keeps, settled.bookings.trans (counts.bookings.trans h.bookings),
    settled.flows.trans (counts.flows.trans h.flows), media⟩

theorem updBooking_booking (hb : s.booking b = some x) (g : Booking → Booking) (c : BookingIx) :
    (s.updBooking b g).booking c = if c = b then some (g x) else s.booking c := by
  rw [State.updBooking, hb]
  exact State.setBooking_booking ..

theorem calm_setFlow (e : FlowEntry) (s : State) : Calm s (s.setFlow e) := rfl

/-- A frame above its policer's tokens: the drop counted on its leg, EXCESS raised. -/
theorem policerDrop_spec (free : s.NoActions) (hb : s.booking b = some x) (m : Moment) (p : PortIx) (l : LegId)
    (bits : Option FrameBits) :
    let t := s.policerDrop m p b l bits
    Calm s t ∧ t.ports = s.ports ∧ t.flows = s.flows ∧
      t.booking b = some { x with merge := x.merge.map fun k => k.updCounts l fun c =>
        { c with policerDrops := wrapAdd c.policerDrops 1 } } ∧
      (∀ i, i ≠ b → t.booking i = s.booking i) ∧ ∃ r ∈ t.raised, r.cls = .excess := by
  let g : Booking → Booking := fun r =>
    { r with merge := r.merge.map fun x => x.updCounts l fun k => { k with policerDrops := wrapAdd k.policerDrops 1 } }
  let v := (s.updBooking b g).raise .excess (.ofLeg p b l) none
  have rest := updBooking_rest b g s
  have kept : v.NoActions := free.congr (by show (s.updBooking b g).counters = _; rw [rest])
  have counts := (onlyCounts_watch kept m (frameEvent .policerDrops p (some (b, l)) bits 1)).1
  obtain ⟨raised, grown, -⟩ :=
    (work_watch Reach.all_watches m (frameEvent .policerDrops p (some (b, l)) bits 1) v).raised
  have start : Calm s v := by show Calm s (s.updBooking b g); rw [rest]; rfl
  have table : ∀ i, (s.policerDrop m p b l bits).booking i = if i = b then some (g x) else s.booking i := fun i =>
    (State.booking_congr counts.bookings i).trans (updBooking_booking hb g i)
  refine ⟨start.trans counts.calm, counts.ports.trans ?_, counts.flows.trans ?_, (table b).trans (if_pos rfl),
    fun i hi => (table i).trans (if_neg hi), { cls := .excess, items := .ofLeg p b l, detail := none }, ?_, rfl⟩
  · show (s.updBooking b g).ports = _; rw [rest]
  · show (s.updBooking b g).flows = _; rw [rest]
  · show _ ∈ (v.watch m _).raised
    rw [grown]
    exact List.mem_append_left _ (List.mem_append_right _ (List.mem_singleton_self _))

theorem mediaFrame_policed (he : s.flowOf p f.label = some e) (m : Moment) (bits : Option FrameBits)
    (excess : (e.refill s.clock).tokens < f.payload.length * 8) : s.mediaFrame m p f bits =
      (s.setFlow (e.refill s.clock)).policerDrop m p e.booking e.leg bits := by
  unfold State.mediaFrame
  rw [he]
  simp [FlowEntry.police, Nat.not_le.2 excess]

/-- Settles O50: the flow table's branches on a counted frame, and the arithmetic of the refill. -/
theorem mediaIsStopped : Obligations.MediaIsStopped := by
  refine ⟨fun m p bytes f s free up on hf => ⟨fun kind none_ => ?_, fun e x k kind he hx merge excess => ?_⟩,
    fun e a c => refill_refill e, fun e a => Nat.min_le_left ..⟩
  · rcases kind with kind | kind
    · obtain ⟨u, t, arrived, run, settled⟩ := mediaReceived free up on hf kind m
      rw [State.mediaFrame, arrived.flowOf, none_] at settled
      exact ⟨t, run, unbooked_stopped arrived (onlyCounts_watch arrived.noActions m _).1 settled⟩
    · obtain ⟨u, t, arrived, run, settled⟩ := identReceived free up on hf kind m
      rw [State.identAtFlow, arrived.flowOf, none_] at settled
      exact ⟨t, run, unbooked_stopped arrived (onlyCounts_watch arrived.noActions m _).1 settled⟩
  · intro bump
    obtain ⟨u, t, arrived, run, settled⟩ := mediaReceived free up on hf kind m
    have found : u.flowOf p f.label = some e := (arrived.flowOf ..).trans he
    rw [← arrived.clock] at excess
    rw [mediaFrame_policed found m _ excess] at settled
    let full := e.refill u.clock
    have table : (u.setFlow full).booking e.booking = some x := (arrived.booking _).trans hx
    obtain ⟨calm, ports, flows, record, others, excessRaised⟩ :=
      policerDrop_spec (s := u.setFlow full) arrived.noActions table m p e.leg (headerBits bytes)
    obtain ⟨keeps, media⟩ := arrived.tableWork ((calm_setFlow full u).trans calm).keepsSettings
      (fun q => by rw [State.port_congr ports]; exact ⟨rfl, rfl⟩) settled
    refine ⟨t, run, keeps, ?_, settled.flags _ excessRaised, ?_, fun i hi => ?_, media⟩
    · rw [flowOf_congr settled.flows, flowOf_congr flows, ← arrived.clock]
      exact setFlow_flowOf found ⟨rfl, rfl⟩
    · rw [State.booking_congr settled.bookings, record, merge]
      cases e.leg <;> rfl
    · rw [State.booking_congr settled.bookings, others i hi]
      exact arrived.booking i

/-! ## IDENT frames (R64, R86) -/

/-- The first 32 bytes compared one by one. -/
theorem matchesIdent_iff {k : Pattern} (reference : k.reference.length = 32) (payload : List Byte) :
    k.matchesIdent payload = true ↔ IdentAgrees k payload := by
  simp only [Pattern.matchesIdent, Bool.and_eq_true, decide_eq_true_eq, IdentAgrees]
  refine and_congr_right fun long => ?_
  rw [List.all_eq_true]
  constructor
  · intro same i hi marked
    have hp : i < payload.length := by omega
    have hr : i < k.reference.length := by omega
    have here : (payload[i], k.reference[i], true) ∈ (payload.take 32).zip (k.reference.zip k.mask) :=
      List.mem_of_getElem? (List.getElem?_zip_eq_some.2 ⟨by simp [hi, hp],
        List.getElem?_zip_eq_some.2 ⟨by simp [hr], marked⟩⟩)
    have equal := same _ here
    simp only [Bool.not_true, Bool.false_or, decide_eq_true_eq] at equal
    simp [hp, hr, equal]
  · rintro same ⟨byte, ref, mark⟩ here
    obtain ⟨i, found⟩ := List.mem_iff_getElem?.1 here
    obtain ⟨hp, rest⟩ := List.getElem?_zip_eq_some.1 found
    obtain ⟨hr, hm⟩ := List.getElem?_zip_eq_some.1 rest
    rw [List.getElem?_take] at hp
    split at hp
    · next hi =>
      cases mark with
      | false => rfl
      | true =>
        have equal : byte = ref := Option.some_inj.1 (hp.symm.trans ((same i hi hm).trans hr))
        simp [equal]
    · cases hp

/-- Work that may touch record `b` alone, and neither queues nor counters. -/
def Reach.only (b : BookingIx) : Reach := ⟨fun c _ => c = b, fun _ => False, False⟩

theorem Reach.only_has (b : BookingIx) (s : State) : (Reach.only b).has s b := fun _ _ => rfl

/-- The other records stand. -/
theorem Work.others (h : Work (.only b) s t) {i : BookingIx} (hi : i ≠ b) : t.booking i = s.booking i :=
  h.booking fun _ _ => hi

/-- What a change of one leg to `lg` and the judgement that follows leave of the record. -/
structure LegMoved (l : LegId) (lg : Leg) (x y : Booking) : Prop where
  state : y.state = x.state
  leg : y.leg l = some lg
  others : ∀ k, k ≠ l → y.leg k = x.leg k
  outage : x.state = .live ∨ x.state = .overrun → x.outage ≠ none → ∃ o, y.outage = some o ∧ o.flag = !y.anyUsable

theorem Judged.legs (h : Judged x y) : y.leg = x.leg ∧ y.state = x.state ∧ y.anyUsable = x.anyUsable := by
  rw [h.rest]
  exact ⟨funext fun l => by cases l <;> rfl, rfl, rfl⟩

theorem updLeg_outage (r : Booking) (l : LegId) (g : Leg → Leg) :
    (r.updLeg l g).outage = r.outage ∧ (r.updLeg l g).state = r.state := by cases l <;> exact ⟨rfl, rfl⟩

theorem Judged.legMoved {l : LegId} {lg : Leg} {g : Leg → Leg} (h : Judged (x.updLeg l g) y) (hl : x.leg l = some lg) :
    LegMoved l (g lg) x y := by
  obtain ⟨legs, state, usable⟩ := h.legs
  obtain ⟨outage, same⟩ := updLeg_outage x l g
  refine ⟨state.trans same, ?_, fun k hk => ?_, fun live some_ => ?_⟩
  · rw [legs, updLeg_leg, if_pos rfl, hl]; rfl
  · rw [legs, updLeg_leg, if_neg hk]
  · have forwarding : (x.updLeg l g).forwarding = true := by simpa [Booking.forwarding, same] using live
    have flag := h.flag forwarding
    rw [outage, ← usable] at flag
    obtain ⟨o, ho⟩ := Option.ne_none_iff_exists'.1 some_
    rw [ho] at flag
    exact Option.map_eq_some_iff.1 flag

theorem judge_raised (m : Moment) (b : BookingIx) (ls : List LegId) {r : Raise} (h : r ∈ s.raised) :
    r ∈ (s.judge m b ls).raised := by
  obtain ⟨_, grown, -⟩ := (work_judge_has m ls (Reach.all_has s b)).raised
  rw [grown]
  exact List.mem_append_left _ h

/-- What an IDENT frame makes of the leg it is compared for: the record moved and judged, and WRONG_SOURCE raised where
the leg was not MISMATCHED before. -/
theorem identFrame_compared {l : LegId} {lg : Leg} {payload : List Byte} (hb : s.booking b = some x)
    (hl : x.leg l = some lg) (checked : lg.policy ≠ .none) (m : Moment) :
    let t := s.identFrame m b l payload
    ∃ y, t.booking b = some y ∧
      LegMoved l (if s.identMatches lg payload then
          { lg with ident := some .matched, identAt := none, exIdent := false }
        else { lg with ident := some .mismatched, identAt := none, exIdent := true }) x y ∧
      (s.identMatches lg payload = false → lg.ident ≠ some .mismatched → ∃ r ∈ t.raised, r.cls = .wrongSource) := by
  simp only [State.identFrame, hb, hl, checked, if_false]
  cases s.identMatches lg payload with
  | true =>
    obtain ⟨y, hy, judged⟩ := judge_record ((updBooking_booking hb _ b).trans (if_pos rfl)) m _
    exact ⟨y, hy, judged.legMoved hl, nofun⟩
  | false =>
    have moved := (updBooking_booking hb (fun r => r.updLeg l fun z =>
      { z with ident := some .mismatched, identAt := none, exIdent := true }) b).trans (if_pos rfl)
    obtain ⟨y, hy, judged⟩ := judge_record (s := if lg.ident = some .mismatched then _ else State.raise _ _ _ _)
      (by split <;> exact moved) m _
    refine ⟨y, hy, judged.legMoved hl, fun _ fresh =>
      ⟨{ cls := .wrongSource, items := .ofLeg lg.port b l, detail := none }, judge_raised m b _ ?_, rfl⟩⟩
    rw [if_neg fresh]
    exact List.mem_append_right _ (List.mem_singleton_self _)

theorem identMatches_iff {lg : Leg} {i : PatternIx} {k : Pattern} (hi : lg.pattern = some i)
    (hk : s.patterns[i] = some k) (reference : k.reference.length = 32) (payload : List Byte) :
    s.identMatches lg payload = true ↔ IdentAgrees k payload := by
  rw [State.identMatches, hi]
  simp only [hk]
  exact matchesIdent_iff reference payload

/-- Settles O52: the work on an IDENT frame reaches its own record alone, where the leg moves and a judgement
follows. -/
theorem identFramesAreChecked : Obligations.IdentFramesAreChecked := by
  intro m p bytes f e x lg s free up on hf kind he hx hl
  obtain ⟨u, t, arrived, run, settled⟩ := identReceived free up on hf kind m
  have found : u.flowOf p f.label = some e := (arrived.flowOf ..).trans he
  have table : u.booking e.booking = some x := (arrived.booking _).trans hx
  simp only [State.identAtFlow, found] at settled
  have work : Work (.only e.booking) u (u.identFrame m e.booking e.leg f.payload) :=
    work_identFrame m _ _ (Reach.only_has _ u)
  obtain ⟨keeps, media⟩ := arrived.tableWork work.calm.keepsSettings (fun q => work.sameMedia id) settled
  refine ⟨t, run, keeps, settled.flows.trans (work.flows.trans arrived.flows), fun i hi => ?_, media, fun none_ => ?_,
    fun i k checked hi hk reference _ => ?_⟩
  · rw [State.booking_congr settled.bookings, work.others hi]
    exact arrived.booking i
  · simp only [State.identFrame, table, hl, none_, if_true] at settled
    exact settled.bookings.trans arrived.bookings
  · obtain ⟨y, hy, moved, raised⟩ := identFrame_compared (payload := f.payload) table hl checked m
    have agrees := identMatches_iff (s := u) hi (by rw [arrived.keeps.patterns]; exact hk) reference f.payload
    refine ⟨y, (State.booking_congr settled.bookings _).trans hy, moved.state, moved.others, fun agree => ?_,
      fun differ => ?_, moved.outage⟩
    · rw [moved.leg, if_pos (agrees.2 agree)]
    · have differs : u.identMatches lg f.payload = false := by simpa [← agrees] using differ
      refine ⟨by rw [moved.leg, if_neg (by simp [differs])], fun fresh => settled.flags _ (raised differs fresh)⟩

end Sys2Proof.Machine
end

section
/-! The copies of a forwarded frame at its destinations (R55, R70, R71, R73), where no watch counter has an action. -/

namespace Sys2Proof.Machine
open Sys2Proof.Config

variable {s t u v w : State} {m : Moment} {p : PortIx} {b : BookingIx} {x y z : Booking} {f : Frame} {l : LegId}
  {two : Bool} {c : MediaCopy} {cs : List (PortIx × MediaCopy)}

theorem Port.takesCopy_iff (q : Port) (two : Bool) : q.takesCopy two = true ↔
    q.link = .up ∧ q.role ≠ .off ∧ (if two then q.class1 else q.class2).length < 256 := decide_eq_true_iff

/-- A port after a copy is offered to it. -/
def Port.offered (q : Port) (two : Bool) (c : MediaCopy) : Port :=
  if q.takesCopy two then q.appendMedia two c else q

/-- What the copies `cs` of booking `b` leave, each offered to its port: its record `x` is `y`, where a destination
whose copy was not taken counts a drop. -/
structure Offered (two : Bool) (b : BookingIx) (cs : List (PortIx × MediaCopy)) (s t : State) (x y : Booking) :
    Prop where
  record : t.booking b = some y
  rest : y = { x with dests := y.dests }
  others : ∀ i, i ≠ b → t.booking i = s.booking i
  absent : ∀ q, (∀ c ∈ cs, c.1 ≠ q) → t.port q = s.port q
  queued : ∀ c ∈ cs, t.port c.1 = (s.port c.1).offered two c.2
  unnamed : ∀ i, (∀ c ∈ cs, c.2.position ≠ i + 1) → y.dests[i]? = x.dests[i]?
  counted : ∀ c ∈ cs, ∀ i, c.2.position = i + 1 →
    y.dests[i]? = if (s.port c.1).takesCopy two then x.dests[i]? else x.dests[i]?.map Dest.drop

/-- A copy appended to its port's queue. -/
theorem offered_taken (free : s.NoActions) (hb : s.booking b = some x) (takes : (s.port p).takesCopy two = true)
    (m : Moment) (e : WatchEvent) : let t := (s.setPort p ((s.port p).appendMedia two c)).watch m e
    Offered two b [(p, c)] s t x x ∧ t.NoActions := by
  let v := s.setPort p ((s.port p).appendMedia two c)
  have start : v.NoActions := free
  obtain ⟨counts, kept⟩ := onlyCounts_watch start m e
  have port : ∀ q, (v.watch m e).port q = v.port q := fun q => State.port_congr counts.ports q
  have table : ∀ i, (v.watch m e).booking i = s.booking i := fun i => State.booking_congr counts.bookings i
  refine ⟨⟨(table b).trans hb, rfl, fun i _ => table i, fun q hq => ?_, ?_, fun _ _ => rfl, ?_⟩, kept⟩
  · have other : q ≠ p := fun e => hq _ (List.mem_singleton_self _) e.symm
    exact (port q).trans (by simp [v, other])
  · rintro _ (_ | ⟨_, ⟨⟩⟩)
    exact (port p).trans (by simp [v, Port.offered, takes])
  · rintro _ (_ | ⟨_, ⟨⟩⟩) i -
    simp [takes]

/-- A copy that its port does not take: an egress drop, counted for its destination. -/
theorem offered_dropped (free : s.NoActions) (hb : s.booking b = some x) (forwarding : x.forwarding = true)
    (hc : c.booking = b) (takes : (s.port p).takesCopy two = false) (m : Moment) :
    (∃ y, Offered two b [(p, c)] s (s.egressDrop m p c) x y) ∧ (s.egressDrop m p c).NoActions := by
  let g : Booking → Booking := fun r => r.countDrop c.position
  have rest := updBooking_rest c.booking g s
  have start : (s.updBooking c.booking g).NoActions := free.congr (by rw [rest])
  obtain ⟨counts, kept⟩ := onlyCounts_watch start m
    { kind := .egressDrops, port := some p, booking := some c.booking, leg := none, bits := some c.bits, weight := 1 }
  have table : ∀ i, (s.egressDrop m p c).booking i = if i = b then some (g x) else s.booking i := fun i =>
    (State.booking_congr counts.bookings i).trans (by rw [hc]; exact updBooking_booking hb g i)
  have port : ∀ q, (s.egressDrop m p c).port q = s.port q := fun q =>
    (State.port_congr counts.ports q).trans (State.port_congr (by rw [rest]) q)
  have dropped : g x = { x with dests := updAt Dest.drop c.position x.dests } := if_pos forwarding
  refine ⟨⟨g x, (table b).trans (if_pos rfl), by rw [dropped], fun i hi => (table i).trans (if_neg hi),
    fun q _ => port q, ?_, fun i hi => ?_, ?_⟩, kept⟩
  · rintro _ (_ | ⟨_, ⟨⟩⟩)
    exact (port p).trans (by simp [Port.offered, takes])
  · rw [dropped]
    exact (updAt_getElem? ..).trans (if_neg (hi _ (List.mem_singleton_self _)))
  · rintro _ (_ | ⟨_, ⟨⟩⟩) i hi
    rw [dropped, if_neg (by simp [takes])]
    exact (updAt_getElem? ..).trans (if_pos hi)

/-- One copy offered (R55). -/
theorem offered_offerCopy (free : s.NoActions) (hb : s.booking b = some x) (forwarding : x.forwarding = true)
    (hc : c.booking = b) (m : Moment) (p : PortIx) (two : Bool) (l : LegId) :
    (∃ y, Offered two b [(p, c)] s (s.offerCopy m p two l c) x y) ∧ (s.offerCopy m p two l c).NoActions := by
  unfold State.offerCopy
  split
  · next takes =>
    obtain ⟨offered, kept⟩ := offered_taken (c := c) free hb takes m
      { kind := .forwarded, port := some p, booking := some c.booking, leg := some l, bits := some c.bits, weight := 1 }
    exact ⟨⟨x, offered⟩, kept⟩
  · next refuses => exact offered_dropped free hb forwarding hc (by simpa using refuses) m

/-- Copies to different ports and for different destinations. -/
def Distinct (cs : List (PortIx × MediaCopy)) : Prop := cs.Pairwise fun c d => c.1 ≠ d.1 ∧ c.2.position ≠ d.2.position

theorem Offered.cons {c : PortIx × MediaCopy} (h : Offered two b [c] s u x z) (k : Offered two b cs u t z y)
    (distinct : Distinct (c :: cs)) : Offered two b (c :: cs) s t x y := by
  have apart := (List.pairwise_cons.1 distinct).1
  have same : ∀ d ∈ cs, u.port d.1 = s.port d.1 := fun d hd =>
    h.absent d.1 fun e he => by rw [List.mem_singleton.1 he]; exact (apart d hd).1
  refine ⟨k.record, by rw [k.rest, h.rest], fun i hi => (k.others i hi).trans (h.others i hi), fun q hq => ?_, ?_,
    fun i hi => ?_, ?_⟩
  · rw [k.absent q fun d hd => hq d (.tail _ hd)]
    exact h.absent q fun d hd => hq d (by rw [List.mem_singleton.1 hd]; exact .head _)
  · rintro d (_ | ⟨_, hd⟩)
    · rw [k.absent c.1 fun d hd => (apart d hd).1.symm]
      exact h.queued c (List.mem_singleton_self c)
    · rw [k.queued d hd, same d hd]
  · rw [k.unnamed i fun d hd => hi d (.tail _ hd)]
    exact h.unnamed i fun d hd => by rw [List.mem_singleton.1 hd]; exact hi c (.head _)
  · rintro d (_ | ⟨_, hd⟩) i position
    · rw [k.unnamed i fun d hd e => (apart d hd).2 (position.trans e.symm)]
      exact h.counted c (List.mem_singleton_self c) i position
    · have before : z.dests[i]? = x.dests[i]? := h.unnamed i fun e he => by
        rw [List.mem_singleton.1 he]; exact fun e => (apart d hd).2 (e.trans position.symm)
      rw [k.counted d hd i position, same d hd, before]

theorem offered_foldl (m : Moment) (two : Bool) (l : LegId) (free : s.NoActions) (hb : s.booking b = some x)
    (forwarding : x.forwarding = true) (own : ∀ c ∈ cs, c.2.booking = b) (distinct : Distinct cs) :
    ∃ y, Offered two b cs s (cs.foldl (fun s c => s.offerCopy m c.1 two l c.2) s) x y := by
  induction cs generalizing s x with
  | nil => exact ⟨x, hb, rfl, fun _ _ => rfl, fun _ _ => rfl, nofun, fun _ _ => rfl, nofun⟩
  | cons c cs ih =>
    obtain ⟨⟨z, first⟩, kept⟩ := offered_offerCopy free hb forwarding (own c (.head _)) m c.1 two l
    have still : z.forwarding = true := by rw [first.rest]; exact forwarding
    obtain ⟨y, later⟩ := ih kept first.record still (fun d hd => own d (.tail _ hd)) distinct.tail
    exact ⟨y, first.cons later distinct⟩

/-! ## The copies of one frame (R70) -/

/-- The copy of frame `f` for the destination `d`, the `i`-th from 0. -/
def copyFor (b : BookingIx) (f : Frame) (d : Dest) (i : Nat) : MediaCopy :=
  { booking := b, position := i + 1, label := d.label, flags := f.flags, seq := f.seq, payload := f.payload }

theorem mem_copiesOf {c : PortIx × MediaCopy} : c ∈ copiesOf b x f ↔
    ∃ i d, x.dests[i]? = some d ∧ c = (d.port, copyFor b f d i) := by
  simp only [copiesOf, List.mem_map, Prod.exists, List.mem_zipIdx_iff_le_and_getElem?_sub]
  constructor
  · rintro ⟨d, n, ⟨pos, hd⟩, rfl⟩
    exact ⟨n - 1, d, hd, by simp [copyFor, Nat.sub_add_cancel pos]⟩
  · rintro ⟨i, d, hd, rfl⟩
    exact ⟨d, i + 1, ⟨by simp, by simpa using hd⟩, rfl⟩

theorem distinct_copiesOf (nodup : (x.dests.map (·.port)).Nodup) : Distinct (copiesOf b x f) := by
  refine List.pairwise_iff_getElem.2 fun i j hi hj less => ?_
  have ports := List.pairwise_iff_getElem.1 nodup i j (by simpa [copiesOf] using hi) (by simpa [copiesOf] using hj) less
  simp only [List.getElem_map] at ports
  simpa [copiesOf, Nat.ne_of_lt less] using ports

/-- The fan-out of a forwarded frame. -/
theorem fanOut_offered (m : Moment) (l : LegId) (f : Frame) (free : s.NoActions) (hb : s.booking b = some x)
    (forwarding : x.forwarding = true) (nodup : (x.dests.map (·.port)).Nodup) :
    ∃ y, Offered x.backup.isSome b (copiesOf b x f) s (s.fanOut m b x l f) x y := by
  refine offered_foldl m _ l free hb forwarding (fun c hc => ?_) (distinct_copiesOf nodup)
  obtain ⟨i, d, -, rfl⟩ := mem_copiesOf.1 hc
  rfl

end Sys2Proof.Machine
end

section
/-! A MEDIA frame that passes its policer (R66, R69, R79, R89 to R92), where no watch counter has an action. -/

namespace Sys2Proof.Machine
open Sys2Proof.Config

variable {s t u v w : State} {m : Moment} {p : PortIx} {b : BookingIx} {x y z : Booking} {f : Frame} {l : LegId}
  {lg : Leg} {k : MergeState} {bytes : List Byte} {e : FlowEntry}

/-! ## The leg receives (R79, R92) -/

/-- A leg that has received a MEDIA frame: RECEIVING, its silence timer to end at `at_`. -/
def Leg.received (lg : Leg) (at_ : Nat) : Leg := { lg with state := .receiving, silenceAt := some at_ }

/-- The end of a silence timer started now. -/
def State.silenceEnd (s : State) : Nat := s.clock + s.silenceMs * ticksPerMilli

/-- No exclusion holds the leg out. -/
def Leg.clear (lg : Leg) : Bool := !lg.exIdent && !lg.exWatch && !lg.exManual

theorem Leg.received_usable (lg : Leg) (at_ : Nat) : (lg.received at_).usable = lg.clear := by
  simp [Leg.received, Leg.usable, Leg.clear]

/-- What a MEDIA frame on leg `l` leaves of its record before the verdict: leg `l` is `lg`, and `merge` its merge
fields. -/
structure Heard (l : LegId) (lg : Leg) (merge : Option MergeState) (x y : Booking) : Prop where
  rest : y = { x with main := y.main, backup := y.backup, outage := y.outage, merge := merge }
  two : y.backup.isSome = x.backup.isSome
  leg : y.leg l = some lg
  others : ∀ k, k ≠ l → y.leg k = x.leg k

theorem updLeg_rest (r : Booking) (l : LegId) (g : Leg → Leg) :
    r.updLeg l g = { r with main := (r.updLeg l g).main, backup := (r.updLeg l g).backup } ∧
      (r.updLeg l g).backup.isSome = r.backup.isSome := by cases l <;> simp [Booking.updLeg]

theorem Judged.heard {g : Leg → Leg} (h : Judged (x.updLeg l g) y) (hl : x.leg l = some lg) :
    Heard l (g lg) y.merge x y := by
  obtain ⟨rest, two⟩ := updLeg_rest x l g
  have moved := h.legMoved hl
  refine ⟨by rw [h.rest, rest], ?_, moved.leg, moved.others⟩
  rw [h.rest]
  exact two

theorem anyUsable_iff (r : Booking) : r.anyUsable = true ↔ ∃ l lg, r.leg l = some lg ∧ lg.usable = true := by
  simp only [Booking.anyUsable, Booking.legs, List.any_eq_true, List.mem_cons, Option.mem_toList]
  constructor
  · rintro ⟨lg, rfl | h, usable⟩
    exacts [⟨.main, _, rfl, usable⟩, ⟨.backup, lg, h, usable⟩]
  · rintro ⟨_ | _, lg, h, usable⟩
    exacts [⟨lg, .inl (Option.some_inj.1 h).symm, usable⟩, ⟨lg, .inr h, usable⟩]

theorem legReceives_spec (free : s.NoActions) (hb : s.booking b = some x) (hl : x.leg l = some lg)
    (carrying : x.carrying = true) (m : Moment) : let t := s.legReceives m b l
    (∃ y, t.booking b = some y ∧ Judged (x.updLeg l (·.received s.silenceEnd)) y) ∧
      Work (.only b) s t ∧ t.NoActions := by
  have work : Work (.only b) s (s.legReceives m b l) := work_legReceives m l (Reach.only_has _ s)
  refine ⟨?_, work, free.congr (work.counters id)⟩
  simp only [State.legReceives, hb, hl, carrying, if_true]
  exact judge_record ((updBooking_booking hb _ b).trans (if_pos rfl)) m _

/-! ## The verdict (R89, R90) -/

/-- The merge fields as the merge test of a frame reads them: an outage that the frame ends asks for a resync. -/
def MergeState.heard (k : MergeState) (x : Booking) : MergeState :=
  { k with resync := k.resync || x.outage.any (·.flag) }

/-- A frame on a clear leg of a forwarding booking: its leg is usable, an outage has ended, and the merge test
decides. -/
theorem Judged.heard_clear {at_ : Nat} (h : Judged (x.updLeg l (·.received at_)) y) (hl : x.leg l = some lg)
    (forwarding : x.forwarding = true) (clear : lg.clear = true) (hm : x.merge = some k) (seq : Nat) :
    y.outage.any (·.flag) = false ∧ y.verdict l seq = some ((k.heard x).test l seq) := by
  obtain ⟨outage, state⟩ := updLeg_outage x l (·.received at_)
  obtain ⟨legs, _, _⟩ := h.legs
  have merge : (x.updLeg l (·.received at_)).merge = some k := by rw [(updLeg_rest x l _).1]; exact hm
  have forwards : (x.updLeg l (·.received at_)).forwarding = true := by
    rw [Booking.forwarding, state]; exact forwarding
  have leg : y.leg l = some (lg.received at_) := (h.legMoved hl).leg
  have usable : (lg.received at_).usable = true := (lg.received_usable at_).trans clear
  have some_ : (x.updLeg l (·.received at_)).anyUsable = true :=
    (anyUsable_iff _).2 ⟨l, _, (congrFun legs l).symm.trans leg, usable⟩
  have still : y.forwarding = true := by rw [h.rest]; exact forwards
  have tested : y.merge = some (k.heard x) := by
    rw [h.merge, forwards, some_, merge, outage]
    cases flagged : x.outage.any (·.flag) <;> simp [MergeState.heard, flagged]
  constructor
  · have flag := h.flag forwards
    rw [some_] at flag
    cases hy : y.outage with
    | none => rfl
    | some o => cases ho : (x.updLeg l (·.received at_)).outage <;> simp_all
  · simp [Booking.verdict, still, leg, usable, tested]

/-- A frame of an ARMED booking, or on a leg held out while no usable leg ends an outage: no verdict, and no field but
the leg and the outage moves. -/
theorem Judged.heard_kept {at_ : Nat} (h : Judged (x.updLeg l (·.received at_)) y) (hl : x.leg l = some lg)
    (kept : x.forwarding = false ∨ lg.clear = false ∧ (x.outage.any (·.flag) = true → x.anyUsable = false))
    (seq : Nat) :
    y.verdict l seq = none ∧ y.merge = x.merge := by
  obtain ⟨outage, state⟩ := updLeg_outage x l (·.received at_)
  have merge : (x.updLeg l (·.received at_)).merge = x.merge := by rw [(updLeg_rest x l _).1]
  have forwards : (x.updLeg l (·.received at_)).forwarding = x.forwarding := by rw [Booking.forwarding, state]; rfl
  have still : y.forwarding = x.forwarding := by rw [h.rest]; exact forwards
  have leg : y.leg l = some (lg.received at_) := (h.legMoved hl).leg
  have usable := lg.received_usable at_
  refine ⟨?_, ?_⟩
  · rcases kept with idle | ⟨held, -⟩
    · simp [Booking.verdict, still, idle]
    · simp [Booking.verdict, leg, usable, held]
  · rw [h.merge, merge, outage, forwards, if_neg]
    rintro ⟨flagged, forwarding, some_⟩
    rcases kept with idle | ⟨held, out⟩
    · simp [idle] at forwarding
    · obtain ⟨j, lj, hj, hu⟩ := (anyUsable_iff _).1 some_
      rw [updLeg_leg] at hj
      split at hj
      · rw [hl] at hj
        obtain rfl := Option.some_inj.1 hj
        simp [usable, held] at hu
      · have before : x.anyUsable = true := (anyUsable_iff x).2 ⟨j, lj, hj, hu⟩
        simp [out flagged] at before

/-! ## The verdict acted on (R70, R91) -/

/-- The queues of the ports, and which of them take a copy, are the same. -/
structure SameQueues (s t : State) : Prop where
  media : ∀ q, SameMedia (s.port q) (t.port q)
  takes : ∀ q two, (t.port q).takesCopy two = (s.port q).takesCopy two

theorem SameQueues.of_ports (h : t.ports = s.ports) : SameQueues s t :=
  ⟨fun q => by rw [State.port_congr h]; exact ⟨rfl, rfl⟩, fun q two => by rw [State.port_congr h]⟩

theorem SameQueues.trans (h : SameQueues s t) (k : SameQueues t u) : SameQueues s u :=
  ⟨fun q => (h.media q).trans (k.media q), fun q two => (k.takes q two).trans (h.takes q two)⟩

theorem Work.sameQueues (h : Work (.only b) s t) : SameQueues s t := by
  have media : ∀ q, SameMedia (s.port q) (t.port q) := fun q => h.sameMedia id
  refine ⟨media, fun q two => ?_⟩
  have face := h.calm.face q
  have link : (t.port q).link = (s.port q).link := by have e := congrArg Port.link face; exact e
  have role : (t.port q).role = (s.port q).role := by have e := congrArg Port.role face; exact e
  rw [Bool.eq_iff_iff, Port.takesCopy_iff, Port.takesCopy_iff, link, role, (media q).1, (media q).2]

/-- The close request after a forwarded frame (R91). -/
def Booking.closeReqAfter (r : Booking) (f : Frame) : Option CutReason :=
  if f.endFlag = true ∧ r.state = .overrun then some (r.closeReq.getD .sourceEnded) else r.closeReq

theorem onForwardedEnd_eq (r : Booking) (f : Frame) :
    (if f.endFlag then r.onForwardedEnd else r) = { r with closeReq := r.closeReqAfter f } := by
  unfold Booking.onForwardedEnd Booking.closeReqAfter
  by_cases ended : f.endFlag = true
  · rw [if_pos ended]
    by_cases overrun : r.state = .overrun
    · rw [if_pos overrun, if_pos ⟨ended, overrun⟩]
      cases r.closeReq <;> rfl
    · rw [if_neg overrun, if_neg fun h => overrun h.2]
  · rw [if_neg ended, if_neg fun h => ended h.1]

/-- A redundant frame: its merge fields written, its event counted. -/
theorem redundant_spec (free : s.NoActions) (r : Option Booking) (m : Moment) (b : BookingIx) (e : WatchEvent) :
    let t := (s.setBooking b r).watch m e
    t.booking b = r ∧ (∀ i, i ≠ b → t.booking i = s.booking i) ∧ SameQueues s t := by
  have start : (s.setBooking b r).NoActions := free
  have counts := (onlyCounts_watch start m e).1
  have table : ∀ i, ((s.setBooking b r).watch m e).booking i = if i = b then r else s.booking i := fun i =>
    (State.booking_congr counts.bookings i).trans (State.setBooking_booking ..)
  exact ⟨(table b).trans (if_pos rfl), fun i hi => (table i).trans (if_neg hi), .of_ports counts.ports⟩

/-- A forwarded frame: its record written, its gap counted, its copies offered. -/
theorem forwardFrame_spec (free : s.NoActions) (forwarding : x.forwarding = true)
    (nodup : (x.dests.map (·.port)).Nodup) (m : Moment) (p : PortIx) (b : BookingIx) (l : LegId) (k : MergeState)
    (gap : Nat) (f : Frame) (bits : Option FrameBits) : ∃ v z,
    (∀ i, i ≠ b → v.booking i = s.booking i) ∧ SameQueues s v ∧
    Offered x.backup.isSome b (copiesOf b x f) v (s.forwardFrame m p b l x k gap f bits)
      { x with merge := some k, closeReq := x.closeReqAfter f } z := by
  let r : Booking := { x with merge := some k, closeReq := x.closeReqAfter f }
  have written : (if f.endFlag then { x with merge := some k }.onForwardedEnd else { x with merge := some k }) = r :=
    onForwardedEnd_eq { x with merge := some k } f
  have begun : ∀ v : State, v.NoActions → v.booking b = some r →
      ∃ z, Offered x.backup.isSome b (copiesOf b x f) v (v.fanOut m b r l f) r z := fun v kept found =>
    fanOut_offered m l f kept found forwarding nodup
  unfold State.forwardFrame
  dsimp only
  rw [written]
  split
  · obtain ⟨z, offered⟩ := begun (s.setBooking b (some r)) free (by simp)
    exact ⟨s.setBooking b (some r), z, fun i hi => by simp [hi], .of_ports rfl, offered⟩
  · have start : (s.setBooking b (some r)).NoActions := free
    have kept := (onlyCounts_watch start m (frameEvent .mergeGaps p (some (b, l)) bits gap)).2
    obtain ⟨found, others, queues⟩ := redundant_spec free (some r) m b (frameEvent .mergeGaps p (some (b, l)) bits gap)
    obtain ⟨z, offered⟩ := begun _ kept found
    exact ⟨_, z, others, queues, offered⟩

/-! ## A frame at the merge unit (R89) -/

/-- What a passing frame on a clear leg of a forwarding booking `x` leaves, `v` its verdict: the record as heard, `y`,
and as the verdict leaves it, `z`. -/
structure Merged (b : BookingIx) (f : Frame) (v : MergeVerdict × MergeState) (s t : State)
    (x y z : Booking) : Prop where
  record : t.booking b = some z
  rest : z = { y with merge := some v.2, closeReq := z.closeReq, dests := z.dests }
  others : ∀ i, i ≠ b → t.booking i = s.booking i
  redundant : v.1 = .redundant → z.dests = x.dests ∧ z.closeReq = x.closeReq ∧ SameQueues s t
  forward : ∀ gap, v.1 = .forward gap → z.closeReq = x.closeReqAfter f ∧ ∃ u r, SameQueues s u ∧ r.dests = x.dests ∧
    Offered x.backup.isSome b (copiesOf b x f) u t r z

theorem mergeFrame_clear (free : s.NoActions) (hb : s.booking b = some x) (hl : x.leg l = some lg)
    (forwarding : x.forwarding = true) (clear : lg.clear = true) (hm : x.merge = some k)
    (nodup : (x.dests.map (·.port)).Nodup) (m : Moment) (p : PortIx) (bits : Option FrameBits) : ∃ y z,
    Heard l (lg.received s.silenceEnd) y.merge x y ∧ y.outage.any (·.flag) = false ∧
    Merged b f ((k.heard x).test l f.seq) s (s.mergeFrame m p b l f bits) x y z := by
  have carrying : x.carrying = true := by
    simp only [Booking.forwarding, decide_eq_true_eq] at forwarding
    simp [Booking.carrying, forwarding]
  obtain ⟨⟨y, hy, judged⟩, work, kept⟩ := legReceives_spec free hb hl carrying m
  obtain ⟨flag, verdict⟩ := judged.heard_clear hl forwarding clear hm f.seq
  have heard := judged.heard hl
  have state : y.state = x.state := by rw [heard.rest]
  have dests : y.dests = x.dests := by rw [heard.rest]
  have closeReq : y.closeReq = x.closeReq := by rw [heard.rest]
  have still : y.forwarding = true := by rw [Booking.forwarding, state]; exact forwarding
  refine ⟨y, ?_⟩
  simp only [State.mergeFrame, hy, verdict]
  generalize (k.heard x).test l f.seq = v
  match v with
  | (.redundant, k') =>
    obtain ⟨found, others, queues⟩ := redundant_spec kept (some { y with merge := some k' }) m b
      (frameEvent .redundant p (some (b, l)) bits 1)
    exact ⟨_, heard, flag, found, rfl, fun i hi => (others i hi).trans (work.others hi),
      fun _ => ⟨dests, closeReq, work.sameQueues.trans queues⟩, nofun⟩
  | (.forward gap, k') =>
    obtain ⟨u, z, others, queues, offered⟩ :=
      forwardFrame_spec kept still (by rw [dests]; exact nodup) m p b l k' gap f bits
    have copies : copiesOf b y f = copiesOf b x f := by rw [copiesOf, dests]; rfl
    rw [copies, heard.two] at offered
    have closes : z.closeReq = y.closeReqAfter f := by rw [offered.rest]
    refine ⟨z, heard, flag, offered.record, by rw [offered.rest], fun i hi => ?_, nofun, fun _ _ => ⟨?_, u,
      { y with merge := some k', closeReq := y.closeReqAfter f }, ?_, dests, offered⟩⟩
    · rw [offered.others i hi, others i hi, work.others hi]
    · rw [closes, Booking.closeReqAfter, state, closeReq]; rfl
    · exact work.sameQueues.trans queues

/-- A frame that is kept: its leg received, no more. -/
theorem mergeFrame_kept (free : s.NoActions) (hb : s.booking b = some x) (hl : x.leg l = some lg)
    (carrying : x.carrying = true)
    (kept : x.forwarding = false ∨ lg.clear = false ∧ (x.outage.any (·.flag) = true → x.anyUsable = false))
    (m : Moment) (p : PortIx) (bits : Option FrameBits) : let t := s.mergeFrame m p b l f bits
    ∃ y, t.booking b = some y ∧ Heard l (lg.received s.silenceEnd) x.merge x y ∧
      (x.forwarding = false → y.outage = x.outage) ∧ Work (.only b) s t := by
  obtain ⟨⟨y, hy, judged⟩, work, -⟩ := legReceives_spec free hb hl carrying m
  obtain ⟨verdict, merge⟩ := judged.heard_kept hl kept f.seq
  obtain ⟨outage, state⟩ := updLeg_outage x l (·.received s.silenceEnd)
  have same : s.mergeFrame m p b l f bits = s.legReceives m b l := by simp only [State.mergeFrame, hy, verdict]
  rw [same]
  refine ⟨y, hy, merge ▸ judged.heard hl, fun idle => (judged.idle ?_).trans outage, work⟩
  rw [Booking.forwarding, state]
  exact idle

/-! ## From the command (R54, R66) -/

/-- The entry of a frame of `n` bits that passes its policer at `now`. -/
def FlowEntry.spent (e : FlowEntry) (now n : Nat) : FlowEntry :=
  { e.refill now with tokens := (e.refill now).tokens - n }

theorem mediaFrame_passed (he : s.flowOf p f.label = some e) (room : f.payload.length * 8 ≤ (e.refill s.clock).tokens)
    (m : Moment) (bits : Option FrameBits) : s.mediaFrame m p f bits =
      (s.setFlow (e.spent s.clock (f.payload.length * 8))).mergeFrame m p e.booking e.leg f bits := by
  unfold State.mediaFrame
  rw [he]
  simp [FlowEntry.police, room, FlowEntry.spent]

/-- A MEDIA frame that passes its policer comes to the merge unit in a state `u` with the records and ports of
before. -/
theorem passing_received (h : s.NoActions) (up : (s.port p).link = .up) (on : (s.port p).role ≠ .off)
    (hf : readFrame bytes = some f) (kind : f.kind = .media) (he : s.flowOf p f.label = some e)
    (room : f.payload.length * 8 ≤ (e.refill (s.clock + m.dt)).tokens) : ∃ u t : State,
      u.NoActions ∧ u.bookings = s.bookings ∧
      u.ports = s.ports ∧ u.silenceEnd = s.clock + m.dt + s.silenceMs * 10000000 ∧
      exec (.frameReceived m p bytes) s = .next t ∧ KeepsSettings s t ∧
      t.flowOf p f.label = some (e.spent (s.clock + m.dt) (f.payload.length * 8)) ∧
      Settled m (u.mergeFrame m p e.booking e.leg f (headerBits bytes)) t := by
  obtain ⟨u, t, arrived, run, settled⟩ := mediaReceived h up on hf kind m
  have found : u.flowOf p f.label = some e := (arrived.flowOf ..).trans he
  rw [← arrived.clock] at room
  rw [mediaFrame_passed found room] at settled
  let full := e.spent u.clock (f.payload.length * 8)
  have work := work_mergeFrame m p e.booking e.leg f (headerBits bytes) (u.setFlow full)
  refine ⟨u.setFlow full, t, arrived.noActions, arrived.bookings, arrived.ports, ?_, run,
    (arrived.keeps.trans ((calm_setFlow full u).trans work.calm).keepsSettings).trans settled.keeps, ?_, settled⟩
  · show u.clock + u.silenceMs * 10000000 = _
    rw [arrived.clock, arrived.keeps.silenceMs]
  · rw [flowOf_congr settled.flows, flowOf_congr work.flows, ← arrived.clock]
    exact setFlow_flowOf found ⟨rfl, rfl⟩

/-- A copy at its destination: taken into the queue of its class, or dropped there. -/
theorem Offered.destination {r : Booking} {d : Dest} {i : Nat} {two : Bool}
    (h : Offered two b (copiesOf b x f) u w r z) (same : r.dests = x.dests) (queues : SameQueues s u)
    (onward : SameMedia (w.port d.port) (t.port d.port)) (hd : x.dests[i]? = some d) :
    let q := s.port d.port
    let copy := copyFor b f d i
    if q.link = .up ∧ q.role ≠ .off ∧ (if two then q.class1 else q.class2).length < 256 then
      z.dests[i]? = some d ∧ (t.port d.port).class1 = (if two then q.class1 ++ [copy] else q.class1) ∧
        (t.port d.port).class2 = (if two then q.class2 else q.class2 ++ [copy])
    else SameMedia q (t.port d.port) ∧ z.dests[i]? = some d.drop := by
  intro q copy
  have named : (d.port, copy) ∈ copiesOf b x f := mem_copiesOf.2 ⟨i, d, hd, rfl⟩
  have counted := h.counted _ named i rfl
  have queued := h.queued _ named
  obtain ⟨class1, class2⟩ := queues.media d.port
  simp only [same, hd, Option.map_some, queues.takes] at counted
  simp only [Port.offered, queues.takes] at queued
  obtain ⟨onward1, onward2⟩ := onward
  rw [queued] at onward1 onward2
  by_cases takes : q.takesCopy two = true
  · rw [if_pos ((q.takesCopy_iff two).1 takes)]
    rw [if_pos takes] at counted onward1 onward2
    refine ⟨counted, ?_, ?_⟩
    · rw [onward1]
      cases two <;> simp [Port.appendMedia, class1, q]
    · rw [onward2]
      cases two <;> simp [Port.appendMedia, class2, q]
  · rw [if_neg fun k => takes ((q.takesCopy_iff two).2 k)]
    rw [if_neg takes] at counted onward1 onward2
    exact ⟨⟨onward1.trans class1, onward2.trans class2⟩, counted⟩

/-- Settles O49: the leg receives and is judged, then the verdict writes the record and each copy goes to its own port
and destination. -/
theorem mediaIsForwarded : Obligations.MediaIsForwarded := by
  constructor
  · intro m p bytes f e x lg k s free up on hf kind he room hx live hl exIdent exWatch exManual hm nodup full v
    obtain ⟨u, t, kept, bookings, ports, silence, run, keeps, flow, settled⟩ :=
      passing_received free up on hf kind he room
    obtain ⟨y, z, heard, flag, merged⟩ := mergeFrame_clear (f := f) kept ((State.booking_congr bookings _).trans hx) hl
      (by simpa [Booking.forwarding] using live) (by simp [Leg.clear, exIdent, exWatch, exManual]) hm nodup m p
      (headerBits bytes)
    have legs : ∀ l, z.leg l = y.leg l := fun l => by rw [merged.rest]; cases l <;> rfl
    have start : SameQueues s u := .of_ports ports
    refine ⟨t, z, run, keeps, flow, (State.booking_congr settled.bookings _).trans merged.record, fun i hi => ?_, ?_,
      ?_, ?_, ?_, fun l hl => (legs l).trans (heard.others l hl), fun redundant => ?_, fun gap forward => ?_⟩
    · rw [State.booking_congr settled.bookings, merged.others i hi]
      exact State.booking_congr bookings i
    · rw [merged.rest, heard.rest]
    · rw [merged.rest]; rfl
    · rw [merged.rest]; exact flag
    · rw [legs, heard.leg, Leg.received, silence]
    · obtain ⟨dests, closeReq, queues⟩ := merged.redundant redundant
      exact ⟨dests, closeReq, fun q => ((start.trans queues).media q).trans (settled.media q)⟩
    · obtain ⟨closeReq, w, r, queues, same, offered⟩ := merged.forward gap forward
      refine ⟨closeReq, fun q hq => ?_, fun i d hd => ?_⟩
      · have unnamed := offered.absent q fun c hc e => by
          obtain ⟨i, d, hd, rfl⟩ := mem_copiesOf.1 hc
          exact hq (List.mem_map.2 ⟨d, List.mem_of_getElem? hd, e⟩)
        refine ((start.trans queues).media q).trans ?_
        rw [← unnamed]
        exact settled.media q
      · exact offered.destination same (start.trans queues) (settled.media d.port) hd
  · intro m p bytes f e x lg s free up on hf kind he room hx hl why full
    obtain ⟨u, t, kept, bookings, ports, silence, run, keeps, flow, settled⟩ :=
      passing_received free up on hf kind he room
    have carrying : x.carrying = true := by
      rcases why with armed | ⟨live | overrun, -⟩ <;> simp [Booking.carrying, *]
    have cause : x.forwarding = false ∨ lg.clear = false ∧ (x.outage.any (·.flag) = true → x.anyUsable = false) := by
      rcases why with armed | ⟨-, held, out⟩
      · exact .inl (by simp [Booking.forwarding, armed])
      · refine .inr ⟨?_, out⟩
        rcases held with held | held | held <;> simp [Leg.clear, held]
    obtain ⟨y, hy, heard, idle, work⟩ := mergeFrame_kept (f := f) kept ((State.booking_congr bookings _).trans hx) hl
      carrying cause m p (headerBits bytes)
    refine ⟨t, y, run, keeps, flow, (State.booking_congr settled.bookings _).trans hy, fun i hi => ?_, ?_, heard.others,
      heard.rest, fun armed => idle (by simp [Booking.forwarding, armed]), fun q => ?_⟩
    · rw [State.booking_congr settled.bookings, work.others hi]
      exact State.booking_congr bookings i
    · rw [heard.leg, Leg.received, silence]
    · exact ((SameQueues.of_ports ports).trans work.sameQueues).media q |>.trans (settled.media q)

end Sys2Proof.Machine
end

section
/-! MODE (R82, R83) and PATTERN SET (R84): their refusals in order, and their effects. -/

namespace Sys2Proof.Machine
open Sys2Proof.Config

variable {s t : State} {r : Req} {b : BookingIx} {x y : Booking} {m : Moment} {md : ProtectionMode}

/-! ## The checks of MODE (R83) -/

theorem acceptsMode_eq (x : Booking) :
    x.acceptsMode = decide (x.state ∈ [.pending, .confirmed, .armed, .live, .overrun]) := by
  simp [Booking.acceptsMode, Booking.carrying, Bool.or_assoc]

theorem checkMode_range {i : Nat} (h : 255 < i) (c : Nat) (s : State) :
    checkMode { index := i, mode := c } s = some .range := by simp [checkMode, h]

/-- MODE's checks on record `b`: the mode, where BACKUP_ONLY asks for a backup leg; then the restart and the record's
state. -/
theorem checkMode_val (b : BookingIx) (c : Nat) (s : State) : checkMode { index := b.val, mode := c } s =
    if 2 < c ∨ c = 2 ∧ (s.booking b).any (fun r => r.backup.isNone) = true then some .range
    else if s.restart = true ∨ (s.booking b).any Booking.acceptsMode = false then some .state
    else none := by
  have index : ¬ 255 < b.val := by omega
  simp only [checkMode, firstFailing_cons, firstFailing_nil, recordIs_val, Bool.or_eq_true, Bool.and_eq_true,
    decide_eq_true_eq, Bool.not_eq_true', index, false_or]
  cases s.restart <;> simp [ProtectionMode.code]

theorem checkMode_free (free : s.booking b = none) (c : Nat) :
    checkMode { index := b.val, mode := c } s = some (if c ≤ 2 then .state else .range) := by
  rw [checkMode_val, free]
  by_cases known : c ≤ 2 <;> simp [known]

/-- The checks on a record that is not FREE. -/
theorem checkMode_record (hb : s.booking b = some x) (c : Nat) : checkMode { index := b.val, mode := c } s =
    if ¬ (c ≤ 2 ∧ (c = 2 → x.backup ≠ none)) then some .range
    else if s.restart = true ∨ x.state ∉ [.pending, .confirmed, .armed, .live, .overrun] then some .state
    else none := by
  have range : (2 < c ∨ c = 2 ∧ x.backup.isNone = true) ↔ ¬ (c ≤ 2 ∧ (c = 2 → x.backup ≠ none)) := by
    rw [Option.isNone_iff_eq_none, not_and_or, Nat.not_le, Classical.not_imp, not_not]
  simp only [checkMode_val, hb, Option.any_some, acceptsMode_eq, decide_eq_false_iff_not, range]

/-! ## The effect of MODE (R82, R83) -/

theorem manualFor_eq (md : ProtectionMode) :
    manualFor md .main = decide (md = .backupOnly) ∧ manualFor md .backup = decide (md = .mainOnly) := by
  cases md <;> exact ⟨rfl, rfl⟩

theorem applyMode_carrying (carrying : x.carrying = true) (md : ProtectionMode) : x.applyMode md =
    { x with
      mode := md
      main := { x.main with exManual := decide (md = .backupOnly), exWatch := false }
      backup := x.backup.map fun l => { l with exManual := decide (md = .mainOnly), exWatch := false } } := by
  rw [Booking.applyMode, if_pos carrying, (manualFor_eq md).1, (manualFor_eq md).2]
  rfl

/-- Only LIVE and OVERRUN bookings are judged (R93). -/
theorem judge_idle (hb : s.booking b = some x) (idle : x.forwarding = false) (m : Moment) (ls : List LegId) :
    s.judge m b ls = s := by
  simp [State.judge, hb, idle]

/-- Before its legs are armed a record takes the mode alone. -/
theorem changeMode_planned (planned : x.state ∈ [.pending, .confirmed]) (m : Moment) (b : BookingIx)
    (md : ProtectionMode) (s : State) :
    s.changeMode m b x md = s.setBooking b (some { x with mode := md }) := by
  have idle : x.carrying = false ∧ x.forwarding = false := by
    rcases List.mem_pair.1 planned with h | h <;> simp [Booking.carrying, Booking.forwarding, h]
  have written : x.applyMode md = { x with mode := md } := if_neg (by simp [idle.1])
  rw [State.changeMode, written]
  exact judge_idle (x := { x with mode := md }) ((State.setBooking_booking ..).trans (if_pos rfl)) idle.2 m _

/-- The mode written and the legs judged: the record `b` moves alone, beside what a judgement does for it. -/
theorem changeMode_spec (m : Moment) (b : BookingIx) (x : Booking) (md : ProtectionMode) (s : State) :
    let t := s.changeMode m b x md
    (∃ y, t.booking b = some y ∧ Judged (x.applyMode md) y) ∧ Calm s t ∧ t.flows = s.flows ∧
      ∀ i, i ≠ b → t.booking i = s.booking i := by
  let v := s.setBooking b (some (x.applyMode md))
  have work : Work (.only b) v (s.changeMode m b x md) := work_judge_has m _ (Reach.only_has b v)
  have written : Calm s v := rfl
  exact ⟨judge_record ((State.setBooking_booking ..).trans (if_pos rfl)) m _, written.trans work.calm, work.flows,
    fun i hi => (work.others hi).trans ((State.setBooking_booking ..).trans (if_neg hi))⟩

/-- A judged booking is in outage exactly when it has no usable leg (R92, R93). -/
theorem Judged.outage_flag (h : Judged x y) (forwarding : x.forwarding = true) (some_ : x.outage ≠ none) :
    ∃ o, y.outage = some o ∧ o.flag = !y.anyUsable := by
  obtain ⟨o, ho⟩ := Option.ne_none_iff_exists'.1 some_
  obtain ⟨-, -, usable⟩ := h.legs
  have flag := h.flag forwarding
  rw [ho, ← usable] at flag
  exact Option.map_eq_some_iff.1 flag

/-- A MODE that passes its checks. -/
theorem actMode_accepted {c : Nat} (hb : s.booking b = some x) (passed : checkMode { index := b.val, mode := c } s = none)
    (hc : ProtectionMode.ofCode c = some md) : actMode m { index := b.val, mode := c } s =
      { state := s.changeMode m b x md, result := .ok, body := [] } := by
  refine (checked_none passed).trans ?_
  simp only [bookingIx_val, hb, hc]
  rfl

theorem mode_refused (h : FromOperator s r) {a : ModeArgs} {res : Result}
    (k : checkMode a (s.advance r.m) = some res) : ∃ t, exec (.mode r (some a)) s = .next t ∧
      AnsweredOnly (s.advance r.m) t r 28 res [] :=
  ⟨_, rfl, takeRequest_answered (h.advance r.m) (checked_some k)⟩

theorem mode_accepted (h : FromOperator s r) (hx : s.booking b = some x) {c : Nat}
    (range : c ≤ 2 ∧ (c = 2 → x.backup ≠ none)) (running : s.restart = false)
    (open_ : x.state ∈ [.pending, .confirmed] ∨ x.state ∈ [.armed, .live, .overrun])
    (hc : ProtectionMode.ofCode c = some md) : ∃ t, exec (.mode r (some { index := b.val, mode := c })) s = .next t ∧
      AnsweredOnly ((s.advance r.m).changeMode r.m b x md) t r 28 .ok [] := by
  have hx' : (s.advance r.m).booking b = some x := by simpa using hx
  have check := checkMode_record hx' c
  have accepts : x.state ∈ [.pending, .confirmed, .armed, .live, .overrun] := by simpa [or_assoc] using open_
  rw [if_neg (not_not_intro range), if_neg (not_or.2 ⟨by simp [running], not_not_intro accepts⟩)] at check
  exact ⟨_, rfl, takeRequest_answered (h.advance r.m) (actMode_accepted hx' check hc)⟩

/-- Settles O31: MODE by its checks in order, and the record by whether its legs are armed. -/
theorem modeWritesTheMode : Obligations.ModeWritesTheMode := by
  refine ⟨fun r i c s h hi => mode_refused h (checkMode_range hi c _),
    fun r b c s h free => mode_refused h (checkMode_free (by simpa using free) c), fun r b c x s h hx => ?_⟩
  have check := checkMode_record (s := s.advance r.m) (by simpa using hx) c
  rw [State.advance_restart] at check
  refine ⟨fun range => mode_refused h (by rw [check, if_pos range]),
    fun range barred => mode_refused h (by rw [check, if_neg (not_not_intro range), if_pos barred]),
    fun md range running hc planned => ?_, fun md range running hc armed => ?_⟩
  · obtain ⟨t, run, answered⟩ := mode_accepted h hx range running (.inl planned) hc
    rw [changeMode_planned planned] at answered
    exact ⟨t, run, answered⟩
  · obtain ⟨t, run, answered⟩ := mode_accepted h hx range running (.inr armed) hc
    obtain ⟨⟨y, hy, judged⟩, calm, flows, others⟩ := changeMode_spec r.m b x md (s.advance r.m)
    rw [applyMode_carrying (by rw [carrying_eq]; exact decide_eq_true armed)] at judged
    have rest := judged.rest
    refine ⟨t, _, y, run, answered, (keepsSettings_advance r.m s).trans (calm.trans answered.calm).keepsSettings, hy,
      by rw [rest], by rw [rest], by rw [rest], by rw [rest], fun i hi => (others i hi).trans (State.advance_booking ..),
      flows.trans (State.advance_flows ..), fun unarmed some_ => judged.outage_flag ?_ some_⟩
    simpa [Booking.forwarding, unarmed] using armed

/-! ## PATTERN SET (R84) -/

/-- The index of a PATTERN SET and its ident timeout lie in their ranges. -/
def PatternSetInRange (a : PatternSetArgs) : Prop :=
  (∀ w, a.target = some w → w.index ≤ 31) ∧ 2 ≤ a.identTimeout ∧ a.identTimeout ≤ 60

/-- A leg of a booking of the states CONFIRMED to OVERRUN carries the pattern that a PATTERN SET names. -/
def PatternSetUsed (a : PatternSetArgs) (s : State) : Prop :=
  ∃ w b x, a.target = some w ∧ s.booking b = some x ∧ x.state ∈ [.confirmed, .armed, .live, .overrun] ∧
    ∃ l ∈ x.legs, ∃ i : PatternIx, l.pattern = some i ∧ i.val = w.index

theorem patternIx_of_le {n : Nat} (h : n ≤ 31) : (patternIx n).val = n := Nat.mod_eq_of_lt (by omega)

theorem barsPattern_iff {n : Nat} (h : n ≤ 31) (x : Booking) : x.barsPattern (patternIx n) = true ↔
    x.state ∈ [.confirmed, .armed, .live, .overrun] ∧ ∃ l ∈ x.legs, ∃ i : PatternIx, l.pattern = some i ∧ i.val = n := by
  have named : ∀ l : Leg, l.pattern = some (patternIx n) ↔ ∃ i : PatternIx, l.pattern = some i ∧ i.val = n := fun l =>
    ⟨fun e => ⟨_, e, patternIx_of_le h⟩, fun ⟨i, e, same⟩ => by rw [e, ← same, patternIx_val]⟩
  simp [Booking.barsPattern, Booking.carrying, named]

theorem patternSetUsed_iff {a : PatternSetArgs} (h : PatternSetInRange a) (s : State) :
    (a.target.any fun w => s.anyBooking fun r => r.barsPattern (patternIx w.index)) = true ↔ PatternSetUsed a s := by
  simp only [Option.any_eq_true, anyBooking_iff, PatternSetUsed]
  constructor
  · rintro ⟨w, hw, b, x, hx, bars⟩
    exact ⟨w, b, x, hw, hx, (barsPattern_iff (h.1 w hw) x).1 bars⟩
  · rintro ⟨w, b, x, hw, hx, used⟩
    exact ⟨w, hw, b, x, hx, (barsPattern_iff (h.1 w hw) x).2 used⟩

theorem checkPatternSet_range {a : PatternSetArgs} (h : ¬ PatternSetInRange a) (s : State) :
    checkPatternSet a s = some .range := by
  have failing : ((a.target.any fun w => decide (31 < w.index)) || outside 2 60 a.identTimeout) = true := by
    by_contra passes
    rw [Bool.not_eq_true, Bool.or_eq_false_iff, outside_eq_false, Option.any_eq_false] at passes
    exact h ⟨fun w hw => by simpa using passes.1 w hw, passes.2⟩
  simp [checkPatternSet, failing]

theorem checkPatternSet_inRange {a : PatternSetArgs} (h : PatternSetInRange a) (s : State) : checkPatternSet a s =
    if s.restart then some .state
    else if a.target.any fun w => s.anyBooking fun r => r.barsPattern (patternIx w.index) then some .inUse
    else none := by
  have index : (a.target.any fun w => decide (31 < w.index)) = false :=
    (Option.any_eq_false ..).2 fun w hw => by simpa using h.1 w hw
  have timeout : outside 2 60 a.identTimeout = false := (outside_eq_false ..).2 h.2
  simp [checkPatternSet, index, timeout]

theorem patternSetUsed_advance (a : PatternSetArgs) (m : Moment) (s : State) :
    PatternSetUsed a (s.advance m) ↔ PatternSetUsed a s := by simp [PatternSetUsed]

/-- An accepted PATTERN SET writes the one pattern it names. -/
theorem writePattern_named {a : PatternSetArgs} {w : PatternWrite} (h : PatternSetInRange a) (named : a.target = some w)
    (s : State) (i : PatternIx) : (s.writePattern a).patterns[i] =
      if i.val = w.index then some { reference := w.reference, mask := w.mask } else s.patterns[i] := by
  have ix := patternIx_of_le (h.1 w named)
  simp only [State.writePattern, named, Fin.getElem_fin, Vector.getElem_set, ix, eq_comm (a := w.index)]
  rfl

theorem writePattern_unnamed {a : PatternSetArgs} (h : a.target = none) (s : State) :
    (s.writePattern a).patterns = s.patterns := by simp only [State.writePattern, h]

/-- Settles O33: PATTERN SET by its checks in order, and what it writes. -/
theorem patternSetWritesThePattern : Obligations.PatternSetWritesThePattern := by
  intro r a s h
  have refused : ∀ res, checkPatternSet a (s.advance r.m) = some res →
      ∃ t, exec (.patternSet r (some a)) s = .next t ∧ AnsweredOnly (s.advance r.m) t r 32 res [] :=
    fun res k => ⟨_, rfl, takeRequest_answered (h.advance r.m) (checked_some k)⟩
  have check := fun range : PatternSetInRange a => checkPatternSet_inRange range (s.advance r.m)
  have used := fun range : PatternSetInRange a =>
    (patternSetUsed_iff range (s.advance r.m)).trans (patternSetUsed_advance a r.m s)
  simp only [State.advance_restart] at check
  refine ⟨fun range => refused _ (checkPatternSet_range range _), fun range restart => refused _ ?_,
    fun range running inUse => refused _ ?_, fun range running free => ?_⟩
  · rw [check range, if_pos restart]
  · rw [check range, if_neg (by simp [running]), if_pos ((used range).2 inUse)]
  · have passed : checkPatternSet a (s.advance r.m) = none := by
      rw [check range, if_neg (by simp [running]), if_neg (mt (used range).1 free)]
    refine ⟨_, (s.advance r.m).writePattern a, rfl, takeRequest_answered (h.advance r.m) ?_, ?_, fun i => ?_⟩
    · refine (checked_none passed).trans ?_
      by_cases k : 50 ≤ a.silenceMs ∧ a.silenceMs ≤ 1000
      · rw [if_pos k, (outside_eq_false ..).2 k]; rfl
      · rw [if_neg k, (outside_eq_true ..).2 k]; rfl
    · have silence : clamp 50 1000 a.silenceMs = max 50 (min 1000 a.silenceMs) := by unfold clamp; omega
      rw [← silence]
      rfl
    · rw [← State.advance_patterns s r.m]
      cases target : a.target with
      | some w => exact writePattern_named range target _ i
      | none => rw [writePattern_unnamed target]

end Sys2Proof.Machine
end

section
/-! The merge test (R90): its verdict by the distance of a frame from the last one forwarded. -/

namespace Sys2Proof.Machine
open Sys2Proof.Config

variable {k : MergeState} {l l' : LegId} {seq last gap : Nat}

/-- The distance counts up from the last number to the frame's, modulo 65,536 (chapter 0). -/
theorem seqDistance_cast (seq last : Nat) : (seqDistance seq last : Int) = ((seq : Int) - last) % 65536 := by
  unfold seqDistance
  omega

theorem seqDistance_self (seq : Nat) : seqDistance seq seq = 0 := by
  have cast := seqDistance_cast seq seq
  rw [Int.sub_self, Int.zero_emod] at cast
  exact Int.natCast_eq_zero.1 cast

theorem test_resync (h : k.resync = true) (l : LegId) (seq : Nat) :
    k.test l seq = (.forward 0, { k with lastFwd := some seq, resync := false }) := if_pos h

/-- Without a resync the distance decides: a copy, or an old frame; the next one, or one behind a gap that is counted; a
frame beyond the largest counted gap. -/
theorem test_distance (steady : k.resync = false) (h : k.lastFwd = some last) (l : LegId) (seq : Nat) :
    k.test l seq =
      if seqDistance seq last = 0 ∨ 32768 ≤ seqDistance seq last then
        (.redundant, k.updCounts l fun c => { c with redundant := wrapAdd c.redundant 1 })
      else if seqDistance seq last - 1 ≤ maxCountedGap then
        (.forward (seqDistance seq last - 1),
          { k with lastFwd := some seq, loss := holdAdd k.loss (seqDistance seq last - 1) })
      else (.forward 0, { k with lastFwd := some seq, resyncCount := wrapAdd k.resyncCount 1 }) := by
  simp only [MergeState.test, steady, h, Option.getD_some, Bool.false_eq_true, if_false]

/-- A frame forwarded is the last one forwarded, and no resync waits. -/
theorem test_forward (h : (k.test l seq).1 = .forward gap) :
    (k.test l seq).2.lastFwd = some seq ∧ (k.test l seq).2.resync = false := by
  cases resync : k.resync with
  | true => rw [test_resync resync]; exact ⟨rfl, rfl⟩
  | false =>
    simp only [MergeState.test, resync, Bool.false_eq_true, if_false] at h ⊢
    split at h
    · cases h
    · next new =>
      rw [if_neg new]
      split <;> exact ⟨rfl, rfl⟩

theorem test_redundant_of_last (steady : k.resync = false) (h : k.lastFwd = some seq) (l : LegId) :
    (k.test l seq).1 = .redundant := by
  rw [test_distance steady h, if_pos (.inl (seqDistance_self seq))]

/-- Settles O51: the branches of the merge test by the distance, and a repeated frame at distance 0. -/
theorem mergeTestForwardsOnce : Obligations.MergeTestForwardsOnce := by
  refine ⟨fun k l seq last steady h _ _ => ?_, fun k l seq resync => test_resync resync l seq,
    fun k l l' seq gap forward => ?_⟩
  · have cast := seqDistance_cast seq last
    have test := test_distance steady h l seq
    intro d
    have same : d = seqDistance seq last := cast.symm
    clear_value d
    subst same
    refine ⟨fun low high => ?_, fun low high => ?_, fun outer => ?_⟩
    · rw [test, if_neg (by omega), if_pos (by simp only [maxCountedGap]; omega)]
      have gap : ((seqDistance seq last : Int) - 1).toNat = seqDistance seq last - 1 := by omega
      rw [gap]
      rfl
    · rw [test, if_neg (by omega), if_neg (by simp only [maxCountedGap]; omega)]
      rfl
    · rw [test, if_pos (by omega)]
      cases l <;> rfl
  · obtain ⟨last, steady⟩ := test_forward forward
    exact test_redundant_of_last steady last l'

end Sys2Proof.Machine
end

section
/-! The leg timers (R80, R87): a silence timer and an ident timeout that expire, each at its instant, and what a judgement
raises as it begins an outage (R92). -/

namespace Sys2Proof.Machine
open Sys2Proof.Config

variable {s t u v : State} {m : Moment} {b : BookingIx} {x y : Booking} {l : LegId} {lg : Leg} {due : Nat}

/-! ## The instant of a timer (log entry 3) -/

/-- The state at a timer's instant, or at the command's when that is later. -/
def State.atTimer (s : State) (m : Moment) (due : Nat) : State := (s.advance m).elapseTo due

@[simp] theorem atTimer_clock (s : State) (m : Moment) (due : Nat) : (s.atTimer m due).clock = max (s.clock + m.dt) due := by
  simp [State.atTimer, State.elapseTo]
  omega

@[simp] theorem atTimer_booking (s : State) (m : Moment) (due : Nat) (b : BookingIx) :
    (s.atTimer m due).booking b = s.booking b := State.advance_booking ..

theorem atTimer_noActions (free : s.NoActions) (m : Moment) (due : Nat) : (s.atTimer m due).NoActions :=
  free.congr (State.advance_counters ..)

theorem keepsSettings_atTimer (s : State) (m : Moment) (due : Nat) : KeepsSettings s (s.atTimer m due) := by
  constructor <;> simp [State.atTimer, State.elapseTo]

theorem advance_legOf (s : State) (m : Moment) (b : BookingIx) (l : LegId) : (s.advance m).legOf b l = s.legOf b l := by
  simp [State.legOf]

theorem legOf_record (hx : s.booking b = some x) (hl : x.leg l = some lg) : s.legOf b l = some lg := by
  rw [State.legOf, hx, Option.bind_some, hl]

theorem silenceTimer_runs (hx : s.booking b = some x) (hl : x.leg l = some lg) (runs : lg.silenceAt = some due)
    (m : Moment) : exec (.silenceTimerExpiry m b l) s = .next (((s.atTimer m due).legSilent m b l).flush m) := by
  show execSilenceTimerExpiry m b l s = _
  simp only [execSilenceTimerExpiry, advance_legOf, legOf_record hx hl, Option.bind_some, runs]
  rfl

theorem identTimeout_runs (hx : s.booking b = some x) (hl : x.leg l = some lg) (runs : lg.identAt = some due)
    (m : Moment) : exec (.identTimeoutExpiry m b l) s = .next (((s.atTimer m due).identExpire m b l).flush m) := by
  show execIdentTimeoutExpiry m b l s = _
  simp only [execIdentTimeoutExpiry, advance_legOf, legOf_record hx hl, Option.bind_some, runs]
  rfl

/-- A field that every leg named lacks. -/
theorem legOf_lacks {α : Type} {g : Leg → Option α}
    (h : ∀ x lg, s.booking b = some x → x.leg l = some lg → g lg = none) : (s.legOf b l).bind g = none := by
  simp only [State.legOf, Option.bind_eq_none_iff, Option.bind_eq_some_iff]
  rintro lg ⟨x, hx, hl⟩
  exact h x lg hx hl

/-! ## A leg that moves (R80, R87, R92) -/

/-- A booking of LIVE or OVERRUN that leaves its last usable leg enters outage with FEED_LOST (R92). -/
theorem judge_feedLost (hb : s.booking b = some x) (forwarding : x.forwarding = true)
    (outside : x.outage.any (·.flag) = false) (unusable : x.anyUsable = false) (m : Moment) (ls : List LegId) :
    ∃ r ∈ (s.judge m b ls).raised, r.cls = .feedLost := by
  have entered : s.judge m b ls = s.enterOutage m b := by simp [State.judge, hb, forwarding, outside, unusable]
  let raised := s.raise .feedLost (.ofBooking b) none
  obtain ⟨others, grown, -⟩ := (work_trackEntry m (Reach.all_has raised b)).raised
  rw [entered]
  refine ⟨{ cls := .feedLost, items := .ofBooking b, detail := none }, ?_, rfl⟩
  show _ ∈ (raised.trackEntry m b).raised
  rw [grown]
  exact List.mem_append_left _ (List.mem_append_right _ (List.mem_singleton_self _))

/-- What a leg of booking `b` that becomes `lg` and the judgement that follows leave of the state: they work on the
record `b` alone. -/
structure Moved (b : BookingIx) (l : LegId) (lg : Leg) (x : Booking) (s t : State) (y : Booking) : Prop where
  record : t.booking b = some y
  change : LegMoved l lg x y
  others : ∀ i, i ≠ b → t.booking i = s.booking i
  calm : Calm s t
  feedLost : x.state = .live ∨ x.state = .overrun → x.outage.any (·.flag) = false → y.anyUsable = false →
    ∃ r ∈ t.raised, r.cls = .feedLost

/-- The leg written in `v`, with or without a raise, and judged. -/
theorem judge_moved {g : Leg → Leg} (hl : x.leg l = some lg) (work : Work (.only b) s v)
    (hv : v.booking b = some (x.updLeg l g)) (m : Moment) (ls : List LegId) :
    ∃ y, Moved b l (g lg) x s (v.judge m b ls) y := by
  have judgement : Work (.only b) v (v.judge m b ls) := work_judge_has m ls (Reach.only_has b v)
  obtain ⟨y, hy, judged⟩ := judge_record hv m ls
  obtain ⟨-, -, usable⟩ := judged.legs
  obtain ⟨outage, state⟩ := updLeg_outage x l g
  refine ⟨y, hy, judged.legMoved hl, fun i hi => (work.trans judgement).others hi, (work.trans judgement).calm,
    fun live outside unusable => judge_feedLost hv ?_ (by rw [outage]; exact outside) ?_ m ls⟩
  · simpa [Booking.forwarding, state] using live
  · rw [← usable]; exact unusable

/-- A leg that waits or receives becomes SILENT: LEG_SILENT is raised, and its record judged (R80, R92). -/
theorem legSilent_moved (free : s.NoActions) (hb : s.booking b = some x) (hl : x.leg l = some lg)
    (runs : lg.state = .waiting ∨ lg.state = .receiving) (m : Moment) : let t := s.legSilent m b l
    (∃ y, Moved b l { lg with state := .silent, silenceAt := none } x s t y) ∧
      ∃ r ∈ t.raised, r.cls = .legSilent := by
  let g : Leg → Leg := fun z => { z with state := .silent, silenceAt := none }
  let event : WatchEvent :=
    { kind := .legSilentEntries, port := some lg.port, booking := some b, leg := some l, bits := none, weight := 1 }
  let v := (s.updBooking b fun r => r.updLeg l g).raise .legSilent (.ofLeg lg.port b l) none
  have written : v.booking b = some (x.updLeg l g) := (updBooking_booking hb _ b).trans (if_pos rfl)
  have work : Work (.only b) s v := (work_updLeg (f := g) (Reach.only_has b s) fun _ => rfl).trans
    (.of (.raise (c := .legSilent) (by simp [FaultClass.ofWork]) _ _))
  have silent : s.legSilent m b l = (v.judge m b [l]).watch m event := by
    simp only [State.legSilent, hb, hl, runs, if_true]
    rfl
  obtain ⟨y, moved⟩ := judge_moved hl work written m [l]
  have judgement : Work (.only b) v (v.judge m b [l]) := work_judge_has m _ (Reach.only_has b v)
  have kept : (v.judge m b [l]).NoActions := free.congr ((work.trans judgement).counters id)
  have counts := (onlyCounts_watch kept m event).1
  obtain ⟨_, grown, -⟩ := (work_watch Reach.all_watches m event (v.judge m b [l])).raised
  have still : ∀ c : FaultClass, (∃ r ∈ (v.judge m b [l]).raised, r.cls = c) →
      ∃ r ∈ ((v.judge m b [l]).watch m event).raised, r.cls = c := fun c ⟨r, hr, hc⟩ =>
    ⟨r, by rw [grown]; exact List.mem_append_left _ hr, hc⟩
  rw [silent]
  refine ⟨⟨y, ?_, moved.change, fun i hi => ?_, moved.calm.trans counts.calm, fun live outside unusable =>
    still _ (moved.feedLost live outside unusable)⟩,
    still _ ⟨{ cls := .legSilent, items := .ofLeg lg.port b l, detail := none }, judge_raised m b [l] ?_, rfl⟩⟩
  · rw [State.booking_congr counts.bookings, moved.record]
  · rw [State.booking_congr counts.bookings, moved.others i hi]
  · exact List.mem_append_right _ (List.mem_singleton_self _)

/-- A leg whose ident timeout ends is UNCONFIRMED, and held out by IDENT where its policy is REQUIRE (R87). -/
theorem identExpire_moved (hb : s.booking b = some x) (hl : x.leg l = some lg) (m : Moment) :
    ∃ y, Moved b l { lg with ident := some .unconfirmed, identAt := none,
                             exIdent := lg.exIdent || decide (lg.policy = .require) } x s (s.identExpire m b l) y := by
  let g : Leg → Leg := fun z =>
    { z with ident := some .unconfirmed, identAt := none, exIdent := z.exIdent || decide (lg.policy = .require) }
  have written := (updBooking_booking hb (fun r => r.updLeg l g) b).trans (if_pos rfl)
  simp only [State.identExpire, hb, hl]
  exact judge_moved hl (work_updLeg (f := g) (Reach.only_has b s) fun _ => rfl) written m _

/-- What an expiry's work `t` at the timer's instant leaves when the command is over. -/
theorem Moved.expired (h : Moved b l lg x (s.atTimer m due) t y) : let z := t.flush m
    KeepsSettings s z ∧ z.clock = max (s.clock + m.dt) due ∧ z.booking b = some y ∧
      ∀ i, i ≠ b → z.booking i = s.booking i := by
  have settled := flush_settled m t
  refine ⟨((keepsSettings_atTimer s m due).trans h.calm.keepsSettings).trans settled.keeps, ?_,
    (State.booking_congr settled.bookings b).trans h.record, fun i hi => ?_⟩
  · exact (onward_flush m t).clock.trans (h.calm.clock.trans (atTimer_clock s m due))
  · rw [State.booking_congr settled.bookings, h.others i hi, atTimer_booking]

/-- Settles O53: each timer's work moves its leg alone and has the record judged; one that does not run is left. -/
theorem legTimersExpire : Obligations.LegTimersExpire := by
  refine ⟨fun m b l x lg due s free hx hl runs receiving => ?_, fun m b l x lg due s hx hl runs => ?_,
    fun m b l s => ⟨fun idle => ?_, fun idle => ?_⟩⟩
  · obtain ⟨⟨y, moved⟩, silent⟩ := legSilent_moved (atTimer_noActions free m due)
      ((atTimer_booking s m due b).trans hx) hl (.inr receiving) m
    obtain ⟨keeps, clock, record, others⟩ := moved.expired
    have flags := (flush_settled m ((s.atTimer m due).legSilent m b l)).flags
    exact ⟨_, y, silenceTimer_runs hx hl runs m, keeps, clock, record, others, moved.change.state, moved.change.leg,
      moved.change.others, flags _ silent, moved.change.outage,
      fun live outside unusable => flags _ (moved.feedLost live outside unusable)⟩
  · obtain ⟨y, moved⟩ := identExpire_moved ((atTimer_booking s m due b).trans hx) hl m
    obtain ⟨keeps, clock, record, others⟩ := moved.expired
    exact ⟨_, y, identTimeout_runs hx hl runs m, keeps, clock, record, others, moved.change.state, moved.change.leg,
      moved.change.others, moved.change.outage⟩
  · show execSilenceTimerExpiry m b l s = _
    simp only [execSilenceTimerExpiry, advance_legOf, legOf_lacks idle]
  · show execIdentTimeoutExpiry m b l s = _
    simp only [execIdentTimeoutExpiry, advance_legOf, legOf_lacks idle]

end Sys2Proof.Machine
end

section
/-! The peak search (R106): the peaks it declares, and when it declares one. -/

namespace Sys2Proof.Machine

variable {threshold shadow first i x v : Nat} {sample : Nat → Option Nat} {c : Option Candidate} {k : Candidate}
  {peak : Peak} {xs low : List Nat}

/-! ## Samples with their indexes -/

/-- The samples `xs` with their indexes, from `first` on. -/
def indexed (first : Nat) (xs : List Nat) : List (Nat × Nat) := (xs.zipIdx first).map fun x => (x.2, x.1)

@[simp] theorem indexed_nil (first : Nat) : indexed first [] = [] := rfl

@[simp] theorem indexed_cons (first x : Nat) (xs : List Nat) :
    indexed first (x :: xs) = (first, x) :: indexed (first + 1) xs := by simp [indexed]

theorem indexed_append (first : Nat) (xs ys : List Nat) :
    indexed first (xs ++ ys) = indexed first xs ++ indexed (first + xs.length) ys := by
  simp [indexed, List.zipIdx_append]

/-! ## One index of the search -/

theorem searchPeaks_cons (threshold shadow : Nat) (c : Option Candidate) (i x : Nat) (rest : List (Nat × Nat)) :
    searchPeaks threshold shadow c ((i, x) :: rest) = (searchStep threshold shadow c i x).2.toList ++
      searchPeaks threshold shadow (searchStep threshold shadow c i x).1 rest := rfl

theorem searchStep_quiet (h : x ≤ threshold) (shadow i : Nat) :
    searchStep threshold shadow none i x = (none, none) := by simp [searchStep, Nat.not_lt.2 h]

theorem searchStep_opens (h : threshold < x) (shadow i : Nat) :
    searchStep threshold shadow none i x = (some { index := i, amplitude := x, run := 0 }, none) := by
  simp [searchStep, h]

theorem searchStep_higher (h : k.amplitude < x) (threshold shadow i : Nat) :
    searchStep threshold shadow (some k) i x = (some { index := i, amplitude := x, run := 0 }, none) := by
  simp [searchStep, h]

theorem searchStep_equal (h : x = k.amplitude) (threshold shadow i : Nat) :
    searchStep threshold shadow (some k) i x = (some { k with run := 0 }, none) := by
  simp [searchStep, h]

theorem searchStep_full (h : x < k.amplitude) (full : k.run + 1 = shadow) (threshold i : Nat) :
    searchStep threshold shadow (some k) i x = (none, some { index := k.index, amplitude := k.amplitude }) := by
  simp [searchStep, Nat.not_lt.2 h.le, h.ne, full]

theorem searchStep_lower (h : x < k.amplitude) (open_ : k.run + 1 ≠ shadow) (threshold i : Nat) :
    searchStep threshold shadow (some k) i x = (some { k with run := k.run + 1 }, none) := by
  simp [searchStep, Nat.not_lt.2 h.le, h.ne, open_]

/-! ## What the peaks are -/

/-- The candidate before index `i`: a sample above the threshold that no later sample exceeds, and its run of lower ones. -/
structure Candidate.Holds (sample : Nat → Option Nat) (threshold i : Nat) (k : Candidate) : Prop where
  above : threshold < k.amplitude
  own : sample k.index = some k.amplitude
  behind : k.index + k.run < i
  bound : ∀ n, k.index ≤ n → n < i → ∃ x, sample n = some x ∧ x ≤ k.amplitude
  lower : ∀ n x, i ≤ n + k.run → n < i → sample n = some x → x < k.amplitude

/-- A peak: a sample above the threshold that no sample up to the end of its run exceeds, and as many lower samples in a row
as the shadow length. -/
structure Peak.Stands (sample : Nat → Option Nat) (threshold shadow : Nat) (peak : Peak) : Prop where
  above : threshold < peak.amplitude
  own : sample peak.index = some peak.amplitude
  run : ∃ j, peak.index + shadow ≤ j ∧ (∀ n, peak.index ≤ n → n ≤ j → ∃ x, sample n = some x ∧ x ≤ peak.amplitude) ∧
    ∀ n x, j < n + shadow → n ≤ j → sample n = some x → x < peak.amplitude

theorem Candidate.Holds.fresh (hx : sample i = some x) (above : threshold < x) :
    Candidate.Holds sample threshold (i + 1) { index := i, amplitude := x, run := 0 } where
  above := above
  own := hx
  behind := by simp
  bound n h1 h2 := by
    obtain rfl : n = i := by dsimp only at h1; omega
    exact ⟨x, hx, le_rfl⟩
  lower n y h1 h2 := by dsimp only at h1; omega

/-- What holds up to `i` holds up to the sample there, when it is no higher. -/
theorem Candidate.Holds.bound_succ (h : k.Holds sample threshold i) (hx : sample i = some x) (le : x ≤ k.amplitude)
    (n : Nat) (h1 : k.index ≤ n) (h2 : n < i + 1) : ∃ y, sample n = some y ∧ y ≤ k.amplitude := by
  rcases Nat.lt_succ_iff_lt_or_eq.1 h2 with before | rfl
  · exact h.bound n h1 before
  · exact ⟨x, hx, le⟩

theorem Candidate.Holds.equal (h : k.Holds sample threshold i) (hx : sample i = some x) (eq : x = k.amplitude) :
    Candidate.Holds sample threshold (i + 1) { k with run := 0 } where
  above := h.above
  own := h.own
  behind := by have := h.behind; dsimp only; omega
  bound := h.bound_succ hx eq.le
  lower n y h1 h2 := by dsimp only at h1; omega

theorem Candidate.Holds.lower_succ (h : k.Holds sample threshold i) (hx : sample i = some x) (lt : x < k.amplitude)
    (n y : Nat) (h1 : i + 1 ≤ n + (k.run + 1)) (h2 : n < i + 1) (hy : sample n = some y) : y < k.amplitude := by
  rcases Nat.lt_succ_iff_lt_or_eq.1 h2 with before | rfl
  · exact h.lower n y (by omega) before hy
  · obtain rfl : x = y := Option.some_inj.1 (hx.symm.trans hy)
    exact lt

theorem Candidate.Holds.counted (h : k.Holds sample threshold i) (hx : sample i = some x) (lt : x < k.amplitude) :
    Candidate.Holds sample threshold (i + 1) { k with run := k.run + 1 } where
  above := h.above
  own := h.own
  behind := by have := h.behind; dsimp only; omega
  bound := h.bound_succ hx lt.le
  lower := h.lower_succ hx lt

theorem Candidate.Holds.stands (h : k.Holds sample threshold i) (hx : sample i = some x) (lt : x < k.amplitude)
    (full : k.run + 1 = shadow) :
    Peak.Stands sample threshold shadow { index := k.index, amplitude := k.amplitude } where
  above := h.above
  own := h.own
  run := by
    have behind := h.behind
    refine ⟨i, by dsimp only; omega, fun n h1 h2 => h.bound_succ hx lt.le n h1 (by omega), fun n y h1 h2 hy => ?_⟩
    exact h.lower_succ hx lt n y (by omega) (by omega) hy

/-- No peak stands before this index while the search is at `i`: the candidate's, if there is one. -/
def earliest (c : Option Candidate) (i : Nat) : Nat := (c.map (·.index)).getD i

/-- A step that declares a peak leaves no candidate. -/
theorem searchStep_keeps (h : ∀ k, c = some k → k.Holds sample threshold i) (hx : sample i = some x) (shadow : Nat) :
    (∃ c', searchStep threshold shadow c i x = (c', none) ∧ (∀ k, c' = some k → k.Holds sample threshold (i + 1)) ∧
      earliest c i ≤ earliest c' (i + 1)) ∨
    ∃ peak, searchStep threshold shadow c i x = (none, some peak) ∧ peak.Stands sample threshold shadow ∧
      earliest c i = peak.index ∧ peak.index ≤ i := by
  cases c with
  | none =>
    left
    by_cases above : threshold < x
    · refine ⟨_, searchStep_opens above shadow i, fun k hk => ?_, le_rfl⟩
      obtain rfl := Option.some_inj.1 hk
      exact .fresh hx above
    · exact ⟨_, searchStep_quiet (Nat.not_lt.1 above) shadow i, by simp, Nat.le_succ i⟩
  | some k =>
    have holds := h k rfl
    have behind := holds.behind
    have above := holds.above
    rcases Nat.lt_trichotomy x k.amplitude with lower | equal | higher
    · by_cases full : k.run + 1 = shadow
      · exact .inr ⟨_, searchStep_full lower full threshold i, holds.stands hx lower full, rfl, by dsimp only; omega⟩
      · refine .inl ⟨_, searchStep_lower lower full threshold i, fun k' hk => ?_, le_rfl⟩
        obtain rfl := Option.some_inj.1 hk
        exact holds.counted hx lower
    · refine .inl ⟨_, searchStep_equal equal threshold shadow i, fun k' hk => ?_, le_rfl⟩
      obtain rfl := Option.some_inj.1 hk
      exact holds.equal hx equal
    · refine .inl ⟨_, searchStep_higher higher threshold shadow i, fun k' hk => ?_, ?_⟩
      · obtain rfl := Option.some_inj.1 hk
        exact .fresh hx (above.trans higher)
      · show k.index ≤ i
        omega

/-- The peaks a search declares stand in rising order. -/
theorem searchPeaks_stand (shadow : Nat) (samples : ∀ n (h : n < xs.length), sample (i + n) = some xs[n])
    (holds : ∀ k, c = some k → k.Holds sample threshold i) :
    let peaks := searchPeaks threshold shadow c (indexed i xs)
    peaks.Pairwise (fun a c => a.index < c.index) ∧
      ∀ peak ∈ peaks, peak.Stands sample threshold shadow ∧ earliest c i ≤ peak.index := by
  induction xs generalizing i c with
  | nil => exact ⟨.nil, fun peak h => nomatch h⟩
  | cons x xs ih =>
    have here : sample i = some x := samples 0 (by simp)
    have later : ∀ n (h : n < xs.length), sample (i + 1 + n) = some xs[n] := fun n h => by
      rw [Nat.add_assoc, Nat.add_comm 1 n]
      exact samples (n + 1) (by simpa using h)
    rw [indexed_cons, searchPeaks_cons]
    rcases searchStep_keeps holds here shadow with ⟨c', step, holds', from_⟩ | ⟨peak, step, stands, at_, le⟩
    · rw [step]
      obtain ⟨rising, all⟩ := ih later holds'
      exact ⟨rising, fun peak hp => ⟨(all peak hp).1, from_.trans (all peak hp).2⟩⟩
    · rw [step]
      obtain ⟨rising, all⟩ := ih (c := none) later fun k hk => nomatch hk
      have behind : ∀ q ∈ searchPeaks threshold shadow none (indexed (i + 1) xs), peak.index < q.index := fun q hq => by
        have : i + 1 ≤ q.index := (all q hq).2
        omega
      refine ⟨List.pairwise_cons.2 ⟨behind, rising⟩, fun q hq => ?_⟩
      rcases List.mem_cons.1 hq with rfl | hq
      · exact ⟨stands, at_.le⟩
      · exact ⟨(all q hq).1, at_.le.trans (behind q hq).le⟩

/-! ## When a peak is declared -/

/-- The samples from `i` on, as many as the shadow length, are all lower than `x`. -/
def FullRun (shadow x : Nat) (low : List Nat) (i : Nat) : Prop :=
  i + shadow ≤ low.length ∧ ∀ j, i ≤ j → j < i + shadow → ∃ v, low[j]? = some v ∧ v < x

/-- The number of samples lower than `x` that stand in a row at the end. -/
def trailingRun (x : Nat) (low : List Nat) : Nat := (low.reverse.takeWhile fun v => decide (v < x)).length

theorem trailingRun_lower (h : v < x) (low : List Nat) : trailingRun x (low ++ [v]) = trailingRun x low + 1 := by
  simp [trailingRun, h]

theorem trailingRun_equal (x : Nat) (low : List Nat) : trailingRun x (low ++ [x]) = 0 := by simp [trailingRun]

theorem FullRun.append (h : FullRun shadow x low i) (more : List Nat) : FullRun shadow x (low ++ more) i := by
  obtain ⟨fits, lower⟩ := h
  refine ⟨by rw [List.length_append]; omega, fun j h1 h2 => ?_⟩
  rw [List.getElem?_append_left (by omega)]
  exact lower j h1 h2

/-- The run at the end is as long as the shadow length exactly when the last samples are a full run. -/
theorem le_trailingRun_iff : shadow ≤ trailingRun x low ↔
    shadow ≤ low.length ∧ FullRun shadow x low (low.length - shadow) := by
  induction low using List.reverseRecOn generalizing shadow with
  | nil =>
    cases shadow with
    | zero => simp [FullRun]
    | succ n => simp [trailingRun]
  | append_singleton low v ih =>
    cases shadow with
    | zero =>
      exact ⟨fun _ => ⟨Nat.zero_le _, le_rfl, fun j h1 h2 => absurd h1 (Nat.not_le.2 h2)⟩, fun _ => Nat.zero_le _⟩
    | succ n =>
      have last : (low ++ [v])[low.length]? = some v := by simp
      by_cases lower : v < x
      · rw [trailingRun_lower lower, Nat.succ_le_succ_iff, ih]
        constructor
        · rintro ⟨long, fits, run⟩
          refine ⟨by simpa using long, by simp; omega, fun j h1 h2 => ?_⟩
          simp only [List.length_append, List.length_singleton, Nat.add_sub_add_right] at h1 h2
          rcases Nat.lt_or_ge j low.length with before | at_
          · rw [List.getElem?_append_left before]
            exact run j h1 (by omega)
          · obtain rfl : j = low.length := by omega
            exact ⟨v, last, lower⟩
        · rintro ⟨long, fits, run⟩
          simp only [List.length_append, List.length_singleton, Nat.add_sub_add_right] at long fits run
          refine ⟨by omega, by omega, fun j h1 h2 => ?_⟩
          have := run j h1 (by omega)
          rwa [List.getElem?_append_left (by omega)] at this
      · have none_ : trailingRun x (low ++ [v]) = 0 := by simp [trailingRun, lower]
        rw [none_]
        refine ⟨fun h => absurd h (by omega), fun ⟨long, fits, run⟩ => absurd ?_ lower⟩
        simp only [List.length_append, List.length_singleton, Nat.add_sub_add_right] at long run
        obtain ⟨w, hw, lt⟩ := run low.length (by omega) (by omega)
        obtain rfl : v = w := Option.some_inj.1 (last.symm.trans hw)
        exact lt

theorem trailingRun_lt (h : ∀ i, ¬ FullRun shadow x low i) : trailingRun x low < shadow :=
  Nat.not_le.1 fun full => h _ (le_trailingRun_iff.1 full).2

/-- Nothing at or below the threshold opens a candidate. -/
theorem searchPeaks_quiet {pre : List Nat} (h : ∀ v ∈ pre, v ≤ threshold) (shadow i : Nat) (rest : List (Nat × Nat)) :
    searchPeaks threshold shadow none (indexed i pre ++ rest) = searchPeaks threshold shadow none rest := by
  induction pre generalizing i with
  | nil => rfl
  | cons v pre ih =>
    obtain ⟨quiet, others⟩ := List.forall_mem_cons.1 h
    rw [indexed_cons, List.cons_append, searchPeaks_cons, searchStep_quiet quiet]
    exact ih others (i + 1)

/-- While no run is full a candidate stays, its run the one at the end. -/
theorem searchPeaks_holds (le : ∀ v ∈ low, v ≤ x) (open_ : ∀ i, ¬ FullRun shadow x low i) (threshold ix i : Nat)
    (rest : List (Nat × Nat)) :
    searchPeaks threshold shadow (some { index := ix, amplitude := x, run := 0 }) (indexed i low ++ rest) =
      searchPeaks threshold shadow (some { index := ix, amplitude := x, run := trailingRun x low }) rest := by
  induction low using List.reverseRecOn generalizing rest with
  | nil => rfl
  | append_singleton low v ih =>
    obtain ⟨others, last⟩ := List.forall_mem_append.1 le
    have before := fun i (k : FullRun shadow x low i) => open_ i (k.append [v])
    have short := trailingRun_lt open_
    rw [indexed_append, List.append_assoc, ih others before, indexed_cons, List.cons_append, searchPeaks_cons]
    rcases (last v (by simp)).lt_or_eq with lower | rfl
    · rw [trailingRun_lower lower] at short ⊢
      rw [searchStep_lower lower short.ne]
      rfl
    · rw [trailingRun_equal, searchStep_equal rfl]
      rfl

/-- A candidate is declared at the end of the samples behind it when they end in the first full run. -/
theorem searchPeaks_declares (le : ∀ v ∈ low, v ≤ x) (long : shadow ≤ low.length) (pos : 1 ≤ shadow)
    (last : ∀ i, FullRun shadow x low i ↔ i + shadow = low.length) (threshold ix i : Nat) (rest : List (Nat × Nat)) :
    searchPeaks threshold shadow (some { index := ix, amplitude := x, run := 0 }) (indexed i low ++ rest) =
      { index := ix, amplitude := x } :: searchPeaks threshold shadow none rest := by
  have full : shadow ≤ trailingRun x low := le_trailingRun_iff.2 ⟨long, (last _).2 (Nat.sub_add_cancel long)⟩
  rcases List.eq_nil_or_concat' low with rfl | ⟨init, v, rfl⟩
  · rw [List.length_nil] at long
    omega
  · obtain ⟨others, le_⟩ := List.forall_mem_append.1 le
    have open_ : ∀ i, ¬ FullRun shadow x init i := fun i k => by
      have e := (last i).1 (k.append [v])
      have fits := k.1
      rw [List.length_append, List.length_singleton] at e
      omega
    have short := trailingRun_lt open_
    rw [indexed_append, List.append_assoc, searchPeaks_holds others open_, indexed_cons, List.cons_append, searchPeaks_cons]
    rcases (le_ v (by simp)).lt_or_eq with lower | rfl
    · rw [trailingRun_lower lower] at full
      rw [searchStep_full lower (by dsimp only; omega)]
      rfl
    · rw [trailingRun_equal] at full
      omega

theorem searchPeaks_opens (above : threshold < x) (shadow i : Nat) (rest : List (Nat × Nat)) :
    searchPeaks threshold shadow none ((i, x) :: rest) =
      searchPeaks threshold shadow (some { index := i, amplitude := x, run := 0 }) rest := by
  rw [searchPeaks_cons, searchStep_opens above]
  rfl

/-- Settles O58: the peaks by what the search keeps of its candidate, and the declarations by the run behind it. -/
theorem peaksAreDeclaredByRuns : Obligations.PeaksAreDeclaredByRuns := by
  refine ⟨fun threshold shadow first xs _ => ?_, fun threshold shadow first pre low post x pos quiet => ?_⟩
  · have samples : ∀ n (h : n < xs.length), xs[first + n - first]? = some xs[n] := fun n h => by
      rw [Nat.add_sub_cancel_left, List.getElem?_eq_getElem h]
    obtain ⟨rising, all⟩ := searchPeaks_stand (sample := fun n => xs[n - first]?) (threshold := threshold) (c := none)
      shadow samples fun k hk => nomatch hk
    refine ⟨rising, fun peak hp => ?_⟩
    obtain ⟨⟨above, own, j, full, bound, lower⟩, from_⟩ := all peak hp
    have from_ : first ≤ peak.index := from_
    obtain ⟨y, hy, -⟩ := bound j (by omega) le_rfl
    have inside : j - first < xs.length := (List.getElem?_eq_some_iff.1 hy).1
    exact ⟨above, from_, own, j, full, by omega, bound, fun n y h1 h2 hy => lower n y h1 h2 hy⟩
  · have found : ∀ rest, threshold < x → searchPeaks threshold shadow none (indexed first (pre ++ x :: rest)) =
        searchPeaks threshold shadow (some { index := first + pre.length, amplitude := x, run := 0 })
          (indexed (first + pre.length + 1) rest) := fun rest above => by
      rw [indexed_append, searchPeaks_quiet quiet, indexed_cons, searchPeaks_opens above]
    refine ⟨?_, fun above le long last => ?_, fun above le open_ => ⟨?_, fun z higher => ?_⟩⟩
    · have none_ := searchPeaks_quiet quiet shadow first []
      rwa [List.append_nil] at none_
    · show searchPeaks threshold shadow none (indexed first (pre ++ x :: low ++ post)) = _
      rw [List.append_assoc, List.cons_append, found _ above, indexed_append]
      exact searchPeaks_declares le long pos last threshold _ _ _
    · show searchPeaks threshold shadow none (indexed first (pre ++ x :: low)) = _
      have held := searchPeaks_holds le open_ threshold (first + pre.length) (first + pre.length + 1) []
      rw [List.append_nil] at held
      exact (found _ above).trans held
    · show searchPeaks threshold shadow none (indexed first (pre ++ x :: low ++ z :: post)) =
        searchPeaks threshold shadow none (indexed _ (z :: post))
      rw [List.append_assoc, List.cons_append, found _ above, indexed_append, searchPeaks_holds le open_, indexed_cons,
        searchPeaks_opens (above.trans higher), searchPeaks_cons, searchStep_higher higher]
      rfl

end Sys2Proof.Machine
end

section
/-! The phases of the probe in flight (R102 to R105, R107, R110, R111). -/

namespace Sys2Proof.Machine
open Sys2Proof.Config

variable {s t v : State} {m : Moment} {f : Flight} {e : ProbeEnd} {since : Nat}

/-! ## The instant at which a phase's event acts -/

/-- The state in which an event acts no earlier than the instant `n` (R103; log entries 3 and 12). -/
def State.actsAt (m : Moment) (n : Nat) (s : State) : State := (s.advance m).elapseTo n

theorem actsAt_clock (m : Moment) (n : Nat) (s : State) : (s.actsAt m n).clock = max (s.clock + m.dt) n := by
  show (s.advance m).clock + (n - (s.advance m).clock) = _
  rw [State.advance_clock]
  omega

theorem actsAt_sameEngine (m : Moment) (n : Nat) (s : State) : SameEngine s (s.actsAt m n) := by
  rw [State.actsAt, advance_eq]; exact ⟨rfl, rfl, rfl, rfl, rfl, rfl⟩

theorem keepsSettings_actsAt (m : Moment) (n : Nat) (s : State) : KeepsSettings s (s.actsAt m n) :=
  (keepsSettings_advance m s).trans ⟨rfl, fun _ => rfl, rfl, rfl, rfl, rfl, rfl, rfl, rfl, rfl, rfl, rfl⟩

theorem keepsSettings_flight (g : Option Flight) (s : State) : KeepsSettings s { s with flight := g } :=
  ⟨rfl, fun _ => rfl, rfl, rfl, rfl, rfl, rfl, rfl, rfl, rfl, rfl, rfl⟩

theorem actsAt_bookings (m : Moment) (n : Nat) (s : State) : (s.actsAt m n).bookings = s.bookings :=
  State.advance_bookings s m

theorem actsAt_ports (m : Moment) (n : Nat) (s : State) : (s.actsAt m n).ports = s.ports := State.advance_ports s m

theorem actsAt_lastResults (m : Moment) (n : Nat) (s : State) : (s.actsAt m n).lastResults = s.lastResults :=
  State.advance_lastResults s m

theorem actsAt_raised (m : Moment) (n : Nat) (s : State) : (s.actsAt m n).raised = [] := State.advance_raised s m

/-! ## The probe ends (R110, R111) -/

/-- The end of the probe in flight, whatever it ends with, seen from before and after the event. -/
theorem endFlight_ended (start : SameEngine s v) (stop : SameEngine (v.endFlight m f e) t)
    (flagged : Flagged (v.endFlight m f e) t) : ProbeEnded s t f e := by
  let c := v.concludeProbe m f.number f.port e
  have concluded : Concluded f.number f.port e v c := concludeProbe_concluded ..
  have passed : PassedOn c (v.endFlight m f e) := leaveNext_passedOn f c
  have waits : c.probeWaiting = s.probeWaiting := (concludeProbe_probes ..).2.trans start.probeWaiting
  have config : c.probeConfig = s.probeConfig := (later_concludeProbe ..).probeConfig.trans start.probeConfig
  have results : t.lastResults = c.lastResults := stop.lastResults.trans (by rw [passed.rest])
  refine ⟨?_, fun q hq => ?_, ?_, fun none_ => ?_, fun w rest some_ => ?_⟩
  · rw [results, concluded.result, start.resultOf]; rfl
  · rw [results, concluded.others q hq, start.lastResults]
  · obtain ⟨l, raised, done, -⟩ := concluded.raised
    have made : (v.endFlight m f e).raised = c.raised := by rw [passed.rest]
    exact flagged (probeDone f.port) (by rw [made, raised]; exact List.mem_append_right _ done)
  · obtain ⟨flight, empty⟩ := passed.idle (waits.trans none_)
    exact ⟨stop.flight.trans flight, stop.probeWaiting.trans empty⟩
  · obtain ⟨tail, g, head, number, port, config', fresh⟩ := passed.next w rest (waits.trans some_)
    exact ⟨stop.probeWaiting.trans tail, g, stop.flight.trans head, number, port, config'.trans config, fresh⟩

/-- The probe in flight ends at the instant `n`, or late. -/
theorem actsAt_ends (m : Moment) (n : Nat) (f : Flight) (e : ProbeEnd) (s : State) :
    let t := ((s.actsAt m n).endFlight m f e).flush m
    KeepsSettings s t ∧ t.clock = max (s.clock + m.dt) n ∧ ProbeEnded s t f e := by
  have later := (later_endFlight m f e (s.actsAt m n)).trans (later_flush m _)
  exact ⟨(keepsSettings_actsAt m n s).trans later.calm.keepsSettings, later.clock.trans (actsAt_clock m n s),
    endFlight_ended (actsAt_sameEngine m n s) (flush_sameEngine m _) (flush_flagged m _)⟩

/-- The probe in flight goes on at the instant `n`, or late: nothing has been raised. -/
theorem actsAt_goesOn (m : Moment) (n : Nat) (g : Flight) (s : State) :
    let t := { s.actsAt m n with flight := some g }.flush m
    t.clock = max (s.clock + m.dt) n ∧ t.bookings = s.bookings ∧ t.ports = s.ports ∧ t.lastResults = s.lastResults ∧
      t.flight = some g := by
  have quiet := State.flush_of_nil (s := { s.actsAt m n with flight := some g }) (actsAt_raised m n s) m
  rw [quiet]
  exact ⟨actsAt_clock m n s, actsAt_bookings m n s, actsAt_ports m n s, actsAt_lastResults m n s, rfl⟩

/-! ## The three events -/

theorem transmitterPasses_waiting (hf : s.flight = some f) (began : f.began = none) (m : Moment) :
    let u := s.actsAt m (s.port f.port).freeAt
    exec (.transmitterPasses m) s =
      .next { u.setPort f.port { s.port f.port with sending := none } with
              flight := some { f with began := some u.clock } } := by
  have flight : (s.advance m).flight = some f := (State.advance_flight s m).trans hf
  have free : ((s.advance m).port f.port).freeAt = (s.port f.port).freeAt := by rw [State.advance_port]
  show execTransmitterPasses m s = _
  simp only [execTransmitterPasses, flight, began, Option.isNone_none, if_true, free]
  have port : ((s.actsAt m (s.port f.port).freeAt).port f.port) = s.port f.port := State.port_congr (actsAt_ports ..) _
  rw [← State.actsAt, port]

theorem phaseTimerExpiry_begun (hf : s.flight = some f) (began : f.began = some since) (m : Moment) :
    exec (.phaseTimerExpiry m) s =
      .next (((s.actsAt m (since + 10000000000)).endFlight m f (.bare .timeout)).flush m) := by
  show execPhaseTimerExpiry m s = _
  simp only [execPhaseTimerExpiry, State.advance_flight, hf, began]
  rfl

theorem traceDelivered_begun (hf : s.flight = some f) (began : f.began = some since) (m : Moment) (x : Measured) :
    exec (.traceDelivered m { probe := f.number, measured := x }) s =
      .next (((s.actsAt m (since + f.phaseTicks)).deliver m f x).flush m) := by
  show execTraceDelivered m _ s = _
  simp only [execTraceDelivered, State.advance_flight, hf, began, if_true]
  rfl

theorem traceDelivered_other {trace : Trace} (hf : s.flight = some f) (other : trace.probe ≠ f.number) (m : Moment) :
    exec (.traceDelivered m trace) s = .next (s.advance m) := by
  show execTraceDelivered m trace s = _
  simp only [execTraceDelivered, State.advance_flight, hf, if_neg other.symm]

/-! ## The time and the trace of a phase -/

theorem phaseTicks_silence (h : ∀ k, f.phase ≠ .segment k) : f.phaseTicks = f.config.preMs * 10000000 := by
  have none_ : f.segment = none := by
    unfold Flight.segment
    split
    · next k hk => exact absurd hk (h k)
    · rfl
  rw [Flight.phaseTicks, none_]
  rfl

theorem segment_of_phase {k : Nat} {g : Segment} (hk : f.phase = .segment k) (hg : f.config.segments[k - 1]? = some g) :
    f.segment = some g := by rw [Flight.segment, hk]; exact hg

theorem phaseTicks_segment {g : Segment} (h : f.segment = some g) :
    f.phaseTicks = 2 ^ g.exponent * (g.last + 1) * 50 := by rw [Flight.phaseTicks, h]; rfl

theorem deliver_energy (phase : f.phase = .preSilence ∨ f.phase = .postSilence) {level : Nat}
    (energy : f.config.silence < level) (m : Moment) (s : State) :
    s.deliver m f (.silence level) = s.endFlight m f (.bare .liveFibre) := by
  rcases phase with h | h <;> simp only [State.deliver, h, if_pos energy]

theorem deliver_silent (phase : f.phase = .preSilence) {level : Nat} (silent : level ≤ f.config.silence) (m : Moment)
    (s : State) : s.deliver m f (.silence level) =
      { s with flight := some { f with phase := .segment 1, began := some s.clock } } := by
  simp only [State.deliver, phase, if_neg (Nat.not_lt.2 silent)]

theorem deliver_segment {k : Nat} {g : Segment} {shots : List (List Nat)} (phase : f.phase = .segment k)
    (segment : f.segment = some g) (fits : g.fits shots = true) (m : Moment) (s : State) :
    s.deliver m f (.samples shots) =
      { s with
        flight := some { f with phase := f.after k, began := some s.clock, peaks := f.peaks ++ segmentPeaks g shots } } := by
  simp only [State.deliver, phase, segment, fits, if_true]

theorem deliver_result (phase : f.phase = .postSilence) {level : Nat} (silent : level ≤ f.config.silence) (m : Moment)
    (s : State) : s.deliver m f (.silence level) = s.endFlight m f (.ofPeaks f.config f.peaks) := by
  simp only [State.deliver, phase, if_neg (Nat.not_lt.2 silent)]

/-- R107: the break is the first kept peak at the break threshold. -/
theorem ofPeaks_eq (c : ProbeConfig) (peaks : List Peak) :
    let kept := (peaks.take 5).map fun k =>
      ({ distance := (k.index * c.q + 512) / 1024, amplitude := k.amplitude } : KeptPeak)
    let first := kept.find? fun k => decide (c.breakThreshold ≤ k.amplitude)
    ProbeEnd.ofPeaks c peaks =
      { outcome := if first.isSome then .brk else .noBreak, peaks := kept, distance := first.map (·.distance) } := by
  intro kept first
  have found : breakOf c.breakThreshold (keptOf c.q peaks) = first.map (·.distance) := rfl
  dsimp only [ProbeEnd.ofPeaks]
  rw [found]
  cases first <;> rfl

/-- Settles O57: each event of the probe in flight, by its phase. -/
theorem probePassesItsPhases : Obligations.ProbePassesItsPhases := by
  refine ⟨fun m trace s idle => ?_, fun m f trace s hf other => traceDelivered_other hf other m,
    fun m f s hf began => ?_, fun m f since s hf began => ⟨?_, fun level phase => ?_,
      fun k g shots phase segment count lengths => ?_, fun level phase => ?_⟩⟩
  · have flight : (s.advance m).flight = none := (State.advance_flight s m).trans idle
    refine ⟨?_, ?_, ?_⟩
    · show execTransmitterPasses m s = _
      simp only [execTransmitterPasses, flight]
    · show execPhaseTimerExpiry m s = _
      simp only [execPhaseTimerExpiry, flight]
    · show execTraceDelivered m trace s = _
      simp only [execTraceDelivered, flight]
  · let u := s.actsAt m (s.port f.port).freeAt
    have port : ∀ q, u.port q = s.port q := State.port_congr (actsAt_ports ..)
    have keeps : KeepsSettings u (u.setPort f.port { s.port f.port with sending := none }) :=
      keepsSettings_setPort (by rw [port]; rfl)
    refine ⟨_, transmitterPasses_waiting hf began m,
      ((keepsSettings_actsAt ..).trans keeps).trans (keepsSettings_flight _ _),
      actsAt_bookings m (s.port f.port).freeAt s, actsAt_clock .., rfl, ?_, fun q hq => ?_⟩
    · exact (State.setPort_port ..).trans (if_pos rfl)
    · exact ((State.setPort_port ..).trans (if_neg hq)).trans (port q)
  · exact ⟨_, phaseTimerExpiry_begun hf began m, actsAt_ends m _ f (.bare .timeout) s⟩
  · have ticks : f.phaseTicks = f.config.preMs * 10000000 := phaseTicks_silence (by simp [phase])
    have run := traceDelivered_begun hf began m (.silence level)
    rw [ticks] at run
    rcases Nat.lt_or_ge f.config.silence level with energy | silent
    · rw [deliver_energy (.inl phase) energy] at run
      obtain ⟨-, clock, ended⟩ := actsAt_ends m (since + f.config.preMs * 10000000) f (.bare .liveFibre) s
      exact ⟨_, run, clock, fun silent => absurd energy (Nat.not_lt.2 silent), fun _ => ended⟩
    · rw [deliver_silent phase silent] at run
      obtain ⟨clock, bookings, ports, results, flight⟩ := actsAt_goesOn m (since + f.config.preMs * 10000000)
        { f with phase := .segment 1, began := some (s.actsAt m (since + f.config.preMs * 10000000)).clock } s
      refine ⟨_, run, clock, fun _ => ⟨bookings, ports, results, ?_⟩, fun energy => absurd energy (Nat.not_lt.2 silent)⟩
      rw [clock, flight, actsAt_clock]
  · have segment := segment_of_phase phase segment
    have fits : g.fits shots = true := by simpa [Segment.fits, count] using lengths
    have run := traceDelivered_begun hf began m (.samples shots)
    rw [phaseTicks_segment segment, deliver_segment phase segment fits] at run
    obtain ⟨clock, bookings, ports, results, flight⟩ := actsAt_goesOn m (since + 2 ^ g.exponent * (g.last + 1) * 50)
      { f with phase := f.after k, peaks := f.peaks ++ segmentPeaks g shots,
               began := some (s.actsAt m (since + 2 ^ g.exponent * (g.last + 1) * 50)).clock } s
    refine ⟨_, run, bookings, ports, results, clock, ?_⟩
    rw [clock, flight, actsAt_clock]
    rfl
  · have run := traceDelivered_begun hf began m (.silence level)
    rcases Nat.lt_or_ge f.config.silence level with energy | silent
    · rw [deliver_energy (.inr phase) energy] at run
      obtain ⟨-, -, ended⟩ := actsAt_ends m (since + f.phaseTicks) f (.bare .liveFibre) s
      exact ⟨_, run, fun _ => ended, fun silent => absurd energy (Nat.not_lt.2 silent)⟩
    · rw [deliver_result phase silent, ofPeaks_eq] at run
      obtain ⟨-, -, ended⟩ := actsAt_ends m (since + f.phaseTicks) f _ s
      exact ⟨_, run, fun energy => absurd energy (Nat.not_lt.2 silent), fun _ => ended⟩

end Sys2Proof.Machine
end

section
/-! PROBE (R96 to R98, R102) and PROBE CONFIG (R112): their refusals in order, the number of a new probe, and what the two
requests write. -/

namespace Sys2Proof.Machine
open Sys2Proof.Config

variable {s : State} {r : Req} {p : PortIx} {n : ProbeNo} {a : ProbeConfigArgs}

/-! ## The number of a new probe (R96) -/

/-- The `k`-th number from the counter on. -/
def State.countedUp (s : State) (k : Nat) : ProbeNo := Fin.ofNat 256 (s.probeCounter.val + k)

theorem countedUp_distance {k : Nat} (h : k < 256) (s : State) :
    ((s.countedUp k).val + (256 - s.probeCounter.val)) % 256 = k := by
  have counter := s.probeCounter.isLt
  show ((s.probeCounter.val + k) % 256 + (256 - s.probeCounter.val)) % 256 = k
  omega

/-- Counting up reaches every number. -/
theorem exists_countedUp (s : State) (n : ProbeNo) : ∃ k < 256, s.countedUp k = n := by
  refine ⟨(n.val + (256 - s.probeCounter.val)) % 256, Nat.mod_lt _ (by decide), Fin.ext ?_⟩
  have counter := s.probeCounter.isLt
  have number := n.isLt
  show (s.probeCounter.val + (n.val + (256 - s.probeCounter.val)) % 256) % 256 = n.val
  omega

theorem exists_freeNumber (h : s.heldNumbers.length < 256) : ∃ n : ProbeNo, n ∉ s.heldNumbers := by
  by_contra none_
  have all : List.finRange 256 ⊆ s.heldNumbers := fun n _ => not_not.1 fun k => none_ ⟨n, k⟩
  have few := (List.subperm_of_subset (List.nodup_finRange 256) all).length_le
  rw [List.length_finRange] at few
  omega

/-- While a number is free the next one is, and every number from the counter up to it is held. -/
theorem nextNumber_spec (h : s.heldNumbers.length < 256) :
    ∃ k < 256, s.nextNumber = s.countedUp k ∧ s.nextNumber ∉ s.heldNumbers ∧ ∀ j < k, s.countedUp j ∈ s.heldNumbers := by
  obtain ⟨n, free⟩ := exists_freeNumber h
  obtain ⟨i, hi, rfl⟩ := exists_countedUp s n
  have next : s.nextNumber =
      (((List.range 256).find? fun k => decide (s.countedUp k ∉ s.heldNumbers)).map s.countedUp).getD s.probeCounter :=
    congrArg (·.getD s.probeCounter) (List.find?_map ..)
  cases found : (List.range 256).find? fun k => decide (s.countedUp k ∉ s.heldNumbers) with
  | none => exact absurd free (by simpa using List.find?_eq_none.1 found i (List.mem_range.2 hi))
  | some k =>
    rw [found] at next
    obtain ⟨fresh, inside, before⟩ := List.find?_range_eq_some.1 found
    have next : s.nextNumber = s.countedUp k := next
    exact ⟨k, List.mem_range.1 inside, next, next ▸ of_decide_eq_true fresh, fun j hj => by simpa using before j hj⟩

theorem heldNumbers_length (h : s.probeWaiting.length < 8) : s.heldNumbers.length < 256 := by
  have flying : (s.flight.map (·.number)).toList.length ≤ 1 := by cases s.flight <;> simp
  rw [State.heldNumbers, List.length_append, List.length_map]
  omega

/-! ## A probe request (R97, R102) -/

theorem probeRequest_joins (h : s.probeOf p = some n) : s.probeRequest p = (s, some n) := by
  simp only [State.probeRequest, h]

/-- With the engine idle a new probe enters flight. -/
theorem probeRequest_flies (new : s.probeOf p = none) (room : s.probeWaiting.length < 8) (idle : s.flight = none) :
    s.probeRequest p = ({ s with probeCounter := s.nextNumber + 1 }.enterFlight s.nextNumber p, some s.nextNumber) := by
  have room : ¬ probePlaces ≤ s.probeWaiting.length := Nat.not_le.2 room
  simp only [State.probeRequest, new, if_neg room, idle, Option.isNone_none, if_true]

/-- With a probe in flight a new one waits at the end of the queue. -/
theorem probeRequest_waits (new : s.probeOf p = none) (room : s.probeWaiting.length < 8) (busy : s.flight ≠ none) :
    s.probeRequest p =
      ({ s with probeCounter := s.nextNumber + 1,
                probeWaiting := s.probeWaiting ++ [{ number := s.nextNumber, port := p }] }, some s.nextNumber) := by
  have room : ¬ probePlaces ≤ s.probeWaiting.length := Nat.not_le.2 room
  have busy : ¬ s.flight.isNone = true := mt Option.isNone_iff_eq_none.1 busy
  simp only [State.probeRequest, new, if_neg room, if_neg busy]

theorem enterFlight_flight (n : ProbeNo) (p : PortIx) (s : State) : ∃ f, (s.enterFlight n p).flight = some f ∧
    f.number = n ∧ f.port = p ∧ f.config = s.probeConfig ∧ f.phase = .preSilence ∧ f.peaks = [] :=
  ⟨_, rfl, rfl, rfl, rfl, rfl, rfl⟩

theorem enterFlight_rest (n : ProbeNo) (p : PortIx) (s : State) : s.enterFlight n p =
    { s with ports := (s.enterFlight n p).ports, flight := (s.enterFlight n p).flight } := by
  unfold State.enterFlight; dsimp only; split <;> rfl

theorem probeOf_flying {f : Flight} (hf : s.flight = some f) (hp : f.port = p) : s.probeOf p = some f.number := by
  simp only [State.probeOf, hf, if_pos hp]

/-- A probe appended to the waiting ones is the port's, when it had none. -/
theorem probeOf_appended (new : s.probeOf p = none) (n k : ProbeNo) :
    State.probeOf { s with probeCounter := k, probeWaiting := s.probeWaiting ++ [{ number := n, port := p }] } p =
      some n := by
  have none_ := probeOf_none new
  simp only [State.probedPorts, List.mem_append, not_or] at none_
  obtain ⟨flight, waits⟩ := none_
  have others : s.probeWaiting.find? (fun w => decide (w.port = p)) = none :=
    List.find?_eq_none.2 fun w hw e => waits (List.mem_map.2 ⟨w, hw, of_decide_eq_true e⟩)
  have found : (s.probeWaiting ++ [({ number := n, port := p } : WaitingProbe)]).find? (fun w => decide (w.port = p)) =
      some { number := n, port := p } := by simp [List.find?_append, others]
  simp only [State.probeOf]
  split
  · next f hf =>
    have other : f.port ≠ p := fun e => flight (by simp [hf, e])
    rw [if_neg other, found]; rfl
  · rw [found]; rfl

/-! ## PROBE (R98) -/

theorem checkProbe_range {i : Nat} (h : 15 < i) (s : State) : checkProbe i s = some .range := by simp [checkProbe, h]

/-- PROBE's checks on a port. -/
theorem checkProbe_val (p : PortIx) (s : State) : checkProbe p.val s =
    if (s.port p).role = .off then some .range
    else if s.restart = true then some .state
    else if s.fitted p = false then some .unavailable
    else if (s.port p).link ≠ .down then some .liveFibre
    else if s.probeOf p = none ∧ 8 ≤ s.probeWaiting.length then some .busy
    else none := by
  have index : ¬ 15 < p.val := by omega
  have places : probePlaces = 8 := rfl
  simp only [checkProbe, firstFailing_cons, firstFailing_nil, portIx_val, index, decide_false, Bool.false_or, places,
    Bool.and_eq_true, decide_eq_true_eq, Bool.not_eq_true', Port.lit, Option.isNone_iff_eq_none]

/-- A PROBE that passes its checks, the number it is given known. -/
theorem actProbe_accepted (passed : checkProbe p.val s = none) (given : (s.probeRequest p).2 = some n) :
    actProbe p.val s = { state := (s.probeRequest p).1, result := .accepted,
                         body := bytesOf ((s.probeRequest p).1.probeFields n (s.probeOf p).isSome) } := by
  refine (checked_none passed).trans ?_
  rw [portIx_val, State.takeProbe, given, probeAnswer_layout]
  rfl

theorem advance_probeOf (m : Moment) (p : PortIx) (s : State) : (s.advance m).probeOf p = s.probeOf p := by
  simp only [State.probeOf, State.advance_flight, State.advance_probeWaiting]

theorem advance_probeFields (m : Moment) (n : ProbeNo) (joined : Bool) (s : State) :
    (s.advance m).probeFields n joined = s.probeFields n joined := by
  simp only [State.probeFields, advance_probePosition]

theorem advance_heldNumbers (m : Moment) (s : State) : (s.advance m).heldNumbers = s.heldNumbers := by
  simp only [State.heldNumbers, State.advance_flight, State.advance_probeWaiting]

/-- Settles O35: PROBE by its checks in order; joined, or created with the next number and in flight when none is. -/
theorem probeJoinsOrCreates : Obligations.ProbeJoinsOrCreates := by
  intro r p s h
  let v := s.advance r.m
  have h' : FromOperator v r := h.advance r.m
  have refused : ∀ i res, checkProbe i v = some res →
      ∃ t, exec (.probe r (some i)) s = .next t ∧ AnsweredOnly v t r 48 res [] :=
    fun i res k => ⟨_, rfl, takeRequest_answered h' (checked_some k)⟩
  have check : checkProbe p.val v = _ := checkProbe_val p v
  have fitted : v.fitted p = s.fitted p := by simp [v, State.fitted]
  have probe : v.probeOf p = s.probeOf p := advance_probeOf ..
  rw [State.advance_port, State.advance_restart, fitted, probe, State.advance_probeWaiting] at check
  refine ⟨fun i hi => refused i _ (checkProbe_range hi _), fun off => refused _ _ (by rw [check, if_pos off]),
    fun on => ⟨fun restart => refused _ _ ?_, fun running absent => refused _ _ ?_,
      fun running fits lit => refused _ _ ?_, fun running fits dark => ⟨fun new full => refused _ _ ?_,
        fun n joined => ?_, fun new room => ?_⟩⟩⟩
  all_goals rw [if_neg on] at check
  · rw [check, if_pos restart]
  · rw [check, if_neg (by simp [running]), if_pos absent]
  · rw [check, if_neg (by simp [running]), if_neg (by simp [fits]), if_pos lit]
  · rw [check, if_neg (by simp [running]), if_neg (by simp [fits]), if_neg (not_not_intro dark), if_pos ⟨new, full⟩]
  all_goals rw [if_neg (by simp [running]), if_neg (by simp [fits]), if_neg (not_not_intro dark)] at check
  · rw [if_neg (by simp [joined])] at check
    have asked := probeRequest_joins (probe.trans joined)
    have accepted := actProbe_accepted check (congrArg Prod.snd asked)
    rw [asked, probe, joined, advance_probeFields] at accepted
    exact ⟨_, rfl, takeRequest_answered h' accepted⟩
  · rw [if_neg (by omega)] at check
    have new' : v.probeOf p = none := probe.trans new
    have waits : v.probeWaiting = s.probeWaiting := State.advance_probeWaiting ..
    have room' : v.probeWaiting.length < 8 := by rw [waits]; exact room
    obtain ⟨k, hk, next, free, held⟩ := nextNumber_spec (heldNumbers_length room')
    have distance := countedUp_distance hk v
    rw [← next, State.advance_probeCounter] at distance
    have below : ∀ j : Nat, j < (v.nextNumber.val + (256 - s.probeCounter.val)) % 256 →
        Fin.ofNat 256 (s.probeCounter.val + j) ∈ s.heldNumbers := fun j hj => by
      have counted := held j (by omega)
      rwa [advance_heldNumbers, State.countedUp, State.advance_probeCounter] at counted
    rw [advance_heldNumbers] at free
    cases flight : s.flight with
    | none =>
      have asked := probeRequest_flies new' room' ((State.advance_flight ..).trans flight)
      have accepted := actProbe_accepted check (congrArg Prod.snd asked)
      rw [asked, new'] at accepted
      obtain ⟨f, hf, number, port, config, fresh⟩ :=
        enterFlight_flight v.nextNumber p { v with probeCounter := v.nextNumber + 1 }
      have rest := enterFlight_rest v.nextNumber p { v with probeCounter := v.nextNumber + 1 }
      refine ⟨_, _, v.nextNumber, rfl, takeRequest_answered h' accepted, free, congrArg State.probeCounter rest,
        (probeOf_flying hf port).trans (congrArg some number), below,
        fun _ => ⟨f, hf, number, port, config.trans (State.advance_probeConfig ..), fresh.1, fresh.2,
          (congrArg State.probeWaiting rest).trans waits⟩, fun busy => absurd rfl busy⟩
    | some g =>
      have busy : v.flight ≠ none := by simp [v, flight]
      have asked := probeRequest_waits new' room' busy
      have accepted := actProbe_accepted check (congrArg Prod.snd asked)
      rw [asked, new'] at accepted
      refine ⟨_, _, v.nextNumber, rfl, takeRequest_answered h' accepted, free, rfl, probeOf_appended new' _ _, below,
        (fun idle => nomatch idle), fun _ => ?_⟩
      rw [waits]

/-! ## PROBE CONFIG (R112) -/

theorem segmentsOverlap_eq_false (l : List SegmentArgs) : segmentsOverlap l = false ↔
    ∀ i g h, l[i]? = some g → l[i + 1]? = some h → g.last < h.first := by
  induction l with
  | nil => simp [segmentsOverlap]
  | cons x l ih =>
    cases l with
    | nil => simp [segmentsOverlap]
    | cons y l =>
      simp only [segmentsOverlap, Bool.or_eq_false_iff, decide_eq_false_iff_not, Nat.not_le, ih]
      constructor
      · rintro ⟨first, rest⟩ (_ | i) g h hg hh
        · obtain rfl := Option.some_inj.1 hg
          obtain rfl := Option.some_inj.1 hh
          exact first
        · exact rest i g h hg hh
      · exact fun k => ⟨k 0 x y rfl rfl, fun i g h hg hh => k (i + 1) g h hg hh⟩

theorem segmentBad_eq_false (g : SegmentArgs) : SegmentArgs.bad g = false ↔
    g.first ≤ g.last ∧ 1 ≤ g.shadow ∧ g.shadow ≤ 64 ∧ g.threshold ≤ 4095 := by
  simp [SegmentArgs.bad, and_assoc]

/-- A field of a PROBE CONFIG lies outside its range. -/
def ProbeConfigArgs.outOfRange (a : ProbeConfigArgs) : Bool :=
  outside 1 5 a.segments.length || a.segments.any SegmentArgs.bad || segmentsOverlap a.segments ||
    decide (4095 < a.silence ∨ 4095 < a.breakThreshold) || outside 1 16 a.preMs

theorem outOfRange_eq_false (a : ProbeConfigArgs) : ProbeConfigArgs.outOfRange a = false ↔ ProbeConfigInRange a := by
  simp only [ProbeConfigArgs.outOfRange, Bool.or_eq_false_iff, outside_eq_false, segmentsOverlap_eq_false,
    List.any_eq_false, Bool.not_eq_true, segmentBad_eq_false, decide_eq_false_iff_not, not_or, Nat.not_lt]
  constructor
  · rintro ⟨⟨⟨⟨count, segment⟩, rising⟩, levels⟩, preMs⟩
    exact ⟨count, segment, rising, levels, preMs⟩
  · rintro ⟨count, segment, rising, levels, preMs⟩
    exact ⟨⟨⟨⟨count, segment⟩, rising⟩, levels⟩, preMs⟩

theorem checkProbeConfig_eq (a : ProbeConfigArgs) (s : State) : checkProbeConfig a s =
    if ProbeConfigArgs.outOfRange a = true then some .range else if s.restart = true then some .state else none := by
  show firstFailing [(ProbeConfigArgs.outOfRange a, .range), (s.restart, .state)] = _
  rw [firstFailing_cons, firstFailing_cons, firstFailing_nil]

theorem clamps_eq (a : ProbeConfigArgs) : okOrClamped (ProbeConfigArgs.clamps a) =
    if (∀ g ∈ a.segments, g.exponent ≤ 6) ∧ 400 ≤ a.q ∧ a.q ≤ 600 then .ok else .clamped := by
  have within : ProbeConfigArgs.clamps a = false ↔ (∀ g ∈ a.segments, g.exponent ≤ 6) ∧ 400 ≤ a.q ∧ a.q ≤ 600 := by
    simp [ProbeConfigArgs.clamps]
  by_cases k : (∀ g ∈ a.segments, g.exponent ≤ 6) ∧ 400 ≤ a.q ∧ a.q ≤ 600
  · rw [if_pos k, within.2 k]; rfl
  · rw [if_neg k, Bool.eq_true_of_not_eq_false (mt within.1 k)]; rfl

theorem toConfig_eq (a : ProbeConfigArgs) : ProbeConfigArgs.toConfig a =
    { segments := a.segments.map (fun g => { first := g.first, last := g.last, exponent := min 6 g.exponent,
                                             shadow := g.shadow, threshold := g.threshold }),
      silence := a.silence, preMs := a.preMs, breakThreshold := a.breakThreshold, q := max 400 (min 600 a.q) } := by
  have q : clamp 400 600 a.q = max 400 (min 600 a.q) := by unfold clamp; omega
  rw [← q]
  rfl

/-- Settles O36: PROBE CONFIG by its checks in order, and the configuration it writes. -/
theorem probeConfigWritesTheConfiguration : Obligations.ProbeConfigWritesTheConfiguration := by
  intro r a s h
  have refused : ∀ res, checkProbeConfig a (s.advance r.m) = some res →
      ∃ t, exec (.probeConfig r (some a)) s = .next t ∧ AnsweredOnly (s.advance r.m) t r 50 res [] :=
    fun res k => ⟨_, rfl, takeRequest_answered (h.advance r.m) (checked_some k)⟩
  have check := checkProbeConfig_eq a (s.advance r.m)
  rw [State.advance_restart] at check
  refine ⟨fun range => refused _ ?_, fun range restart => refused _ ?_, fun range running => ⟨_, rfl, ?_⟩⟩
  · rw [check, if_pos (Bool.eq_true_of_not_eq_false (mt (outOfRange_eq_false a).1 range))]
  all_goals rw [(outOfRange_eq_false a).2 range, if_neg Bool.false_ne_true] at check
  · rw [check, if_pos restart]
  · have passed : checkProbeConfig a (s.advance r.m) = none := by rw [check, if_neg (by simp [running])]
    refine takeRequest_answered (h.advance r.m) ((checked_none passed).trans ?_)
    rw [clamps_eq, toConfig_eq]
    rfl

end Sys2Proof.Machine
end

section
/-! The causes a probe's end settles, the bills this lets be computed, and the attribution of a record by the strength of its
causes (R108, R109, R117, R122, R129, R154). -/

namespace Sys2Proof.Machine
open Sys2Proof.Config

variable {s t u v w : State} {b : BookingIx} {m : Moment} {p : PortIx} {f : Flight} {e : ProbeEnd} {n : ProbeNo}
  {x z : Booking}

/-! ## The settlement of one record (R129, R154) -/

/-- The record `z` CLOSED. -/
def Booking.closed (z : Booking) : Booking := { z with state := .closed }

theorem closed_ne (closing : z.state = .closing) : some z ≠ some z.closed := fun k => by
  have e := congrArg Booking.state (Option.some_inj.1 k)
  rw [closing] at e
  cases e

/-- The record `b`, which was `z`, once the settled bookings of `v` have been billed. -/
structure RecordSettled (b : BookingIx) (z : Booking) (v w : State) : Prop where
  found : w.booking b = some z ∨ w.booking b = some z.closed
  still : z.state ≠ .closing ∨ z.settled = false → w.booking b = some z
  paid : z.state = .closing → z.settled = true → w.booking b = some z.closed ∨ ∃ k ∈ w.billWaiting, k.booking = b
  billed : z.state = .closing → w.booking b = some z.closed → billOf b z (v.tariff z.tariff) ∈ w.bills

theorem settleBooking_still (hz : v.booking b = some z)
    (h : ¬ (z.state = .closing ∧ z.settled = true ∧ v.billWaits b = false)) : v.settleBooking b = v := by
  unfold State.settleBooking
  simp only [hz]
  refine if_neg fun k => h ?_
  simpa [and_assoc] using k

theorem settleBooking_settles (hz : v.booking b = some z) : RecordSettled b z v (v.settleBooking b) := by
  by_cases due : z.state = .closing ∧ z.settled = true ∧ v.billWaits b = false
  · obtain ⟨closing, settled, waits⟩ := due
    have never : ¬ (z.state ≠ .closing ∨ z.settled = false) := by simp [closing, settled]
    by_cases room : v.bills.length < 64
    · obtain ⟨here, bills, -⟩ := settleBooking_room hz closing settled waits room
      exact ⟨.inr here, fun k => absurd k never, fun _ _ => .inl here, fun _ _ => by simp [bills]⟩
    · obtain ⟨here, -, waiting, -⟩ := settleBooking_full hz closing settled waits (Nat.not_lt.1 room)
      have listed : billOf b z (v.tariff z.tariff) ∈ (v.settleBooking b).billWaiting := by simp [waiting]
      exact ⟨.inl here, fun k => absurd k never, fun _ _ => .inr ⟨_, listed, rfl⟩,
        fun _ k => absurd (here.symm.trans k) (closed_ne closing)⟩
  · rw [settleBooking_still hz due]
    refine ⟨.inl hz, fun _ => hz, fun closing settled => .inr ?_,
      fun closing k => absurd (hz.symm.trans k) (closed_ne closing)⟩
    have waits : v.billWaits b = true := by
      by_contra k
      exact due ⟨closing, settled, by simpa using k⟩
    simpa [State.billWaits] using waits

/-- What the settlement of other records leaves: record `b`, the bills there are, and the tariffs. -/
structure BillsGrow (b : BookingIx) (v w : State) : Prop where
  booking : w.booking b = v.booking b
  bills : v.bills <+: w.bills
  billWaiting : v.billWaiting <+: w.billWaiting
  tariffs : w.tariffs = v.tariffs

theorem foldl_settleBooking_others {l : List BookingIx} (h : b ∉ l) (v : State) :
    BillsGrow b v (l.foldl (fun s c => s.settleBooking c) v) := by
  induction l generalizing v with
  | nil => exact ⟨rfl, List.prefix_refl _, List.prefix_refl _, rfl⟩
  | cons c l ih =>
    obtain ⟨other, others⟩ := not_or.1 (mt List.mem_cons.2 h)
    have kept := schedulerKeeps_settleBooking c v
    obtain ⟨booking, bills, waiting, tariffs⟩ := ih others (v.settleBooking c)
    exact ⟨booking.trans (settleBooking_other other v), kept.bills.trans bills, kept.billWaiting.trans waiting,
      tariffs.trans kept.calm.tariffs⟩

theorem RecordSettled.between (before : BillsGrow b u v) (h : RecordSettled b z v w) (after : BillsGrow b w t) :
    RecordSettled b z u t := by
  have tariff : v.tariff z.tariff = u.tariff z.tariff := by rw [State.tariff, before.tariffs]; rfl
  obtain ⟨found, still, paid, billed⟩ := h
  rw [← after.booking] at found still paid billed
  rw [tariff] at billed
  exact ⟨found, still, fun closing settled => (paid closing settled).imp_right fun ⟨k, hk, name⟩ =>
    ⟨k, after.billWaiting.subset hk, name⟩, fun closing closed => after.bills.subset (billed closing closed)⟩

theorem settleAll_settles (hz : v.booking b = some z) (m : Moment) : RecordSettled b z v (v.settleAll m) := by
  obtain ⟨before, after, order, others, others'⟩ := bookingOrder_split m b
  have first := foldl_settleBooking_others others v
  rw [State.settleAll, order, List.foldl_append, List.foldl_cons]
  exact (settleBooking_settles (first.booking.trans hz)).between first (foldl_settleBooking_others others' _)

/-! ## The causes of a probe (R122) -/

/-- The record a settlement leaves: its state alone may have become CLOSED, with its bill. -/
theorem RecordSettled.record (h : RecordSettled b z v w) : ∃ y, w.booking b = some y ∧
    y = { z with state := y.state } ∧ y.settled = z.settled ∧ (z.state ≠ .closing → y.state = z.state) ∧
    (z.state = .closing → z.settled = true → y.state = .closed ∨ ∃ k ∈ w.billWaiting, k.booking = b) ∧
    (z.state = .closing → y.state = .closed → billOf b z (v.tariff z.tariff) ∈ w.bills) ∧
    (z.state = .closing → z.settled = false → y.state = .closing) := by
  rcases h.found with here | here
  · refine ⟨z, here, rfl, rfl, fun _ => rfl, fun closing settled => ?_, fun closing closed => ?_, fun closing _ => closing⟩
    · exact (h.paid closing settled).imp_left fun k => absurd (here.symm.trans k) (closed_ne closing)
    · rw [closing] at closed
      cases closed
  · refine ⟨z.closed, here, rfl, rfl, fun other => ?_, fun _ _ => .inl rfl, fun closing _ => h.billed closing here,
      fun closing unsettled => ?_⟩
    · exact congrArg Booking.state (Option.some_inj.1 (here.symm.trans (h.still (.inl other))))
    · exact (congrArg Booking.state (Option.some_inj.1 (here.symm.trans (h.still (.inr unsettled))))).trans closing

/-- What the end of a probe reads and writes of the booking table and the bills, seen from other states. -/
theorem CausesSettled.congr (h : CausesSettled v w n p e) (table : s.bookings = v.bookings)
    (demarcation : (s.port p).demarcation = (v.port p).demarcation) (bookings : t.bookings = w.bookings)
    (bills : t.bills = w.bills) (waiting : t.billWaiting = w.billWaiting) (tariffs : t.tariffs = w.tariffs) :
    CausesSettled s t n p e := by
  have tariff : t.tariff = w.tariff := by unfold State.tariff; rw [tariffs]
  unfold CausesSettled State.booking at *
  rw [table, demarcation, bookings, bills, waiting, tariff]
  exact h

theorem concludeProbe_causesSettled (m : Moment) (n : ProbeNo) (p : PortIx) (e : ProbeEnd) (s : State) :
    CausesSettled s (s.concludeProbe m n p e) n p e := by
  intro b x hx settled
  let v := { s with lastResults := s.lastResults.set p (some (e.resultOf n s)) }.settleCauses n settled
  have done : s.concludeProbe m n p e = (v.settleAll m).raise .probeDone (.ofPort p) none := rfl
  have hz : v.booking b = some (x.settleCauses n settled) := by
    have table : v.booking b = (s.booking b).map (Booking.settleCauses n settled) := by
      simp [v, State.booking, State.settleCauses]
    rw [table, hx]; rfl
  have tariff : ∀ i, State.tariff ((v.settleAll m).raise .probeDone (.ofPort p) none) i = v.tariff i :=
    ((later_settleAll m v).trans (later_raise ..)).calm.tariff
  obtain ⟨y, hy, same, settles, other, paid, billed, waits⟩ := (settleAll_settles hz m).record
  rw [done]
  refine ⟨y, hy, same, other, fun closing k => paid closing (settles ▸ k), fun why sec closing cut late second closed => ?_,
    fun closing k => waits closing (settles ▸ k)⟩
  refine ⟨_, billed closing closed, ?_⟩
  have run : SameRun (x.settleCauses n settled) y := by rw [SameRun, same]
  have terms : y.tariff = (x.settleCauses n settled).tariff := by rw [same]
  rw [tariff, terms]
  exact (billOf_billedAs (r := x.settleCauses n settled) b cut late second _).sameRun run

theorem endFlight_causesSettled (m : Moment) (f : Flight) (e : ProbeEnd) (s : State) :
    CausesSettled s (s.endFlight m f e) f.number f.port e := by
  have passed : PassedOn (s.concludeProbe m f.number f.port e) (s.endFlight m f e) := leaveNext_passedOn f _
  refine (concludeProbe_causesSettled m f.number f.port e s).congr rfl rfl ?_ ?_ ?_ ?_ <;> rw [passed.rest]

section Port
variable {o : ProbeOutcome}

theorem endProbeOf_flying_causes (hf : s.flight = some f) (hp : f.port = p) (m : Moment) (o : ProbeOutcome) :
    CausesSettled s (s.endProbeOf m p o) f.number p (.bare o) := by
  rw [endProbeOf_flying hf hp, ← hp]
  exact endFlight_causesSettled m f (.bare o) s

theorem endProbeOf_waiting_causes {w : WaitingProbe} (inv : s.ProbeInv) (hw : w ∈ s.probeWaiting) (hp : w.port = p)
    (m : Moment) (o : ProbeOutcome) : CausesSettled s (s.endProbeOf m p o) w.number p (.bare o) := by
  rw [endProbeOf_waiting inv hw hp]
  exact (concludeProbe_causesSettled m w.number p (.bare o) (s.withoutWaiting p)).congr rfl rfl rfl rfl rfl rfl

end Port

/-- Light that returns on `p` leaves what its probe settles as the probe's end alone does. -/
theorem CausesSettled.relit (h : CausesSettled (s.relit m p) t n p e) : CausesSettled s (t.flush m) n p e := by
  have demarcation : (s.port p).demarcation = ((s.relit m p).port p).demarcation := by rw [relit_port, if_pos rfl]
  refine h.congr (State.advance_bookings s m).symm demarcation ?_ ?_ ?_ ?_ <;> rw [flush_rest]

/-! ## All probes ended by a RESTART (R109, R122) -/

/-- A cause after the probes `ns` have ended ABORTED. -/
def Cause.abort (ns : List ProbeNo) (c : Cause) : Cause :=
  if ∃ n ∈ ns, c.value = .pending n then { value := .unknown, brk := none } else c

/-- Every cause of the records changed by `g`, held or carried. -/
def OutageState.mapCauses (g : Cause → Cause) (o : OutageState) : OutageState :=
  let leg := fun (c : LegCause) => { c with held := c.held.map g, carried := c.carried.map g }
  { o with records := o.records.map fun k => { k with main := leg k.main, backup := leg k.backup } }

theorem mapCauses_id (o : OutageState) : o.mapCauses id = o := by simp [OutageState.mapCauses]

theorem mapCauses_comp (g g' : Cause → Cause) (o : OutageState) :
    (o.mapCauses g).mapCauses g' = o.mapCauses (g' ∘ g) := by simp [OutageState.mapCauses, Function.comp_def]

theorem settledAs_eq (o : OutageState) (n : ProbeNo) (c : Cause) : o.settledAs n c = o.mapCauses (Cause.settle n c) := rfl

theorem abort_nil : Cause.abort [] = id := by funext c; simp [Cause.abort]

theorem abort_snoc (ns : List ProbeNo) (n : ProbeNo) :
    Cause.settle n { value := .unknown, brk := none } ∘ Cause.abort ns = Cause.abort (ns ++ [n]) := by
  funext c
  by_cases ended : ∃ k ∈ ns, c.value = .pending k
  · have ended' : ∃ k ∈ ns ++ [n], c.value = .pending k := by
      obtain ⟨k, hk, value⟩ := ended
      exact ⟨k, List.mem_append_left _ hk, value⟩
    simp only [Function.comp_apply, Cause.abort, if_pos ended, if_pos ended']
    rfl
  · have last : (∃ k ∈ ns ++ [n], c.value = .pending k) ↔ c.value = .pending n := by
      simp only [List.mem_append, List.mem_singleton, or_and_right, exists_or, exists_eq_left, ended, false_or]
    simp only [Function.comp_apply, Cause.abort, Cause.settle, if_neg ended, last]

/-- The probes `ns` have ended ABORTED one after another: the causes pending on them are UNKNOWN, and a CLOSING booking that
is settled by the last of them is billed. -/
structure CausesAborted (ns : List ProbeNo) (b : BookingIx) (x : Booking) (t : State) (y : Booking) : Prop where
  found : t.booking b = some y
  outage : y.outage = x.outage.map (·.mapCauses (Cause.abort ns))
  closes : x.state = .closing → y.state = .closing ∨ y.state = .closed
  paid : x.state = .closing → ns ≠ [] → y.settled = true → y.state = .closed ∨ ∃ k ∈ t.billWaiting, k.booking = b

theorem causesAborted_nil (h : s.booking b = some x) : CausesAborted [] b x s x := by
  refine ⟨h, ?_, .inl, fun _ k => absurd rfl k⟩
  have none_ : (fun o : OutageState => o.mapCauses (Cause.abort [])) = id := by
    funext o; rw [abort_nil, mapCauses_id]; rfl
  rw [none_, Option.map_id]; rfl

theorem CausesAborted.congr {ns : List ProbeNo} {y : Booking} (h : CausesAborted ns b x t y) (bookings : u.bookings = t.bookings)
    (waiting : u.billWaiting = t.billWaiting) : CausesAborted ns b x u y :=
  ⟨(State.booking_congr bookings b).trans h.found, h.outage, h.closes, by rw [waiting]; exact h.paid⟩

/-- A settlement keeps a CLOSING or CLOSED record in these states. -/
theorem Settles.closing {y y' : Booking} (h : Settles t u) (hy : t.booking b = some y) (hy' : u.booking b = some y')
    (open_ : y.state = .closing ∨ y.state = .closed) : y'.state = .closing ∨ y'.state = .closed := by
  have states := h.states b
  rw [stateOf_of_booking hy, stateOf_of_booking hy', Option.some_inj, Option.some_inj, Option.some_inj] at states
  rcases states with same | ⟨-, closed⟩
  · rw [same]; exact open_
  · exact .inr closed

/-- One more probe ends ABORTED. -/
theorem CausesAborted.snoc {ns : List ProbeNo} {y : Booking} (h : CausesAborted ns b x t y) (m : Moment) (n : ProbeNo)
    (p : PortIx) : ∃ y', CausesAborted (ns ++ [n]) b x (t.concludeProbe m n p (.bare .aborted)) y' := by
  obtain ⟨y', found, same, other, paid, -, -⟩ := concludeProbe_causesSettled m n p (.bare .aborted) t b y h.found
  have outage : y'.outage = y.outage.map fun o => o.mapCauses (Cause.settle n { value := .unknown, brk := none }) :=
    congrArg Booking.outage same
  refine ⟨y', found, ?_, fun closing => ?_, fun closing _ settled => ?_⟩
  · rw [outage, h.outage, Option.map_map]
    refine congrArg (x.outage.map ·) (funext fun o => ?_)
    rw [Function.comp_apply, mapCauses_comp, abort_snoc]
  · exact (settles_concludeProbe ..).closing h.found found (h.closes closing)
  · rcases h.closes closing with open_ | closed
    · exact paid open_ settled
    · exact .inl ((other (by simp [closed])).trans closed)

theorem CausesAborted.waiting (m : Moment) (l : List WaitingProbe) {ns : List ProbeNo} {y : Booking}
    (h : CausesAborted ns b x t y) : ∃ y', CausesAborted (ns ++ l.map (·.number)) b x
      (l.foldl (fun t w => t.concludeProbe m w.number w.port (.bare .aborted)) t) y' := by
  induction l generalizing ns t y with
  | nil => exact ⟨y, by simpa using h⟩
  | cons w l ih =>
    obtain ⟨y', first⟩ := h.snoc m w.number w.port
    obtain ⟨z, all⟩ := ih first
    exact ⟨z, by simpa using all⟩

/-- RESTART ends every probe there is. -/
theorem abortAll_causes (hx : s.booking b = some x) (m : Moment) :
    ∃ y, CausesAborted s.heldNumbers b x (s.abortAll m) y := by
  have start : CausesAborted [] b x { s with probeWaiting := [] } x := causesAborted_nil hx
  unfold State.abortAll
  dsimp only
  split
  · next f hf =>
    have held : s.heldNumbers = [] ++ [f.number] ++ s.probeWaiting.map (·.number) := by simp [State.heldNumbers, hf]
    obtain ⟨y, first⟩ := start.snoc m f.number f.port
    rw [held]
    refine (first.congr ?_ ?_).waiting m s.probeWaiting <;> rw [leaveFlight_rest]
  · next hf =>
    have held : s.heldNumbers = [] ++ s.probeWaiting.map (·.number) := by simp [State.heldNumbers, hf]
    rw [held]
    exact start.waiting m s.probeWaiting

/-- An accepted RESTART, and the probes it ends. -/
theorem restart_causes {r : Req} (h : FromOperator s r) (running : s.restart = false)
    (room : s.countBookings (fun x => decide (x.state ∈ [.armed, .live, .overrun, .closing])) ≤ 64 - s.bills.length)
    (hx : s.booking b = some x) :
    ∃ t y, exec (.restart r (some ())) s = .next t ∧ CausesAborted s.heldNumbers b x t y := by
  have check : checkRestart (s.advance r.m) = none := by
    rw [checkRestart_eq, State.advance_restart, State.advance_bills, advance_countBookings, running,
      if_neg (Nat.not_lt.2 room)]
    rfl
  let v := (s.advance r.m).markRestart
  have answered : AnsweredOnly (v.abortAll r.m) (reqRestart r (some ()) (s.advance r.m)) r 2 .ok [] :=
    takeRequest_answered (h.advance r.m) (checked_none check)
  have held : v.heldNumbers = s.heldNumbers := advance_heldNumbers r.m s
  have marked : v.booking b = some (if x.carrying then { x with restartClose := true } else x) := by
    rw [markRestart_booking, State.advance_booking, hx]; rfl
  obtain ⟨y, aborted⟩ := abortAll_causes marked r.m
  have aborted := aborted.congr (u := reqRestart r (some ()) (s.advance r.m)) (by rw [answered.rest]) (by rw [answered.rest])
  rw [held] at aborted
  refine ⟨_, y, rfl, ?_⟩
  split at aborted
  · exact ⟨aborted.found, aborted.outage, aborted.closes, aborted.paid⟩
  · exact aborted

/-! ## Attribution by strength (R117) -/

theorem isPending_iff (v : CauseValue) : v.isPending = true ↔ ∃ n, v = .pending n := by
  cases v <;> simp [CauseValue.isPending]

/-- The attribution of a record by the tests of R117 in their order. -/
theorem attribution_eq (o : OutageRecord) [Decidable (∃ c ∈ o.reported, c.value = .network)]
    [Decidable (∃ c ∈ o.reported, ∃ n, c.value = .pending n)] [Decidable (∃ c ∈ o.reported, c.value = .unknown)] :
    o.attribution = if ∃ c ∈ o.reported, c.value = .network then .network
      else if ∃ c ∈ o.reported, ∃ n, c.value = .pending n then .pending
      else if ∃ c ∈ o.reported, c.value = .unknown then .unknown
      else .venue := by
  simp only [OutageRecord.attribution, List.any_eq_true, decide_eq_true_eq, isPending_iff]

/-- No cause is stronger than VENUE exactly when every one is VENUE. -/
theorem all_venue_iff (o : OutageRecord) : (∀ c ∈ o.reported, c.value = .venue) ↔
    ¬ (∃ c ∈ o.reported, c.value = .network) ∧ ¬ (∃ c ∈ o.reported, ∃ n, c.value = .pending n) ∧
      ¬ ∃ c ∈ o.reported, c.value = .unknown := by
  have weakest : ∀ v : CauseValue, v = .venue ↔ v ≠ .network ∧ (¬ ∃ n, v = .pending n) ∧ v ≠ .unknown := fun v => by
    cases v <;> simp
  simp only [weakest, not_exists, not_and, forall_and, ne_eq]

/-- Which attribution a record has, by the strongest of the causes it reports. -/
theorem attribution_iff (o : OutageRecord) :
    (o.attribution = .network ↔ ∃ c ∈ o.reported, c.value = .network) ∧
    (o.attribution = .pending ↔ (∀ c ∈ o.reported, c.value ≠ .network) ∧ ∃ c ∈ o.reported, ∃ n, c.value = .pending n) ∧
    (o.attribution = .unknown ↔ (∀ c ∈ o.reported, c.value ≠ .network ∧ ∀ n, c.value ≠ .pending n) ∧
      ∃ c ∈ o.reported, c.value = .unknown) ∧
    (o.attribution = .venue ↔ ∀ c ∈ o.reported, c.value = .venue) := by
  classical
  have noNetwork : (∀ c ∈ o.reported, c.value ≠ .network) ↔ ¬ ∃ c ∈ o.reported, c.value = .network := by simp
  have noProbe : (∀ c ∈ o.reported, ∀ n, c.value ≠ .pending n) ↔ ¬ ∃ c ∈ o.reported, ∃ n, c.value = .pending n := by simp
  simp only [forall_and, noNetwork, noProbe, all_venue_iff]
  rw [attribution_eq]
  by_cases network : ∃ c ∈ o.reported, c.value = .network
  · simp [network]
  by_cases pending : ∃ c ∈ o.reported, ∃ n, c.value = .pending n
  · simp [network, pending]
  by_cases unknown : ∃ c ∈ o.reported, c.value = .unknown
  · simp [network, pending, unknown]
  · simp [network, pending, unknown]

theorem breakOf_eq_some (o : OutageRecord) (c : Option Cause) (k : Break) :
    o.breakOf c = some k ↔ ∃ a, c = some a ∧ a.value.attribution = o.attribution ∧ a.brk = some k := by
  simp [OutageRecord.breakOf, Option.bind_eq_some_iff]

theorem breakOf_eq_none (o : OutageRecord) (c : Option Cause) :
    o.breakOf c = none ↔ ∀ a, c = some a → a.value.attribution = o.attribution → a.brk = none := by
  cases c <;> simp [OutageRecord.breakOf]

/-- The break comes from the leg whose cause is the attribution, the main leg before the backup leg. -/
theorem brk_from {o : OutageRecord} {k : Break} (h : o.brk = some k) :
    (∃ c, o.main.reported = some c ∧ c.value.attribution = o.attribution ∧ c.brk = some k) ∨
    ((∀ c, o.main.reported = some c → c.value.attribution = o.attribution → c.brk = none) ∧
      ∃ c, o.backup.reported = some c ∧ c.value.attribution = o.attribution ∧ c.brk = some k) := by
  rw [← breakOf_eq_some, ← breakOf_eq_none, ← breakOf_eq_some]
  unfold OutageRecord.brk at h
  split at h
  · next main => exact .inl (main.trans h)
  · next main => exact .inr ⟨main, h⟩

/-- Settles O59: a settlement record by record, the probes a RESTART ends one after another, and the strength order. -/
theorem probesSettleCauses : Obligations.ProbesSettleCauses := by
  refine ⟨endFlight_causesSettled, fun m p o s => ⟨fun f hf hp => endProbeOf_flying_causes hf hp m o,
      fun w hw hp inv => endProbeOf_waiting_causes inv hw hp m o, fun none_ => endProbeOf_none none_ m o⟩,
    fun m p s dark => ⟨_, lightReturns_dark dark m, fun f hf hp => ?_, fun w hw hp inv => ?_⟩,
    fun r b x s h running room hx => ?_, attribution_iff, fun o k h => brk_from h⟩
  · have start := relit_sameEngine m p s
    exact (endProbeOf_flying_causes (start.flight.trans hf) hp m .liveFibre).relit
  · have start := relit_sameEngine m p s
    exact (endProbeOf_waiting_causes (start.probeInv inv) (start.probeWaiting.symm ▸ hw) hp m .liveFibre).relit
  · obtain ⟨t, y, run, aborted⟩ := restart_causes h running room hx
    exact ⟨t, y, run, aborted.found, aborted.outage, aborted.paid⟩

end Sys2Proof.Machine
end

section
/-! What a booking makes of a second it lived (R124 to R128): the second of the first outage record open in it, and the
count of each destination. -/

namespace Sys2Proof.Machine
open Sys2Proof.Config

variable {n : Nat} {o : OutageState} {r : Booking}

/-! ## The outage second (R124, R125) -/

theorem openIn_iff (z : OutageRecord) (n : Nat) :
    z.openIn n = true ↔ z.start ≤ n ∧ ∀ e, z.finish = some e → n ≤ e := by
  cases h : z.finish <;> simp [OutageRecord.openIn, h]

/-- The record at place `i` is the first of `l` that was open in the second `n`. -/
def FirstOpen (n : Nat) (l : List OutageRecord) (i : Nat) (z : OutageRecord) : Prop :=
  z.openIn n = true ∧ ∀ j w, j < i → l[j]? = some w → ¬ w.openIn n = true

theorem addSecond_length (n : Nat) (l : List OutageRecord) : (addSecond n l).length = l.length := by
  simpa using congrArg List.length (addSecond_map (g := fun _ => ()) (fun _ _ => rfl) n l)

/-- The first open record alone gains the second. -/
theorem addSecond_getElem? {l : List OutageRecord} {i : Nat} {z : OutageRecord} (h : l[i]? = some z) :
    (FirstOpen n l i z → (addSecond n l)[i]? = some { z with seconds := z.seconds + 1 }) ∧
      (¬ FirstOpen n l i z → (addSecond n l)[i]? = some z) := by
  induction l generalizing i with
  | nil => simp at h
  | cons x l ih =>
    by_cases open_ : x.openIn n = true
    · simp only [addSecond, open_, if_true]
      cases i with
      | zero =>
        obtain rfl : x = z := by simpa using h
        exact ⟨fun _ => rfl, fun k => absurd ⟨open_, fun _ _ k => absurd k (Nat.not_lt_zero _)⟩ k⟩
      | succ i => exact ⟨fun k => absurd open_ (k.2 0 x (Nat.succ_pos i) rfl), fun _ => h⟩
    · simp only [addSecond, open_]
      cases i with
      | zero =>
        obtain rfl : x = z := by simpa using h
        exact ⟨fun k => absurd k.1 open_, fun _ => rfl⟩
      | succ i =>
        have shifted : FirstOpen n (x :: l) (i + 1) z ↔ FirstOpen n l i z := by
          refine and_congr_right fun _ => ⟨fun k j w hj hw => k (j + 1) w (by omega) hw, fun k j w hj hw => ?_⟩
          cases j with
          | zero => obtain rfl : x = w := by simpa using hw
                    exact open_
          | succ j => exact k j w (by omega) hw
        rw [shifted]
        exact ih h

theorem takeSecond_flag (o : OutageState) (n : Nat) : (o.takeSecond n).flag = o.flag := by
  unfold OutageState.takeSecond; split <;> rfl

theorem takeSecond_touched (o : OutageState) (n : Nat) : (o.takeSecond n).touched = o.flag := by
  unfold OutageState.takeSecond; split <;> rfl

theorem takeSecond_run (o : OutageState) (n : Nat) : (o.takeSecond n).run = if o.touched then o.run + 1 else 0 := by
  unfold OutageState.takeSecond; split <;> rfl

theorem takeSecond_records (o : OutageState) (n : Nat) :
    (o.takeSecond n).records = if o.touched then addSecond n o.records else o.records := by
  unfold OutageState.takeSecond; split <;> rfl

theorem takeSecond_outage (h : r.outage = some o) (n : Nat) (up : Vector Bool 16) (tf : Tariff) :
    (r.takeSecond n up tf).outage = some (o.takeSecond n) := by simp [Booking.takeSecond, h]

/-! ## The count of a destination (R127, R128) -/

theorem takes_iff (r : Booking) (n : Nat) : r.takes n = true ↔ (r.state = .live ∨ r.state = .overrun) ∧
    (∃ f, r.liveFrom = some f ∧ f ≤ n) ∧ ∀ e, r.liveTo = some e → n < e := by
  cases from_ : r.liveFrom <;> cases end_ : r.liveTo <;>
    simp [Booking.takes, Booking.forwarding, Booking.lived, from_, end_]

/-- One more second in a band, when it counts. -/
theorem bands_add (v : Bands) {band : Nat} (h : band < 4) :
    v.add band = { b0 := v.b0 + if band = 0 then 1 else 0, b1 := v.b1 + if band = 1 then 1 else 0,
                   b2 := v.b2 + if band = 2 then 1 else 0, b3 := v.b3 + if band = 3 then 1 else 0 } := by
  obtain rfl | rfl | rfl | rfl : band = 0 ∨ band = 1 ∨ band = 2 ∨ band = 3 := by omega
  all_goals rfl

theorem bandOf_lt (tf : Tariff) (loss : Nat) : bandOf tf loss < 4 := by
  unfold bandOf; split_ifs <;> omega

/-- A count of one, for a second that counts. -/
def tick (c : Bool) : Nat := if c then 1 else 0

/-- The bands after a second that counts, or does not, in `band`. -/
def Bands.gain (v : Bands) (band : Nat) (c : Bool) : Bands :=
  { b0 := v.b0 + tick (c && decide (band = 0)), b1 := v.b1 + tick (c && decide (band = 1)),
    b2 := v.b2 + tick (c && decide (band = 2)), b3 := v.b3 + tick (c && decide (band = 3)) }

theorem gain_true (v : Bands) {band : Nat} (h : band < 4) : v.gain band true = v.add band := by
  rw [bands_add v h]
  simp [Bands.gain, tick]

theorem gain_false (v : Bands) (band : Nat) : v.gain band false = v := by simp [Bands.gain, tick]

/-- A lived second counts once: live or overrun, undelivered or delivered in its band. -/
theorem count_eq (x : Residency) (late delivered : Bool) {band : Nat} (h : band < 4) :
    x.count late (if delivered then some band else none) =
      { deliveredLive := x.deliveredLive + tick (delivered && !late)
        undeliveredLive := x.undeliveredLive + tick (!delivered && !late)
        bandLive := x.bandLive.gain band (delivered && !late)
        deliveredOver := x.deliveredOver + tick (delivered && late)
        undeliveredOver := x.undeliveredOver + tick (!delivered && late)
        bandOver := x.bandOver.gain band (delivered && late) } := by
  cases late <;> cases delivered <;> simp [Residency.count, gain_true _ h, gain_false, tick]

/-- Settles O45: the outage state, the merge fields and each destination of a booking that takes a second. -/
theorem secondsAreClassified : Obligations.SecondsAreClassified := by
  intro r n up tf o k ho hk y
  refine ⟨takes_iff r n, ?_, ⟨o.takeSecond n, takeSecond_outage ho n up tf, takeSecond_flag o n, takeSecond_touched o n,
    takeSecond_run o n, ?_, fun quiet => ?_, fun touched i z hz => ?_⟩, List.length_map .., fun i d a hd ha => ?_⟩
  · have merge : y.merge = some { k with loss := 0 } := by simp [y, Booking.takeSecond, hk]
    rw [← merge]
    rfl
  · rw [takeSecond_records]
    split
    · exact addSecond_length n o.records
    · rfl
  · rw [takeSecond_records, quiet]
    rfl
  · intro openIn first
    have first_iff : first ↔ FirstOpen n o.records i z := by simp only [first, openIn, FirstOpen, openIn_iff]
    rw [first_iff, takeSecond_records, if_pos touched]
    exact addSecond_getElem? hz
  · have taken : y.dests[i]? = some (d.takeSecond o.touched (r.overrunSecond n) up[d.port] tf k.loss) := by
      simp [y, Booking.takeSecond, hd, ho, hk]
    have counted := count_eq a.residency (r.overrunSecond n) (!o.touched && up[d.port]) (bandOf_lt tf (k.loss + a.secondDrops))
    rw [taken, Dest.takeSecond, ha, Option.map_some, counted]
    rfl

end Sys2Proof.Machine
end

section
/-! The law of a record's lived seconds (R124, R128): what keeps it when the record changes, and when the second passes. -/

namespace Sys2Proof.Machine
open Sys2Proof.Config

variable {n n' L V S S' : Nat} {o o' : OutageState} {r r' : Booking} {x : Residency}

/-! ## What the law reads of a record -/

/-- The residency of each destination, where it has an account. -/
def Booking.residencies (r : Booking) : List (Option Residency) := r.dests.map fun d => d.account.map (·.residency)

/-- What the law reads of a record. -/
def Booking.tally (r : Booking) := ((r.state, r.liveFrom, r.liveTo, r.overrunFrom), r.outage, r.residencies)

theorem balanced_iff (r : Booking) : (∀ d ∈ r.dests, ∃ a, d.account = some a ∧ a.residency.Balanced L V S) ↔
    ∀ z ∈ r.residencies, ∃ x, z = some x ∧ x.Balanced L V S := by
  simp only [Booking.residencies, List.mem_map, forall_exists_index, and_imp, forall_apply_eq_imp_iff₂,
    Option.map_eq_some_iff]
  refine forall₂_congr fun d _ => ⟨?_, ?_⟩
  · rintro ⟨a, ha, balanced⟩
    exact ⟨_, ⟨a, ha, rfl⟩, balanced⟩
  · rintro ⟨_, ⟨a, ha, rfl⟩, balanced⟩
    exact ⟨a, ha, balanced⟩

theorem Booking.SecondsOk.congr (h : r.SecondsOk n) (same : r'.tally = r.tally) : r'.SecondsOk n := by
  simp only [Booking.tally, Prod.mk.injEq] at same
  obtain ⟨⟨state, liveFrom, liveTo, overrunFrom⟩, outage, residencies⟩ := same
  have forwarding : r'.forwarding = r.forwarding := by rw [Booking.forwarding, Booking.forwarding, state]
  have last : r'.livedTo n = r.livedTo n := by rw [Booking.livedTo, Booking.livedTo, liveTo]
  constructor
  · rw [state, liveFrom, liveTo, overrunFrom]; exact h.before
  · rw [forwarding, state, liveFrom, liveTo, overrunFrom]; exact h.running
  · rw [state, liveFrom, liveTo]; exact h.ended
  · rw [last, liveFrom, overrunFrom]; exact h.times
  · simp only [balanced_iff] at *
    rw [last, liveFrom, overrunFrom, outage, residencies]
    simpa only [balanced_iff] using h.balance
  · rw [forwarding, outage]; exact h.outage

/-! ## The outage state in a second (R117, R121, R124) -/

/-- The outage state of a booking in the second `n`: in outage, the second is touched and a record open; a touched second
has a record that was open in it; and no record begins later. -/
def OutageState.Stands (o : OutageState) (n : Nat) : Prop :=
  (o.flag = true → o.touched = true ∧ o.openRecord ≠ none) ∧
    (o.touched = true → ∃ k ∈ o.records, k.openIn n = true) ∧ ∀ k ∈ o.records, k.start ≤ n

theorem openRecord_eq_some {k : OutageRecord} :
    o.openRecord = some k ↔ o.records.getLast? = some k ∧ k.finish = none := by
  unfold OutageState.openRecord
  cases o.records.getLast? with
  | none => simp
  | some z =>
    cases h : z.finish with
    | none => simp only [h, Option.isNone_none, if_true, Option.some_inj]
              exact ⟨fun e => ⟨e, e ▸ h⟩, And.left⟩
    | some e => simp only [h, Option.isNone_some, Option.some_inj]
                exact ⟨nofun, fun ⟨e, f⟩ => by rw [← e, h] at f; cases f⟩

theorem openRecord_ne_none : o.openRecord ≠ none ↔ ∃ k, o.records.getLast? = some k ∧ k.finish = none := by
  simp [Option.ne_none_iff_exists', openRecord_eq_some]

/-- The seconds in which a record was open. -/
def OutageRecord.span (k : OutageRecord) : Nat × Option Nat := (k.start, k.finish)

theorem stands_iff : o.Stands n ↔
    (o.flag = true → o.touched = true ∧ ∃ z, (o.records.map (·.span)).getLast? = some z ∧ z.2 = none) ∧
    (o.touched = true → ∃ z ∈ o.records.map (·.span), z.1 ≤ n ∧ ∀ e, z.2 = some e → n ≤ e) ∧
    ∀ z ∈ o.records.map (·.span), z.1 ≤ n := by
  unfold OutageState.Stands
  simp [openRecord_ne_none, openIn_iff, OutageRecord.span, List.getLast?_map]

theorem stands_initial (n : Nat) : OutageState.initial.Stands n := by simp [OutageState.Stands, OutageState.initial]

/-- The causes of the records, and the run, do not matter. -/
theorem OutageState.Stands.congr (h : o.Stands n) (flag : o'.flag = o.flag) (touched : o'.touched = o.touched)
    (spans : o'.records.map (·.span) = o.records.map (·.span)) : o'.Stands n := by
  rw [stands_iff] at *
  rwa [flag, touched, spans]

theorem updLast_concat {α : Type} (f : α → α) (l : List α) (z : α) : updLast f (l ++ [z]) = l ++ [f z] := by
  induction l with
  | nil => rfl
  | cons y l ih =>
    cases l with
    | nil => rfl
    | cons w l => exact congrArg (y :: ·) ih

theorem updLast_of_last {α : Type} (f : α → α) {l : List α} {z : α} (h : l.getLast? = some z) :
    updLast f l = l.dropLast ++ [f z] := by
  have split := List.dropLast_append_getLast? z h
  rw [← split, updLast_concat, List.dropLast_concat]

/-- The open record changed in its causes alone. -/
theorem stands_updRecord {f : OutageRecord → OutageRecord} (span : ∀ k, (f k).span = k.span) (h : o.Stands n) :
    (o.updRecord f).Stands n := h.congr rfl rfl (updLast_map span o.records)

theorem seconds_updLast {f : OutageRecord → OutageRecord} (h : ∀ k, (f k).seconds = k.seconds)
    (e : o'.records = updLast f o.records) : o'.seconds = o.seconds := by
  rw [OutageState.seconds, OutageState.seconds, e, updLast_map h]

/-! ### Entry and exit (R117, R120, R121) -/

theorem enter_opens (room : o.records.length < 8) (n : Nat) :
    o.enter n = { o with flag := true, touched := true, records := o.records ++ [.opened n] } := by
  have room : o.records.length < outageRecordMax := room
  rw [OutageState.enter, if_pos room]

theorem enter_reopens {before : List OutageRecord} {k : OutageRecord} (full : 8 ≤ o.records.length)
    (last : o.records = before ++ [k]) (n : Nat) :
    o.enter n = { o with flag := true, touched := true, records := before ++ [k.reopen] } := by
  have full : ¬ o.records.length < outageRecordMax := Nat.not_lt.2 full
  rw [OutageState.enter, if_neg full, last, updLast_concat]

/-- What an entry into outage in the second `n` leaves of the records: the last one open with no situation held, newly
opened or record 8 again, behind the others (R117, R121). -/
structure Entered (o : OutageState) (n : Nat) (before : List OutageRecord) (k : OutageRecord) : Prop where
  records : (o.enter n).records = before ++ [k]
  finish : k.finish = none
  fresh : ∀ l, (k.legCause l).situation = none
  opens : o.records.length < 8 → before = o.records ∧ k.start = n ∧ k.seconds = 0 ∧ k.merged = false
  reopens : 8 ≤ o.records.length → before = o.records.dropLast ∧ k.merged = true ∧
    ∀ old, o.records.getLast? = some old → k.start = old.start ∧ k.seconds = old.seconds

theorem enter_entered (o : OutageState) (n : Nat) : ∃ before k, Entered o n before k := by
  by_cases room : o.records.length < 8
  · refine ⟨o.records, .opened n, by rw [enter_opens room], rfl, fun l => ?_, fun _ => ⟨rfl, rfl, rfl, rfl⟩,
      fun full => absurd room (Nat.not_lt.2 full)⟩
    cases l <;> rfl
  · have full := Nat.not_lt.1 room
    obtain e | ⟨before, k, last⟩ := List.eq_nil_or_concat o.records
    · rw [e] at full; exact absurd full (by decide)
    · rw [List.concat_eq_append] at last
      refine ⟨before, k.reopen, by rw [enter_reopens full last], rfl, fun l => ?_, fun k => absurd k room,
        fun _ => ⟨by rw [last, List.dropLast_concat], rfl, fun old hold => ?_⟩⟩
      · cases l <;> rfl
      · rw [last, List.getLast?_concat, Option.some_inj] at hold
        rw [← hold]
        exact ⟨rfl, rfl⟩

/-- An entry into outage touches the second and leaves a record open. -/
theorem stands_enter (h : o.Stands n) : (o.enter n).Stands n := by
  obtain ⟨-, -, starts⟩ := h
  obtain ⟨before, k, records, finish, -, opens, reopens⟩ := enter_entered o n
  have last : k ∈ (o.enter n).records := by simp [records]
  have begun : k.start ≤ n ∧ ∀ z ∈ before, z ∈ o.records := by
    by_cases room : o.records.length < 8
    · obtain ⟨rfl, start, -⟩ := opens room
      exact ⟨start.le, fun _ => id⟩
    · have full := Nat.not_lt.1 room
      obtain ⟨rfl, -, old⟩ := reopens full
      have held : o.records ≠ [] := List.ne_nil_of_length_pos (Nat.lt_of_lt_of_le (by decide) full)
      obtain ⟨z, hz⟩ := Option.isSome_iff_exists.1 (List.getLast?_isSome.2 held)
      exact ⟨(old z hz).1.trans_le (starts z (List.mem_of_getLast? hz)), fun _ => List.mem_of_mem_dropLast⟩
  have open_ : k.openIn n = true := (openIn_iff k n).2 ⟨begun.1, by simp [finish]⟩
  refine ⟨fun _ => ⟨rfl, openRecord_ne_none.2 ⟨k, by simp [records], finish⟩⟩, fun _ => ⟨k, last, open_⟩, fun z hz => ?_⟩
  rw [records, List.mem_append, List.mem_singleton] at hz
  obtain hz | rfl := hz
  exacts [starts z (begun.2 z hz), begun.1]

theorem seconds_enter (o : OutageState) (n : Nat) : (o.enter n).seconds = o.seconds := by
  unfold OutageState.enter
  split
  · simp [OutageState.seconds, OutageRecord.opened]
  · exact seconds_updLast (f := OutageRecord.reopen) (fun _ => rfl) rfl

/-- A record as an exit in the second `n` leaves it: frozen there, unless it was before. -/
def OutageRecord.frozen (k : OutageRecord) (n : Nat) : OutageRecord :=
  if k.finish.isNone then { k with finish := some n } else k

theorem freeze_records (o : OutageState) (n : Nat) : (o.freeze n).records = updLast (·.frozen n) o.records := rfl

theorem frozen_start (k : OutageRecord) (n : Nat) : (k.frozen n).start = k.start := by
  unfold OutageRecord.frozen; split <;> rfl

theorem frozen_seconds (k : OutageRecord) (n : Nat) : (k.frozen n).seconds = k.seconds := by
  unfold OutageRecord.frozen; split <;> rfl

/-- A record frozen in the second `n` was open in it. -/
theorem frozen_openIn {k : OutageRecord} (h : k.openIn n = true) : (k.frozen n).openIn n = true := by
  obtain ⟨begun, ends⟩ := (openIn_iff k n).1 h
  refine (openIn_iff _ n).2 ⟨by rwa [frozen_start], fun e he => ?_⟩
  unfold OutageRecord.frozen at he
  split at he
  · obtain rfl : n = e := by simpa using he
    exact le_rfl
  · exact ends e he

theorem stands_freeze (h : o.Stands n) : (o.freeze n).Stands n := by
  obtain ⟨-, touched, starts⟩ := h
  have records := freeze_records o n
  obtain e | ⟨before, k, e⟩ := List.eq_nil_or_concat o.records
  · rw [e] at records touched
    refine ⟨nofun, fun t => ?_, by simp [records, updLast]⟩
    obtain ⟨k, hk, -⟩ := touched t
    simp at hk
  · rw [List.concat_eq_append] at e
    rw [e, updLast_concat] at records
    rw [e] at touched starts
    refine ⟨nofun, fun t => ?_, fun z hz => ?_⟩
    · obtain ⟨z, hz, hn⟩ := touched t
      rw [List.mem_append, List.mem_singleton] at hz
      obtain hz | rfl := hz
      · exact ⟨z, by simp [records, hz], hn⟩
      · exact ⟨z.frozen n, by simp [records], frozen_openIn hn⟩
    · rw [records, List.mem_append, List.mem_singleton] at hz
      obtain hz | rfl := hz
      · exact starts z (by simp [hz])
      · rw [frozen_start]; exact starts k (by simp)

theorem seconds_freeze (o : OutageState) (n : Nat) : (o.freeze n).seconds = o.seconds :=
  seconds_updLast (frozen_seconds · n) (freeze_records o n)

/-- As the second passes the mark stands for the flag, and what is open stays open. -/
theorem stands_takeSecond (h : o.Stands n) : (o.takeSecond n).Stands (n + 1) := by
  have spans : (o.takeSecond n).records.map (·.span) = o.records.map (·.span) := by
    rw [takeSecond_records]
    split
    · exact addSecond_map (fun _ _ => rfl) n o.records
    · rfl
  rw [stands_iff] at h ⊢
  rw [spans, takeSecond_flag, takeSecond_touched]
  obtain ⟨flag, -, starts⟩ := h
  refine ⟨fun k => ⟨k, (flag k).2⟩, fun k => ?_, fun z hz => (starts z hz).trans n.le_succ⟩
  obtain ⟨-, z, hz, open_⟩ := flag k
  have hz := List.mem_of_getLast? hz
  exact ⟨z, hz, (starts z hz).trans n.le_succ, by simp [open_]⟩

theorem addSecond_sum {l : List OutageRecord} (h : ∃ k ∈ l, k.openIn n = true) :
    ((addSecond n l).map (·.seconds)).sum = (l.map (·.seconds)).sum + 1 := by
  induction l with
  | nil => obtain ⟨k, hk, -⟩ := h; simp at hk
  | cons z l ih =>
    by_cases open_ : z.openIn n = true
    · simp only [addSecond, open_, if_true, List.map_cons, List.sum_cons]
      omega
    · obtain ⟨k, hk, hn⟩ := h
      have hk : k ∈ l := (List.mem_cons.1 hk).resolve_left fun e => open_ (e ▸ hn)
      simp only [addSecond, open_, List.map_cons, List.sum_cons, Bool.false_eq_true, if_false, ih ⟨k, hk, hn⟩]
      omega

/-- A touched second is one of a record that was open in it. -/
theorem seconds_takeSecond (h : o.Stands n) : (o.takeSecond n).seconds = o.seconds + if o.touched then 1 else 0 := by
  obtain ⟨-, touched, -⟩ := h
  rw [OutageState.seconds, takeSecond_records]
  split
  · next k => exact addSecond_sum (touched k)
  · rfl

/-! ## One record changed -/

/-- Nothing is lived yet, and the record does not run. -/
theorem secondsOk_unlived (idle : r.forwarding = false)
    (times : r.liveFrom = none ∧ r.liveTo = none ∧ r.overrunFrom = none) (n : Nat) : r.SecondsOk n := by
  have still : ¬ r.forwarding = true := by simp [idle]
  have unlived : ∀ f, r.liveFrom ≠ some f := fun f k => by rw [times.1] at k; cases k
  exact ⟨fun _ => times, fun k => absurd k still, fun _ k => absurd times.1 k, fun f hf => absurd hf (unlived f),
    fun f hf => absurd hf (unlived f), fun k => absurd k still⟩

/-- A record that does not run is the same in every second. -/
theorem Booking.SecondsOk.idle (h : r.SecondsOk n) (idle : r.forwarding = false) (n' : Nat) : r.SecondsOk n' := by
  have still : ¬ r.forwarding = true := by simp [idle]
  have last : ∀ f, r.liveFrom = some f → r.livedTo n' = r.livedTo n := fun f hf => by
    have state : r.state ∈ [.closing, .closed] := by
      by_contra other
      have unlived := (h.before fun k => ?_).1
      · rw [unlived] at hf; cases hf
      · simp only [Booking.forwarding, decide_eq_false_iff_not, not_or] at idle
        simp_all
    obtain ⟨e, he⟩ := Option.ne_none_iff_exists'.1 (h.ended state (by simp [hf]))
    simp [Booking.livedTo, he]
  refine ⟨h.before, fun k => absurd k still, h.ended, fun f hf => ?_, fun f hf => ?_, fun k => absurd k still⟩
  · rw [last f hf]; exact h.times f hf
  · rw [last f hf]; exact h.balance f hf

/-- The outage state changed, no second of its records. -/
theorem Booking.SecondsOk.updOutage (h : r.SecondsOk n) {f : OutageState → OutageState}
    (seconds : ∀ o, (f o).seconds = o.seconds) (stands : ∀ o, o.Stands n → (f o).Stands n) :
    (r.updOutage f).SecondsOk n := by
  refine ⟨h.before, h.running, h.ended, h.times, fun from_ hf => ?_, fun runs o ho => ?_⟩
  · obtain ⟨o, ho, total, balanced⟩ := h.balance from_ hf
    refine ⟨f o, congrArg (Option.map f) ho, ?_⟩
    rw [seconds]
    exact ⟨total, balanced⟩
  · obtain ⟨o, hr, rfl⟩ := Option.map_eq_some_iff.1 ho
    exact stands o (h.outage runs o hr)

/-- ARMED to LIVE in the second `n`: nothing lived, nothing counted (R13, R128). -/
theorem secondsOk_atLive (h : r.SecondsOk n) (armed : r.state = .armed) : (r.atLive n).SecondsOk n := by
  obtain ⟨-, liveTo, overrunFrom⟩ := h.before (by simp [armed])
  have liveTo : (r.atLive n).liveTo = none := liveTo
  have overrunFrom : (r.atLive n).overrunFrom = none := overrunFrom
  have last : (r.atLive n).livedTo n = n := by rw [Booking.livedTo, liveTo]; rfl
  have zero : DestAccount.initial.residency.Balanced 0 0 (OutageState.seconds .initial) := ⟨rfl, rfl, rfl, rfl, Nat.zero_le _⟩
  have state : (r.atLive n).state = .live := rfl
  have outage : (r.atLive n).outage = some .initial := rfl
  refine ⟨fun k => absurd (by simp [state]) k, fun _ => ⟨by simp [Booking.atLive], liveTo, ?_⟩, fun k => ?_,
    fun f hf => ?_, fun f hf => ?_, fun _ o ho => ?_⟩
  · simp [overrunFrom, state]
  · simp [state] at k
  · obtain rfl : n = f := by simpa [Booking.atLive] using hf
    rw [last, overrunFrom]
    exact ⟨le_rfl, nofun⟩
  · obtain rfl : n = f := by simpa [Booking.atLive] using hf
    rw [last, overrunFrom]
    simp only [Option.getD_none, Nat.sub_self]
    refine ⟨.initial, outage, le_rfl, fun d hd => ?_⟩
    obtain ⟨d, -, rfl⟩ := List.mem_map.1 hd
    exact ⟨.initial, rfl, zero⟩
  · rw [outage, Option.some_inj] at ho
    rw [← ho]
    exact stands_initial n

/-- LIVE to OVERRUN in the second `n`: what was lived is live (R14). -/
theorem secondsOk_overrun (h : r.SecondsOk n) (live : r.state = .live) :
    { r with state := .overrun, overrunFrom := some n : Booking }.SecondsOk n := by
  have runs : r.forwarding = true := by simp [Booking.forwarding, live]
  obtain ⟨liveFrom, liveTo, ran⟩ := h.running runs
  have overrunFrom : r.overrunFrom = none := by simpa [live] using ran
  have last : r.livedTo n = n := by simp [Booking.livedTo, liveTo]
  refine ⟨fun k => absurd (by simp) k, fun _ => ⟨liveFrom, liveTo, by simp⟩, fun k => by simp at k, fun f hf => ?_,
    fun f hf => ?_, fun _ => h.outage runs⟩
  · refine ⟨(h.times f hf).1, fun o ho => ?_⟩
    obtain rfl : n = o := by simpa using ho
    have := (h.times f hf).1
    rw [last] at this
    exact ⟨this, last.ge⟩
  · have balance := h.balance f hf
    rw [overrunFrom, last] at balance
    have last' : Booking.livedTo { r with state := .overrun, overrunFrom := some n } n = n := last
    rw [last']
    exact balance

/-- A record ends its run, or its arming, in the second `n` (R16, R17). -/
theorem secondsOk_atClosing (h : r.SecondsOk n) (carries : r.state = .armed ∨ r.state = .live ∨ r.state = .overrun)
    (cut : CutReason) : (r.atClosing cut n).SecondsOk n := by
  have idle : (r.atClosing cut n).forwarding = false := rfl
  have still : ¬ (r.atClosing cut n).forwarding = true := by simp [idle]
  cases runs : r.forwarding with
  | false =>
    obtain ⟨liveFrom, liveTo, overrunFrom⟩ := h.before fun k => by
      rcases carries with e | e | e <;> simp [Booking.forwarding, e] at runs k
    exact secondsOk_unlived idle ⟨liveFrom, by simp [Booking.atClosing, runs, liveTo], overrunFrom⟩ n
  | true =>
    have ended : (r.atClosing cut n).liveTo = some n := by simp [Booking.atClosing, runs]
    have last : (r.atClosing cut n).livedTo n = r.livedTo n := by
      rw [Booking.livedTo, ended, Booking.livedTo, (h.running runs).2.1]; rfl
    refine ⟨fun k => absurd (by simp [Booking.atClosing]) k, fun k => absurd k still, fun _ _ => by simp [ended],
      fun f hf => ?_, fun f hf => ?_, fun k => absurd k still⟩ <;> rw [last]
    · exact h.times f hf
    obtain ⟨o, ho, total, balanced⟩ := h.balance f hf
    refine ⟨o.freeze n, by simp [Booking.atClosing, Booking.idleLegs, ho], ?_⟩
    rw [seconds_freeze]
    exact ⟨total, balanced⟩

/-- CLOSING to CLOSED (R18). -/
theorem secondsOk_closed (h : r.SecondsOk n) (closing : r.state = .closing) :
    { r with state := .closed : Booking }.SecondsOk n :=
  ⟨fun k => absurd (by simp) k, fun k => by simp [Booking.forwarding] at k, fun _ => h.ended (by simp [closing]), h.times,
    h.balance, fun k => by simp [Booking.forwarding] at k⟩

/-! ## A second taken (R126 to R128) -/

/-- A record that runs takes each second. -/
theorem Booking.SecondsOk.takes (h : r.SecondsOk n) (runs : r.forwarding = true) : r.takes n = true := by
  obtain ⟨liveFrom, liveTo, -⟩ := h.running runs
  obtain ⟨f, hf⟩ := Option.ne_none_iff_exists'.1 liveFrom
  have begun := (h.times f hf).1
  rw [Booking.livedTo, liveTo] at begun
  exact (takes_iff r n).2 ⟨by simpa [Booking.forwarding] using runs, ⟨f, hf, begun⟩, by simp [liveTo]⟩

/-- A lived second counted adds one to its balance. -/
theorem balanced_count (h : x.Balanced L V S) (late : Bool) {delivered : Option Nat} (small : ∀ b, delivered = some b → b < 4)
    (more : S' ≤ S + if delivered = none then 1 else 0) :
    (x.count late delivered).Balanced (L + if late then 0 else 1) (V + if late then 1 else 0) S' := by
  obtain ⟨live, overrun, bandLive, bandOver, outages⟩ := h
  cases delivered with
  | none => cases late <;> constructor <;> simp [Residency.count] at more ⊢ <;> omega
  | some b =>
    have total : ∀ v : Bands, (v.add b).b0 + (v.add b).b1 + (v.add b).b2 + (v.add b).b3 = v.b0 + v.b1 + v.b2 + v.b3 + 1 :=
      fun v => by
        rw [bands_add v (small b rfl)]
        have := small b rfl
        dsimp only
        split_ifs <;> omega
    have gainLive := total x.bandLive
    have gainOver := total x.bandOver
    cases late <;> constructor <;> simp [Residency.count] at more ⊢ <;> omega

theorem secondsOk_takeSecond (h : r.SecondsOk n) (runs : r.forwarding = true) (up : Vector Bool 16) (tf : Tariff) :
    (r.takeSecond n up tf).SecondsOk (n + 1) := by
  obtain ⟨liveFrom, liveTo, ran⟩ := h.running runs
  have last : r.livedTo n = n := by simp [Booking.livedTo, liveTo]
  have last' : (r.takeSecond n up tf).livedTo (n + 1) = n + 1 := by
    rw [Booking.livedTo, show (r.takeSecond n up tf).liveTo = none from liveTo]; rfl
  refine ⟨h.before, h.running, h.ended, fun f hf => ?_, fun f hf => ?_, fun _ o ho => ?_⟩
  · rw [last']
    obtain ⟨begun, later⟩ := h.times f hf
    rw [last] at begun later
    exact ⟨begun.trans n.le_succ, fun v hv => ⟨(later v hv).1, (later v hv).2.trans n.le_succ⟩⟩
  · have overrunFrom : (r.takeSecond n up tf).overrunFrom = r.overrunFrom := rfl
    obtain ⟨begun, later⟩ := h.times f hf
    obtain ⟨o, ho, total, balanced⟩ := h.balance f hf
    rw [last] at begun later total balanced
    have seconds := seconds_takeSecond (h.outage runs o ho)
    -- The second is live before OVERRUN and overrun in it, where it has begun by `n`.
    have gained : (r.overrunFrom.getD (n + 1) - f = (r.overrunFrom.getD n - f) + if r.overrunSecond n then 0 else 1) ∧
        (n + 1 - r.overrunFrom.getD (n + 1) = (n - r.overrunFrom.getD n) + if r.overrunSecond n then 1 else 0) := by
      cases hv : r.overrunFrom with
      | none => simp [Booking.overrunSecond, hv]; omega
      | some v =>
        have := (later v hv).2
        simp [Booking.overrunSecond, hv, this]; omega
    rw [last', overrunFrom]
    dsimp only
    rw [gained.1, gained.2]
    refine ⟨o.takeSecond n, takeSecond_outage ho n up tf, ?_, fun d hd => ?_⟩
    · rw [seconds]; split_ifs <;> omega
    · obtain ⟨d, member, rfl⟩ := List.mem_map.1 hd
      obtain ⟨a, ha, balanced⟩ := balanced d member
      simp only [Dest.takeSecond, ha, Option.map_some, Option.some_inj, exists_eq_left']
      refine balanced_count balanced _ (fun b hb => ?_) ?_
      · split at hb
        · rw [← Option.some_inj.1 hb]; exact bandOf_lt ..
        · cases hb
      · rw [seconds, ho]
        cases touched : o.touched <;> simp [touched]
  · obtain ⟨o, hr, rfl⟩ := Option.map_eq_some_iff.1 ho
    exact stands_takeSecond (h.outage runs o hr)

end Sys2Proof.Machine
end

section
/-! The law of lived seconds over the booking table (R124, R128): the work of an event keeps it, since of an outage's records
it writes causes, and opens or freezes one in the second in progress. -/

namespace Sys2Proof.Machine
open Sys2Proof.Config

variable {s t u : State} {b : BookingIx} {r r' : Booking} {m : Moment}

/-! ## The law of every record -/

/-- Every record keeps the law of its lived seconds. -/
structure State.Tallied (s : State) : Prop where
  record : ∀ b r, s.booking b = some r → r.SecondsOk s.sec

theorem State.Tallied.of_eq (k : s.Tallied) (bookings : t.bookings = s.bookings) (sec : t.sec = s.sec) : t.Tallied := by
  refine ⟨fun b r hb => ?_⟩
  rw [State.booking_congr bookings] at hb
  rw [sec]
  exact k.record b r hb

/-- One record written. -/
theorem State.Tallied.set (k : s.Tallied) (h : r.SecondsOk s.sec) (b : BookingIx) :
    (s.setBooking b (some r)).Tallied := by
  refine ⟨fun c x hc => ?_⟩
  rw [State.setBooking_booking] at hc
  split at hc
  · rw [← Option.some_inj.1 hc]; exact h
  · exact k.record c x hc

theorem State.Tallied.upd (k : s.Tallied) {f : Booking → Booking} (h : ∀ r, r.SecondsOk s.sec → (f r).SecondsOk s.sec)
    (b : BookingIx) : (s.updBooking b f).Tallied := by
  unfold State.updBooking
  split
  · exact k
  · next r hr => exact k.set (h r (k.record b r hr)) b

/-- One record changed in what the law does not read. -/
theorem State.Tallied.same (k : s.Tallied) {f : Booking → Booking} (h : ∀ r, (f r).tally = r.tally) (b : BookingIx) :
    (s.updBooking b f).Tallied := k.upd (fun r hr => hr.congr (h r)) b

/-- Every record changed. -/
theorem State.Tallied.map (k : s.Tallied) {f : Booking → Booking} (table : ∀ b, t.booking b = (s.booking b).map f)
    (h : ∀ r, r.SecondsOk s.sec → (f r).SecondsOk t.sec) : t.Tallied := by
  refine ⟨fun b r hb => ?_⟩
  rw [table] at hb
  obtain ⟨x, hx, rfl⟩ := Option.map_eq_some_iff.1 hb
  exact h x (k.record b x hx)

theorem tally_merge (r : Booking) (x : Option MergeState) : { r with merge := x : Booking }.tally = r.tally := rfl

theorem tallied_foldl {α : Type} {f : State → α → State} (h : ∀ s x, s.Tallied → (f s x).Tallied) (l : List α)
    (k : s.Tallied) : (l.foldl f s).Tallied := by
  induction l generalizing s with
  | nil => exact k
  | cons x l ih => exact ih (h s x k)

/-- Work that writes no record. -/
theorem Work.tallied (h : Work .counting s t) (k : s.Tallied) : t.Tallied := by
  refine ⟨fun b r hb => ?_⟩
  rw [h.booking fun _ _ => id] at hb
  rw [h.later.sec]
  exact k.record b r hb

theorem tallied_raise (k : s.Tallied) (c : FaultClass) (it : RaiseItems) (d : Option Detail) : (s.raise c it d).Tallied :=
  k.of_eq rfl rfl

theorem tallied_setPort (k : s.Tallied) (p : PortIx) (x : Port) : (s.setPort p x).Tallied := k.of_eq rfl rfl

theorem tallied_elapseTo (k : s.Tallied) (i : Nat) : (s.elapseTo i).Tallied := k.of_eq rfl rfl

theorem tallied_advance (k : s.Tallied) (m : Moment) : (s.advance m).Tallied := k.of_eq (by simp) (by simp)

theorem tallied_flush (k : s.Tallied) (m : Moment) : (s.flush m).Tallied := by rw [flush_rest]; exact k.of_eq rfl rfl

theorem tallied_takeEarly (k : s.Tallied) (m : Moment) : (s.takeEarly m).Tallied := by
  rw [takeEarly_rest]; exact k.of_eq rfl rfl

theorem tallied_respond (k : s.Tallied) (r : Req) (code : Nat) (res : Result) (body : List Byte) :
    (s.respond r code res body).Tallied := by
  rw [(respond_answeredOnly r code res body s).rest]; exact k.of_eq rfl rfl

/-! ## Captures and judgements (R92 to R94, R115 to R121) -/

theorem updLeg_tally (r : Booking) (l : LegId) (f : Leg → Leg) : (r.updLeg l f).tally = r.tally := by cases l <;> rfl

theorem updLegCause_span (k : OutageRecord) (l : LegId) (f : LegCause → LegCause) : (k.updLegCause l f).span = k.span := by
  cases l <;> rfl

theorem tallied_capture1 (k : s.Tallied) (b : BookingIx) (l : LegId) : (s.capture1 b l).Tallied := by
  unfold State.capture1
  split
  · exact k
  · split
    · split
      · exact k
      · split
        · exact k
        · split
          · exact k
          · next lg _ _ _ _ _ sit _ _ =>
            have k := (work_causeFor (R := .counting) sit lg.port s).tallied k
            exact k.upd (fun r h => h.updOutage (fun o => seconds_updLast (fun k => (updLegCause_kept k l _).2.2) rfl)
              fun o ho => stands_updRecord (fun k => updLegCause_span k l _) ho) b
    · exact k

theorem tallied_captureLegs (k : s.Tallied) (b : BookingIx) (ls : List LegId) : (s.captureLegs b ls).Tallied :=
  tallied_foldl (fun _ l k => tallied_capture1 k b l) ls k

theorem tallied_enterOutage (k : s.Tallied) (m : Moment) (b : BookingIx) : (s.enterOutage m b).Tallied := by
  have raised := tallied_raise k .feedLost (.ofBooking b) none
  exact tallied_captureLegs (raised.upd (fun r h => h.updOutage (fun o => seconds_enter o _) fun o ho => stands_enter ho) b)
    b (legOrder m)

theorem tallied_exitOutage (k : s.Tallied) (b : BookingIx) : (s.exitOutage b).Tallied := by
  have resynced : (s.updBooking b fun r => { r with merge := r.merge.map fun x => { x with resync := true } }).Tallied :=
    k.same (fun r => tally_merge r _) b
  exact resynced.upd (fun r h => h.updOutage (fun o => seconds_freeze o _) fun o ho => stands_freeze ho) b

theorem tallied_judge (k : s.Tallied) (m : Moment) (b : BookingIx) (ls : List LegId) : (s.judge m b ls).Tallied := by
  unfold State.judge
  split
  · exact k
  · split
    · split
      · split
        · exact tallied_exitOutage k b
        · exact tallied_captureLegs k ..
      · split
        · exact k
        · exact tallied_enterOutage k m b
    · exact k

/-- A leg changed, and its booking judged. -/
theorem tallied_judgeLeg (k : s.Tallied) (m : Moment) (b : BookingIx) (l : LegId) (f : Leg → Leg) (ls : List LegId) :
    ((s.updBooking b fun r => r.updLeg l f).judge m b ls).Tallied :=
  tallied_judge (k.same (fun r => updLeg_tally r l f) b) m b ls

theorem tallied_recapturePort (k : s.Tallied) (m : Moment) (p : PortIx) : (s.recapturePort m p).Tallied := by
  refine tallied_foldl (fun s b k => ?_) _ k
  split
  · exact k
  · split
    · exact tallied_captureLegs k ..
    · exact k

/-! ## The watch counters (R131 to R139) -/

theorem tallied_excludeLeg (k : s.Tallied) (m : Moment) (b : BookingIx) (l : LegId) : (s.excludeLeg m b l).Tallied := by
  unfold State.excludeLeg
  split
  · exact k
  · split
    · exact k
    · split
      · exact tallied_judgeLeg k ..
      · exact k

theorem tallied_runAction (k : s.Tallied) (m : Moment) (c : Counter) : (s.runAction m c).Tallied := by
  unfold State.runAction
  split
  · exact tallied_excludeLeg k ..
  · exact (work_actionProbe ..).tallied k
  · exact k

theorem tallied_setCounter (k : s.Tallied) (i : CounterIx) (c : Counter) : (s.setCounter i c).Tallied := k.of_eq rfl rfl

theorem tallied_addValue (k : s.Tallied) (m : Moment) (i : CounterIx) (w : Nat) : (s.addValue m i w).Tallied := by
  dsimp only [State.addValue]
  split
  · exact tallied_runAction ((work_overflow trivial ..).tallied k) ..
  · exact tallied_setCounter k ..

theorem tallied_countEvent (k : s.Tallied) (m : Moment) (e : WatchEvent) (i : CounterIx) :
    (s.countEvent m e i).Tallied := by
  dsimp only [State.countEvent]
  split
  · exact k
  · split
    · exact tallied_addValue k ..
    · exact tallied_setCounter k ..

theorem tallied_watch (k : s.Tallied) (m : Moment) (e : WatchEvent) : (s.watch m e).Tallied :=
  tallied_foldl (fun _ i k => tallied_countEvent k m e i) _ k

theorem tallied_boundaryCount (k : s.Tallied) (m : Moment) (o : List BookingIx) (l : List (BookingIx × Booking))
    (i : CounterIx) : (s.boundaryCount m o l i).Tallied := by
  dsimp only [State.boundaryCount]
  split
  · exact k
  · split
    · split
      · refine tallied_foldl (fun s _ k => ?_) _ k
        split
        · exact k
        · exact tallied_addValue k ..
      · exact tallied_addValue k ..
      · exact k
    · exact tallied_addValue (tallied_setCounter k ..) ..

theorem tallied_watchBoundary (k : s.Tallied) (m : Moment) (o : List BookingIx) (l : List (BookingIx × Booking)) :
    (s.watchBoundary m o l).Tallied := tallied_foldl (fun _ i k => tallied_boundaryCount k m o l i) _ k

/-! ## Legs and copies (R53, R55, R70 to R73, R79) -/

theorem tallied_legSilent (k : s.Tallied) (m : Moment) (b : BookingIx) (l : LegId) : (s.legSilent m b l).Tallied := by
  unfold State.legSilent
  split
  · exact k
  · split
    · exact k
    · split
      · exact tallied_watch (tallied_judge (tallied_raise (k.same (fun r => updLeg_tally r l _) b) ..) ..) ..
      · exact k

theorem updAt_map {α β : Type} {f : α → α} {g : α → β} (h : ∀ x, g (f x) = g x) (n : Nat) (l : List α) :
    (updAt f n l).map g = l.map g := by
  fun_induction updAt f n l <;> simp_all

theorem countDrop_tally (r : Booking) (n : Nat) : (r.countDrop n).tally = r.tally := by
  have kept : (updAt Dest.drop n r.dests).map (fun d => d.account.map (·.residency)) = r.residencies :=
    updAt_map (fun d => by simp [Dest.drop, Function.comp_def]) n r.dests
  unfold Booking.countDrop
  split
  · exact congrArg (fun x => ((r.state, r.liveFrom, r.liveTo, r.overrunFrom), r.outage, x)) kept
  · rfl

theorem tallied_egressDrop (k : s.Tallied) (m : Moment) (p : PortIx) (c : MediaCopy) : (s.egressDrop m p c).Tallied :=
  tallied_watch (k.same (fun r => countDrop_tally r _) _) ..

theorem tallied_emptyMedia (k : s.Tallied) (m : Moment) (p : PortIx) : (s.emptyMedia m p).Tallied :=
  tallied_foldl (fun _ c k => tallied_egressDrop k m p c) _ (tallied_setPort k ..)

theorem tallied_leaveUp (k : s.Tallied) (m : Moment) (p : PortIx) : (s.leaveUp m p).Tallied := by
  refine tallied_emptyMedia ?_ m p
  exact tallied_foldl (fun s b k => tallied_foldl (fun s l k => tallied_legSilent k m b l) _ k) _ k

theorem tallied_offerCopy (k : s.Tallied) (m : Moment) (p : PortIx) (two : Bool) (l : LegId) (c : MediaCopy) :
    (s.offerCopy m p two l c).Tallied := by
  unfold State.offerCopy
  split
  · exact tallied_watch (tallied_setPort k ..) ..
  · exact tallied_egressDrop k ..

/-! ## Frames (R63 to R72, R86 to R91) -/

theorem onForwardedEnd_tally (r : Booking) : r.onForwardedEnd.tally = r.tally := by
  unfold Booking.onForwardedEnd; split <;> rfl

theorem tallied_policerDrop (k : s.Tallied) (m : Moment) (p : PortIx) (b : BookingIx) (l : LegId)
    (bits : Option FrameBits) : (s.policerDrop m p b l bits).Tallied :=
  tallied_watch (tallied_raise (k.same (fun r => tally_merge r _) b) ..) ..

theorem tallied_legReceives (k : s.Tallied) (m : Moment) (b : BookingIx) (l : LegId) : (s.legReceives m b l).Tallied := by
  unfold State.legReceives
  split
  · exact k
  · split
    · exact k
    · split
      · exact tallied_judgeLeg k ..
      · exact k

theorem tallied_forwardFrame (k : s.Tallied) (hb : s.booking b = some r) (m : Moment) (p : PortIx) (l : LegId)
    (x : MergeState) (gap : Nat) (f : Frame) (bits : Option FrameBits) : (s.forwardFrame m p b l r x gap f bits).Tallied := by
  have merged : { r with merge := some x : Booking }.SecondsOk s.sec := (k.record b r hb).congr rfl
  have written : (if f.endFlag = true then Booking.onForwardedEnd { r with merge := some x }
      else { r with merge := some x }).SecondsOk s.sec := by
    split
    · exact merged.congr (onForwardedEnd_tally _)
    · exact merged
  dsimp only [State.forwardFrame]
  refine tallied_foldl (fun s x k => tallied_offerCopy k ..) _ ?_
  split
  · exact k.set written b
  · exact tallied_watch (k.set written b) ..

theorem tallied_mergeFrame (k : s.Tallied) (m : Moment) (p : PortIx) (b : BookingIx) (l : LegId) (f : Frame)
    (bits : Option FrameBits) : (s.mergeFrame m p b l f bits).Tallied := by
  have k := tallied_legReceives k m b l
  dsimp only [State.mergeFrame]
  split
  · exact k
  · next r hr =>
    split
    · exact k
    · exact tallied_watch (k.set ((k.record b r hr).congr (tally_merge r _)) b) ..
    · exact tallied_forwardFrame k hr ..

theorem tallied_mediaFrame (k : s.Tallied) (m : Moment) (p : PortIx) (f : Frame) (bits : Option FrameBits) :
    (s.mediaFrame m p f bits).Tallied := by
  have written : ∀ e, (s.setFlow e).Tallied := fun _ => k.of_eq rfl rfl
  dsimp only [State.mediaFrame]
  split
  · exact tallied_watch k ..
  · split
    · exact tallied_mergeFrame (written _) ..
    · exact tallied_policerDrop (written _) ..

theorem tallied_identFrame (k : s.Tallied) (m : Moment) (b : BookingIx) (l : LegId) (payload : List Byte) :
    (s.identFrame m b l payload).Tallied := by
  unfold State.identFrame
  split
  · exact k
  · split
    · exact k
    · split
      · exact k
      · split
        · exact tallied_judgeLeg k ..
        · refine tallied_judge ?_ ..
          have written := k.same (f := fun r => r.updLeg l fun x =>
            { x with ident := some .mismatched, identAt := none, exIdent := true }) (fun r => updLeg_tally r l _) b
          split
          · exact written
          · exact tallied_raise written ..

theorem tallied_identAtFlow (k : s.Tallied) (m : Moment) (p : PortIx) (f : Frame) (bits : Option FrameBits) :
    (s.identAtFlow m p f bits).Tallied := by
  unfold State.identAtFlow
  split
  · exact tallied_watch k ..
  · exact tallied_identFrame k ..

theorem tallied_identExpire (k : s.Tallied) (m : Moment) (b : BookingIx) (l : LegId) : (s.identExpire m b l).Tallied := by
  unfold State.identExpire
  split
  · exact k
  · split
    · exact k
    · exact tallied_judgeLeg k ..

/-! ## Light (R49 to R53) -/

theorem tallied_loseLight (k : s.Tallied) (m : Moment) (p : PortIx) : (s.loseLight m p).Tallied := by
  have dark : ((s.setLink p .down).raise .los (.ofPort p) none).Tallied := k.of_eq rfl rfl
  have probed : ∀ t : State, t.Tallied → (t.autoProbe p).Tallied := fun t => (work_autoProbe p t).tallied
  have left : ∀ (x : Bool) (t : State), t.Tallied → (if x = true then t.leaveUp m p else t).Tallied := fun x t k => by
    split
    · exact tallied_leaveUp k m p
    · exact k
  dsimp only [State.loseLight]
  cases m.autoFirst
  · exact probed _ (tallied_recapturePort (left _ _ dark) m p)
  · exact tallied_recapturePort (left _ _ (probed _ dark)) m p

theorem tallied_enterLof (k : s.Tallied) (m : Moment) (p : PortIx) : (s.enterLof m p).Tallied := by
  have lof : ((s.setLink p .lof).raise .lof (.ofPort p) none).Tallied := k.of_eq rfl rfl
  exact tallied_recapturePort (tallied_leaveUp lof m p) m p

theorem tallied_malformed (k : s.Tallied) (m : Moment) (p : PortIx) (bytes : List Byte) :
    (s.malformed m p bytes).Tallied := by
  dsimp only [State.malformed]
  refine tallied_watch ?_ ..
  have counted := tallied_setPort k p (s.port p).badCheck
  split
  · exact tallied_enterLof counted m p
  · exact counted

/-! ## Probes and settlements (R108 to R110, R122, R129) -/

theorem settle_span (n : ProbeNo) (c : Cause) (k : OutageRecord) : (k.settle n c).span = k.span := rfl

theorem tallied_settleCauses (k : s.Tallied) (n : ProbeNo) (c : Cause) : (s.settleCauses n c).Tallied := by
  refine k.map (f := Booking.settleCauses n c) (fun b => by simp [State.booking, State.settleCauses]) fun r h => ?_
  refine h.updOutage (fun o => ?_) fun o ho => ho.congr rfl rfl ?_
  · simp [OutageState.seconds, OutageRecord.settle, Function.comp_def]
  · simp [settle_span, Function.comp_def]

theorem tallied_closeBooking (k : s.Tallied) (hb : s.booking b = some r) (closing : r.state = .closing) :
    (s.closeBooking b).Tallied := by
  have closed : s.closeBooking b = s.setBooking b (some { r with state := .closed }) := by
    simp only [State.closeBooking, State.updBooking, hb]
  rw [closed]
  exact k.set (secondsOk_closed (k.record b r hb) closing) b

theorem tallied_settleBooking (k : s.Tallied) (b : BookingIx) : (s.settleBooking b).Tallied := by
  unfold State.settleBooking
  split
  · exact k
  · next r hr =>
    split
    · next due =>
      simp only [Bool.and_eq_true, decide_eq_true_eq] at due
      obtain ⟨⟨closing, -⟩, -⟩ := due
      simp only [State.billNow, hr]
      split
      · have billed : State.Tallied { s with bills := s.bills ++ [billOf b r (s.tariff r.tariff)] } := k.of_eq rfl rfl
        exact tallied_closeBooking billed hr closing
      · exact k.of_eq rfl rfl
    · exact k

theorem tallied_concludeProbe (k : s.Tallied) (m : Moment) (n : ProbeNo) (p : PortIx) (e : ProbeEnd) :
    (s.concludeProbe m n p e).Tallied := by
  dsimp only [State.concludeProbe]
  refine tallied_raise (tallied_foldl (fun _ b k => tallied_settleBooking k b) _ (tallied_settleCauses ?_ ..)) ..
  exact k.of_eq rfl rfl

theorem tallied_endFlight (k : s.Tallied) (m : Moment) (f : Flight) (e : ProbeEnd) : (s.endFlight m f e).Tallied := by
  have passed := (leaveNext_passedOn f (s.concludeProbe m f.number f.port e)).rest
  have concluded := tallied_concludeProbe k m f.number f.port e
  have bookings := congrArg State.bookings passed
  have sec := congrArg State.sec passed
  exact concluded.of_eq bookings sec

theorem tallied_endProbeOf (k : s.Tallied) (m : Moment) (p : PortIx) (o : ProbeOutcome) : (s.endProbeOf m p o).Tallied := by
  by_cases flying : ∃ f, s.flight = some f ∧ f.port = p
  · obtain ⟨f, hf, hp⟩ := flying
    rw [endProbeOf_flying hf hp]
    exact tallied_endFlight k ..
  · rw [endProbeOf_waits fun f hf hp => flying ⟨f, hf, hp⟩]
    split
    · have left : (s.withoutWaiting p).Tallied := k.of_eq rfl rfl
      exact tallied_concludeProbe left ..
    · exact k

theorem tallied_abortAll (k : s.Tallied) (m : Moment) : (s.abortAll m).Tallied := by
  have clear : State.Tallied { s with probeWaiting := [] } := k.of_eq rfl rfl
  unfold State.abortAll
  dsimp only
  refine tallied_foldl (f := fun t (w : WaitingProbe) => t.concludeProbe m w.number w.port (.bare .aborted))
    (fun _ _ k => tallied_concludeProbe k ..) s.probeWaiting ?_
  split
  · rw [leaveFlight_rest]
    exact (tallied_concludeProbe clear ..).of_eq rfl rfl
  · exact clear

theorem tallied_deliver (k : s.Tallied) (m : Moment) (f : Flight) (x : Measured) : (s.deliver m f x).Tallied := by
  unfold State.deliver
  split
  · split
    · exact tallied_endFlight k ..
    · exact k.of_eq rfl rfl
  · split
    · split
      · exact k.of_eq rfl rfl
      · exact k
    · exact k
  · split <;> exact tallied_endFlight k ..
  · exact k

end Sys2Proof.Machine
end

section
/-! The law of lived seconds at a boundary and at the requests (R8 to R24, R31 to R36, R83, R165): each transition of a
record, the second taken by whoever runs, and what a request writes of a record. -/

namespace Sys2Proof.Machine
open Sys2Proof.Config

variable {s t u : State} {b : BookingIx} {r r' : Booking} {m : Moment} {n : Nat}

/-! ## The scheduler (R12 to R17) -/

/-- A record that was never LIVE, moved to a state in which it does not run. -/
theorem Booking.SecondsOk.moved (h : r.SecondsOk n) (was : r.state ∉ [.live, .overrun, .closing, .closed])
    (idle : r'.forwarding = false)
    (times : (r'.liveFrom, r'.liveTo, r'.overrunFrom) = (r.liveFrom, r.liveTo, r.overrunFrom)) : r'.SecondsOk n := by
  obtain ⟨liveFrom, liveTo, overrunFrom⟩ := h.before was
  rw [liveFrom, liveTo, overrunFrom] at times
  simp only [Prod.mk.injEq] at times
  exact secondsOk_unlived idle times n

theorem tallied_installLegs (k : s.Tallied) (b : BookingIx) : (s.installLegs b).Tallied := by
  rw [installLegs_rest]; exact k.of_eq rfl rfl

theorem tallied_removeFlows (k : s.Tallied) (b : BookingIx) : (s.removeFlows b).Tallied := by
  rw [removeFlows_rest]; exact k.of_eq rfl rfl

theorem tallied_closeRecord (k : s.Tallied) (h : r.SecondsOk s.sec)
    (carries : r.state = .armed ∨ r.state = .live ∨ r.state = .overrun) (b : BookingIx) (cut : CutReason) :
    (s.closeRecord b r cut).Tallied := by
  have removed := tallied_removeFlows k b
  have sec : (s.removeFlows b).sec = s.sec := by rw [removeFlows_rest]
  refine tallied_settleBooking (removed.set ?_ b) b
  rw [sec]
  exact secondsOk_atClosing h carries cut

/-- A transition keeps the law, since it starts from a state that allows it. -/
theorem tallied_applyTransition (k : s.Tallied) (hb : s.booking b = some r) (m : Moment) (x : Transition)
    (from_ : x.from r.state) : (s.applyTransition m b r x).Tallied := by
  have h := k.record b r hb
  cases x with
  | stay => exact k
  | expire =>
    have was : r.state = .confirmed := from_
    have expired := h.moved (r' := { r with state := .expired, closeSecond := some s.sec }) (by simp [was]) rfl rfl
    exact tallied_raise (k.set expired b) ..
  | arm =>
    have was : r.state = .confirmed := from_
    have armed := h.moved (r' := { r.armLegs s.clock s.identTimeout with state := .armed }) (by simp [was]) rfl rfl
    exact tallied_installLegs (k.set armed b) b
  | goLive => exact tallied_judge (k.set (secondsOk_atLive h from_) b) ..
  | overrun => exact tallied_raise (k.set (secondsOk_overrun h from_) b) ..
  | close cut =>
    dsimp only [State.applyTransition]
    split
    · exact tallied_closeRecord (tallied_raise k ..) h from_ b cut
    · exact tallied_closeRecord k h from_ b cut

theorem tallied_schedule (k : s.Tallied) (m : Moment) : (s.schedule m).Tallied := by
  refine tallied_foldl (fun s b k => ?_) _ k
  unfold State.scheduleOne
  split
  · exact k
  · next r hr => exact tallied_applyTransition k hr m _ (transition_from ..)

/-! ## The boundary (R7, R24) -/

/-- A restart that completes keeps CLOSED records alone, with their seconds. -/
theorem tallied_finishRestart (k : s.Tallied) : s.finishRestart.Tallied := by
  refine ⟨fun b r hb => ?_⟩
  rw [finishRestart_booking] at hb
  obtain ⟨z, hz, after_⟩ := Option.bind_eq_some_iff.1 hb
  by_cases closed : z.state = .closed
  · rw [afterRestart_closed closed, Option.some_inj] at after_
    subst after_
    split
    · exact (k.record b z hz).congr rfl
    · exact k.record b z hz
  · rw [afterRestart_none closed] at after_
    cases after_

theorem tallied_scheduled (k : s.Tallied) (m : Moment) : (s.scheduled m).Tallied := by
  have k := tallied_schedule k m
  unfold State.scheduled State.tryFinishRestart
  split
  · exact tallied_finishRestart (tallied_flush k m)
  · exact k

/-- Who runs takes the second that ended, and who does not keeps what it has. -/
theorem secondsOk_classified (h : r.SecondsOk s.sec) : (r.classified s).SecondsOk (s.sec + 1) := by
  unfold Booking.classified
  cases runs : r.forwarding with
  | true =>
    rw [if_pos (h.takes runs)]
    exact secondsOk_takeSecond h runs ..
  | false =>
    rw [if_neg (by simp [Booking.takes, runs])]
    exact h.idle runs _

theorem tallied_secondEnded (k : s.Tallied) (before : s.sec < 4294967295) (m : Moment) : (s.secondEnded m).Tallied := by
  have sec : (s.secondEnded m).sec = s.sec + 1 := by
    rw [secondEnded_rest]
    show s.nextSecond = _
    unfold State.nextSecond
    omega
  refine k.map (secondEnded_booking m · s) fun r h => ?_
  rw [sec]
  exact secondsOk_classified h

theorem tallied_secondBoundary (k : s.Tallied) (before : s.sec < 4294967295) (h : exec (.secondBoundary m) s = .next t) :
    t.Tallied := by
  have ended := tallied_secondEnded k before m
  obtain ⟨o, l, run⟩ := secondBoundary_eq m s
  rw [run] at h
  cases h
  refine tallied_flush ?_ m
  split
  · exact tallied_scheduled (tallied_watchBoundary ended m o l) m
  · exact tallied_watchBoundary (tallied_scheduled ended m) m o l

/-! ## Requests -/

theorem tallied_takeRequest {α : Type} {act : α → State → Answer} (k : s.Tallied) (h : ∀ a, (act a s).state.Tallied)
    (r : Req) (code : Nat) (body : Body α) : (s.takeRequest r code body act).Tallied := by
  unfold State.takeRequest
  split
  · exact k
  · split
    · exact tallied_respond k ..
    · split
      · exact tallied_respond k ..
      · exact tallied_respond (h _) ..

/-- A request refused changes nothing. -/
theorem tallied_checked {c : Option Result} {a : Answer} (k : s.Tallied) (h : c = none → a.state.Tallied) :
    (checked c s a).state.Tallied := by
  cases c with
  | none => exact h rfl
  | some res => exact k

theorem tallied_handEntry (k : s.Tallied) (e : AdmissionEntry) : (s.handEntry e).Tallied := by
  rw [handEntry_rest]; exact k.of_eq rfl rfl

theorem tallied_freeBooking (k : s.Tallied) (b : BookingIx) : (s.freeBooking b).Tallied := by
  refine ⟨fun c r hc => ?_⟩
  rw [freeBooking_booking] at hc
  split at hc
  · cases hc
  · exact k.record c r hc

/-- TIME SET is refused while a booking runs, so the new time is read by none (R8). -/
theorem tallied_actTimeSet (a : TimeSetArgs) (k : s.Tallied) : (actTimeSet a s).state.Tallied := by
  refine tallied_checked k fun h => ⟨fun b r hb => ?_⟩
  rw [checkTimeSet, firstFailing_none] at h
  have free := h (s.anyBooking Booking.barsTimeSet, .inUse) (by simp)
  have hb : s.booking b = some r := hb
  refine (k.record b r hb).idle ?_ _
  by_contra runs
  refine Bool.false_ne_true (free.symm.trans (anyBooking_iff.2 ⟨b, r, hb, ?_⟩))
  simp only [Booking.forwarding, Bool.not_eq_false, decide_eq_true_eq] at runs
  rcases runs with e | e <;> simp [Booking.barsTimeSet, e]

theorem tallied_actBook (a : BookArgs) (k : s.Tallied) : (actBook a s).state.Tallied :=
  tallied_checked k fun _ => tallied_handEntry (k.set (secondsOk_unlived rfl ⟨rfl, rfl, rfl⟩ s.sec) _) _

theorem tallied_cancelBooking (k : s.Tallied) (hb : s.booking b = some r) : (s.cancelBooking b r).state.Tallied := by
  have h := k.record b r hb
  unfold State.cancelBooking
  split
  case h_1 => exact k.set (h.congr (r' := { r with cancelReq := true }) rfl) b
  case h_2 hs =>
    split
    · exact tallied_settleBooking (k.set (h.moved (r' := r.atLateCancel s.sec) (by simp [hs]) rfl rfl) b) b
    · exact tallied_freeBooking k b
  case h_3 => exact k.set (h.congr (r' := r.requestClose .cancelledArmed) rfl) b
  case h_4 => exact k.set (h.congr (r' := r.requestClose .closedEarly) rfl) b
  all_goals exact k

theorem tallied_actCancel (n : Nat) (k : s.Tallied) : (actCancel n s).state.Tallied := by
  refine tallied_checked k fun _ => ?_
  split
  · next r hr => exact tallied_cancelBooking k hr
  · exact k

theorem tallied_actClose (n : Nat) (k : s.Tallied) : (actClose n s).state.Tallied :=
  tallied_checked k fun _ => k.same (f := fun r => r.requestClose r.state.closeReason) (fun _ => rfl) _

theorem tallied_actExtend (a : ExtendArgs) (k : s.Tallied) : (actExtend a s).state.Tallied := by
  refine tallied_checked k fun _ => ?_
  split
  · next r hr => exact tallied_handEntry (k.set ((k.record _ r hr).congr (r' := { r with extendPending := true }) rfl) _) _
  · exact k

theorem applyMode_tally (r : Booking) (mode : ProtectionMode) : (r.applyMode mode).tally = r.tally := by
  unfold Booking.applyMode
  split <;> rfl

theorem tallied_actMode (m : Moment) (a : ModeArgs) (k : s.Tallied) : (actMode m a s).state.Tallied := by
  refine tallied_checked k fun _ => ?_
  split
  · next r hr => exact tallied_judge (k.set ((k.record _ r hr).congr (applyMode_tally r _)) _) ..
  · exact k

theorem tallied_actBookingRead (n : Nat) (k : s.Tallied) : (actBookingRead n s).state.Tallied := by
  refine tallied_checked k fun _ => ?_
  show State.Tallied (if _ then _ else _)
  split
  · exact tallied_freeBooking k _
  · exact k

/-- A waiting bill moved up closes a CLOSING record alone (R155). -/
theorem tallied_promoteBill (k : s.Tallied) (h : s.BillsMatch) : s.promoteBill.Tallied := by
  unfold State.promoteBill
  split
  · exact k
  · next x rest waiting =>
    obtain ⟨r, hr, closing⟩ := h.closing x (by rw [waiting]; exact List.mem_cons_self ..)
    have popped : State.Tallied { s with bills := s.bills ++ [x], billWaiting := rest } := k.of_eq rfl rfl
    exact tallied_closeBooking popped hr closing

theorem tallied_actBillRelease (n : Nat) (k : s.Tallied) (pending : s.BookPending) (bills : s.BillsMatch) :
    (actBillRelease n s).state.Tallied := by
  refine tallied_checked k fun h => ?_
  rw [checkBillRelease, firstFailing_none] at h
  have range := h (decide (255 < n), .range) (by simp)
  have head := h (!(s.bills.head?.any fun x => decide (x.booking.val = n)), .state) (by simp)
  simp only [decide_eq_false_iff_not, Nat.not_lt] at range
  cases e : s.bills with
  | nil => simp [e] at head
  | cons x rest =>
    simp only [e, List.head?_cons, Option.any_some, Bool.not_eq_false', decide_eq_true_eq] at head
    have named : x.booking = bookingIx n := Fin.ext (by simp [head, bookingIx, Fin.ofNat]; omega)
    have popped : State.Tallied { s with bills := s.bills.tail } := k.of_eq rfl rfl
    exact tallied_promoteBill (tallied_freeBooking popped _) ((follows_freeHead e named).bills bills pending)

theorem tallied_actRestart (m : Moment) (k : s.Tallied) : (actRestart m s).state.Tallied := by
  refine tallied_checked k fun _ => tallied_abortAll (k.map (markRestart_booking · s) fun r h => ?_) m
  split
  · exact h.congr rfl
  · exact h

theorem tallied_writePort (k : s.Tallied) (m : Moment) (p : PortIx) (a : PortSetArgs) : (s.writePort m p a).Tallied := by
  have written := tallied_setPort k p (PortSetArgs.apply a (s.port p))
  dsimp only [State.writePort]
  split
  · exact tallied_endProbeOf (tallied_emptyMedia written m p) ..
  · exact written

theorem tallied_probeRequest (k : s.Tallied) (p : PortIx) : (s.probeRequest p).1.Tallied := by
  rw [probeRequest_rest]; exact k.of_eq rfl rfl

/-! ## Admission (R11, R33 to R36) -/

theorem afterExtend_tally (r : Booking) (total : Nat) (clamped : Bool) (v : Option Verdict) :
    (r.afterExtend total clamped v).tally = r.tally := by
  unfold Booking.afterExtend
  split
  · split <;> rfl
  · rfl

/-- A BOOK settles a PENDING record, and an EXTEND touches no second. -/
theorem secondsOk_settledRecord {e : AdmissionEntry} (h : r.SecondsOk n) (book : e.kind = .book → r.state = .pending)
    (v : Option Verdict) : (e.settledRecord r v).SecondsOk n := by
  unfold AdmissionEntry.settledRecord
  split
  · next kind =>
    have was : r.state ∉ [.live, .overrun, .closing, .closed] := by simp [book kind]
    unfold Booking.afterBook
    split
    · exact h.moved was rfl rfl
    · split <;> exact h.moved was rfl rfl
  · exact h.congr (afterExtend_tally ..)

theorem tallied_completeScan {sc : Scan} (k : s.Tallied) (admits : s.Admits) (hsc : s.scan = some sc) :
    (s.completeScan sc).Tallied := by
  have h := completeScan_settled sc s
  generalize (sc.visitTo s.bookings 256).verdict (fun p => (s.port p).bookable) = v at h
  generalize s.completeScan sc = t at h
  have sec : t.sec = s.sec := by rw [h.rest]
  cases void : sc.entry.void with
  | true => exact k.of_eq (h.void void) sec
  | false =>
    refine ⟨fun b r hb => ?_⟩
    rw [sec]
    by_cases ne : b = sc.entry.booking
    · subst ne
      have queued : sc.entry ∈ s.entries := by simp [State.entries, hsc]
      obtain ⟨x, hx⟩ := booking_of_taken (admits.serves.taken queued void)
      rw [h.record x void hx, Option.some_inj] at hb
      rw [← hb]
      refine secondsOk_settledRecord (k.record _ x hx) (fun kind => ?_) v
      have pending := admits.bookPending sc.entry queued kind
      rwa [stateOf_of_booking hx, Option.some_inj] at pending
    · exact k.record b r ((h.others b ne).symm.trans hb)

/-! ## Every request -/

theorem tallied_takeCommand (c : Instr) (k : s.Tallied) (pending : s.BookPending) (bills : s.BillsMatch) :
    (s.takeCommand c).Tallied := by
  have same : ∀ {t : State}, t.bookings = s.bookings → t.sec = s.sec → t.Tallied := k.of_eq
  have written : ∀ {c : Option Result} {a : Answer}, a.state.bookings = s.bookings → a.state.sec = s.sec →
      (checked c s a).state.Tallied := fun e1 e2 => tallied_checked k fun _ => same e1 e2
  cases c with
  | unknownRequestCode r code =>
    dsimp only [State.takeCommand, reqUnknownRequestCode]
    split
    · exact k
    · exact tallied_takeRequest k (fun _ => k) ..
  | identify r b => exact tallied_takeRequest k (fun _ => same rfl rfl) ..
  | restart r b => exact tallied_takeRequest k (fun _ => tallied_actRestart r.m k) ..
  | noticeSet r b => exact tallied_takeRequest k (fun _ => written rfl rfl) ..
  | timeSet r b => exact tallied_takeRequest k (fun a => tallied_actTimeSet a k) ..
  | timeRead r b => exact tallied_takeRequest k (fun _ => k) ..
  | portSet r b => exact tallied_takeRequest k (fun a => tallied_checked k fun _ => tallied_writePort k r.m _ a) ..
  | portRead r b => exact tallied_takeRequest k (fun _ => written rfl rfl) ..
  | book r b => exact tallied_takeRequest k (fun a => tallied_actBook a k) ..
  | cancel r b => exact tallied_takeRequest k (fun a => tallied_actCancel a k) ..
  | close r b => exact tallied_takeRequest k (fun a => tallied_actClose a k) ..
  | extend r b => exact tallied_takeRequest k (fun a => tallied_actExtend a k) ..
  | mode r b => exact tallied_takeRequest k (fun a => tallied_actMode r.m a k) ..
  | bookingRead r b => exact tallied_takeRequest k (fun a => tallied_actBookingRead a k) ..
  | patternSet r b => exact tallied_takeRequest k (fun _ => written rfl rfl) ..
  | patternRead r b => exact tallied_takeRequest k (fun _ => written rfl rfl) ..
  | tariffSet r b => exact tallied_takeRequest k (fun _ => written rfl rfl) ..
  | tariffRead r b => exact tallied_takeRequest k (fun _ => written rfl rfl) ..
  | probe r b => exact tallied_takeRequest k (fun _ => tallied_checked k fun _ => tallied_probeRequest k _) ..
  | probeRead r b => exact tallied_takeRequest k (fun _ => written rfl rfl) ..
  | probeConfig r b => exact tallied_takeRequest k (fun _ => written rfl rfl) ..
  | watchSet r b => exact tallied_takeRequest k (fun _ => written rfl rfl) ..
  | watchRead r b => exact tallied_takeRequest k (fun _ => written rfl rfl) ..
  | watchUnfreeze r b => exact tallied_takeRequest k (fun _ => written rfl rfl) ..
  | faultRead r b => exact tallied_takeRequest k (fun _ => same rfl rfl) ..
  | faultClear r b => exact tallied_takeRequest k (fun _ => written rfl rfl) ..
  | faultMask r b => exact tallied_takeRequest k (fun _ => written rfl rfl) ..
  | billRead r b => exact tallied_takeRequest k (fun _ => k) ..
  | billRelease r b => exact tallied_takeRequest k (fun a => tallied_actBillRelease a k pending bills) ..
  | powerOn _ => exact k
  | secondBoundary _ => exact k
  | lightLost _ _ => exact k
  | lightReturns _ _ => exact k
  | frameReceived _ _ _ => exact k
  | slotStart _ _ => exact k
  | transmitterPasses _ => exact k
  | silenceTimerExpiry _ _ _ => exact k
  | identTimeoutExpiry _ _ _ => exact k
  | phaseTimerExpiry _ => exact k
  | traceDelivered _ _ => exact k
  | admissionCompletion _ => exact k

/-! ## Frames and the other events -/

theorem tallied_receive (m : Moment) (p : PortIx) (bytes : List Byte) (k : s.Tallied) (admits : s.Admits)
    (bills : s.BillsMatch) : (s.receive m p bytes).Tallied := by
  unfold State.receive
  split
  · split
    · exact tallied_malformed k ..
    · next f _ =>
      dsimp only [State.goodFrame]
      let e := frameEvent .rxFrames p none (headerBits bytes) 1
      have k := tallied_watch (tallied_setPort k p (s.port p).goodFrame) m e
      have steady := (steady_setPort (goodFrame_bookable (s.port p))).trans (steady_watch m e _)
      have quiet := (quiet_setPort p (s.port p).goodFrame s).trans (quiet_watch m e _)
      have admits := steady.admits admits
      have bills := quiet.settles.bills bills
      generalize State.watch m _ _ = t at k admits bills
      unfold State.deliverFrame
      split
      · exact k
      · unfold State.controlFrameIn
        split
        · exact k
        · split
          · exact k
          · exact tallied_takeCommand _ (tallied_takeEarly k m) ((steady_takeEarly ..).admits admits).bookPending
              ((quiet_takeEarly ..).settles.bills bills)
      · split
        · exact tallied_identAtFlow k ..
        · exact tallied_mediaFrame k ..
  · exact k

theorem tallied_powerOn (straps : Straps) (l : List Instr) : (State.powerOn straps l).Tallied :=
  ⟨fun b r hb => by simp [State.booking, State.powerOn] at hb⟩

theorem tallied_exec {c : Instr} (k : s.Tallied) (admits : s.Admits) (bills : s.BillsMatch) (before : s.sec < 4294967295)
    (h : exec c s = .next t) : t.Tallied := by
  have now := tallied_advance k
  cases hs : c.sender with
  | some r =>
    rw [exec_request hs] at h
    cases h
    exact tallied_takeCommand c (now r.m) (admits_advance r.m admits).bookPending ((quiet_advance r.m s).settles.bills bills)
  | none =>
    cases c with
    | powerOn straps => cases h; exact tallied_powerOn ..
    | secondBoundary m => exact tallied_secondBoundary k before h
    | lightLost m p =>
      dsimp only [exec, execLightLost] at h
      split at h <;> cases h
      · exact tallied_flush (tallied_loseLight (now m) ..) m
      · exact now m
    | lightReturns m p =>
      dsimp only [exec, execLightReturns] at h
      split at h <;> cases h
      · exact now m
      · exact tallied_flush (tallied_endProbeOf (tallied_setPort (now m) ..) ..) m
    | frameReceived m p bytes =>
      cases h
      exact tallied_flush (tallied_receive m p bytes (now m) (admits_advance m admits)
        ((quiet_advance m s).settles.bills bills)) m
    | slotStart m p =>
      dsimp only [exec, execSlotStart] at h
      split at h
      · cases h; exact now m
      · split at h <;> cases h
        · exact tallied_setPort (tallied_elapseTo (now m) _) ..
        · exact tallied_setPort (now m) ..
    | transmitterPasses m =>
      dsimp only [exec, execTransmitterPasses] at h
      split at h
      · split at h <;> cases h
        · exact (now m).of_eq rfl rfl
        · exact now m
      · cases h; exact now m
    | silenceTimerExpiry m b l =>
      dsimp only [exec, execSilenceTimerExpiry] at h
      split at h <;> cases h
      · exact tallied_flush (tallied_legSilent (tallied_elapseTo (now m) _) ..) m
      · exact now m
    | identTimeoutExpiry m b l =>
      dsimp only [exec, execIdentTimeoutExpiry] at h
      split at h <;> cases h
      · exact tallied_flush (tallied_identExpire (tallied_elapseTo (now m) _) ..) m
      · exact now m
    | phaseTimerExpiry m =>
      dsimp only [exec, execPhaseTimerExpiry] at h
      split at h
      · split at h <;> cases h
        · exact tallied_flush (tallied_endFlight (tallied_elapseTo (now m) _) ..) m
        · exact now m
      · cases h; exact now m
    | traceDelivered m x =>
      dsimp only [exec, execTraceDelivered] at h
      split at h
      · split at h
        · split at h <;> cases h
          · exact tallied_flush (tallied_deliver (tallied_elapseTo (now m) _) ..) m
          · exact now m
        · cases h; exact now m
      · cases h; exact now m
    | admissionCompletion m =>
      have begun : State.Tallied (s.beginEvent m.dt) := k.of_eq rfl rfl
      have admitted : State.Admits (s.beginEvent m.dt) := admits_of_eq admits rfl rfl rfl rfl
      dsimp only [exec, execAdmissionCompletion] at h
      split at h <;> cases h
      · next sc hsc => exact tallied_flush (tallied_completeScan begun admitted hsc) m
      · exact begun
    | _ => cases hs

/-! ## The law -/

theorem secondsInv_iff : s.SecondsInv ↔ s.CapacityInv ∧ s.Tallied :=
  ⟨fun ⟨capacity, record⟩ => ⟨capacity, ⟨record⟩⟩, fun ⟨capacity, ⟨record⟩⟩ => ⟨capacity, record⟩⟩

/-- Settles O18: a record counts each second it runs in, and nothing but a second that passes adds to its balances. -/
theorem secondsStayBalanced : Obligations.SecondsStayBalanced := by
  refine ⟨secondsInv_iff.2 ⟨capacityInv_iff.2 ⟨powerOn_admits .., powerOn_billsMatch ..⟩, tallied_powerOn ..⟩,
    fun s t h before k => ?_, fun r n up tf o h runs ho => ⟨h.takes runs, o.takeSecond n, takeSecond_outage ho n up tf, ?_⟩⟩
  · unfold step at k
    split at k
    · cases k; exact h
    · next c rest _ =>
      obtain ⟨capacity, tallied⟩ := secondsInv_iff.1 h
      have capacity := capacityInv_pending capacity rest
      obtain ⟨admits, bills⟩ := capacityInv_iff.1 capacity
      have tallied : State.Tallied { s with pending := rest } := tallied.of_eq rfl rfl
      exact secondsInv_iff.2 ⟨exec_capacityInv capacity k, tallied_exec tallied admits bills before k⟩
  · rw [seconds_takeSecond (h.outage runs o ho)]
    simp [Booking.outageSecond, h.takes runs, ho]

end Sys2Proof.Machine
end

section
/-! The causes of an outage (R115 to R121): the capture of a leg's cause, with the cause request of a DOWN port; the entry
into outage; and the silence of the one leg of a booking, which does both. -/

namespace Sys2Proof.Machine
open Sys2Proof.Config

variable {s t u : State} {m : Moment} {b : BookingIx} {x y : Booking} {l : LegId} {lg : Leg} {o : OutageState}
  {k : OutageRecord} {p : PortIx} {n : ProbeNo} {sit : Situation} {c : Cause} {due : Nat}

/-! ## Cause requests (R97, R100) -/

theorem causeRequest_joins (h : s.probeOf p = some n) : s.causeRequest p = (s, some n) := by
  simp only [State.causeRequest, h]

/-- The port asks for a probe and a place is free for it. -/
def State.CanProbe (s : State) (p : PortIx) : Prop :=
  (s.port p).autoProbe = true ∧ s.fitted p = true ∧ s.restart = false ∧ s.probeWaiting.length < 8

theorem causeRequest_creates (new : s.probeOf p = none) (can : s.CanProbe p) :
    ∃ t, s.causeRequest p = (t, some s.nextNumber) ∧ t.probeOf p = some s.nextNumber := by
  obtain ⟨asks, fitted, running, room⟩ := can
  have request : s.causeRequest p = s.probeRequest p := by simp [State.causeRequest, new, asks, fitted, running]
  rw [request]
  cases flight : s.flight with
  | none =>
    obtain ⟨f, hf, number, port, -⟩ := enterFlight_flight s.nextNumber p { s with probeCounter := s.nextNumber + 1 }
    exact ⟨_, probeRequest_flies new room flight, (probeOf_flying hf port).trans (congrArg some number)⟩
  | some f => exact ⟨_, probeRequest_waits new room (by simp [flight]), probeOf_appended new _ _⟩

theorem causeRequest_refused (new : s.probeOf p = none) (cannot : ¬ s.CanProbe p) : s.causeRequest p = (s, none) := by
  simp only [State.causeRequest, new, Bool.and_eq_true, Bool.not_eq_true']
  split
  · next asks =>
    obtain ⟨⟨asks, fitted⟩, running⟩ := asks
    have full : probePlaces ≤ s.probeWaiting.length := Nat.not_lt.1 fun room => cannot ⟨asks, fitted, running, room⟩
    simp only [State.probeRequest, new, if_pos full]
  · rfl

/-! ## The cause of a situation (R115, R116) -/

theorem causeFor_pending (down : (s.port p).link = .down) (h : s.causeRequest p = (t, some n)) :
    s.causeFor .dark p = (t, { value := .pending n, brk := none }) := by
  simp only [State.causeFor, down, if_true, h]

theorem causeFor_unknown (down : (s.port p).link = .down) (h : s.causeRequest p = (t, none)) :
    s.causeFor .dark p = (t, { value := .unknown, brk := none }) := by
  simp only [State.causeFor, down, if_true, h]

theorem causeFor_lit (lit : (s.port p).link ≠ .down) : s.causeFor .dark p = (s, { value := .unknown, brk := none }) := by
  simp only [State.causeFor, lit, if_false]

/-- The cause is the one the situation gives, and a PENDING one names the port's probe. -/
theorem causeFor_given (sit : Situation) (p : PortIx) (s : State) : CauseGiven s p sit (s.causeFor sit p).2 ∧
    ∀ n, (s.causeFor sit p).2.value = .pending n → (s.causeFor sit p).1.probeOf p = some n := by
  cases sit with
  | line => exact ⟨⟨rfl, rfl⟩, nofun⟩
  | ident => exact ⟨⟨rfl, rfl⟩, nofun⟩
  | watch => exact ⟨⟨rfl, rfl⟩, nofun⟩
  | source => exact ⟨⟨rfl, rfl⟩, nofun⟩
  | dark =>
    by_cases down : (s.port p).link = .down
    · cases probed : s.probeOf p with
      | some n =>
        rw [causeFor_pending down (causeRequest_joins probed)]
        exact ⟨by simp [CauseGiven, down, probed], fun k hk => by cases hk; exact probed⟩
      | none =>
        by_cases can : s.CanProbe p
        · obtain ⟨t, created, numbered⟩ := causeRequest_creates probed can
          rw [causeFor_pending down created]
          unfold State.CanProbe at can
          exact ⟨by simp [CauseGiven, down, probed, can], fun k hk => by cases hk; exact numbered⟩
        · rw [causeFor_unknown down (causeRequest_refused probed can)]
          unfold State.CanProbe at can
          exact ⟨by simp only [CauseGiven, down, probed, can]; simp, nofun⟩
    · rw [causeFor_lit down]
      exact ⟨by simp [CauseGiven, down], nofun⟩

/-- Nothing but records and raises changed. -/
structure OnlyRecords (s t : State) : Prop where
  rest : t = { s with bookings := t.bookings, raised := t.raised }

theorem OnlyRecords.trans (h : OnlyRecords s t) (k : OnlyRecords t u) : OnlyRecords s u := ⟨by rw [k.rest, h.rest]⟩

theorem OnlyRecords.port (h : OnlyRecords s t) (p : PortIx) : t.port p = s.port p := by rw [h.rest]; rfl

theorem onlyRecords_updBooking (b : BookingIx) (f : Booking → Booking) (s : State) : OnlyRecords s (s.updBooking b f) :=
  ⟨by rw [updBooking_rest]⟩

theorem onlyRecords_raise (c : FaultClass) (it : RaiseItems) (d : Option Detail) (s : State) :
    OnlyRecords s (s.raise c it d) := ⟨rfl⟩

/-- The causes do not read the records, nor what was raised. -/
theorem CauseGiven.congr (h : CauseGiven t p sit c) (same : OnlyRecords s t) : CauseGiven s p sit c := by
  rw [same.rest] at h
  exact h

/-! ## Captures (R115, R118, R119) -/

theorem situationOf_eq (link : Link) (lg : Leg) : situationOf link lg = lg.situationAt link := by
  cases link <;> simp [situationOf, Leg.situationAt]

/-- The record with the cause `c` of the situation `sit` held for the leg `l`. -/
def OutageRecord.capture (k : OutageRecord) (l : LegId) (c : Cause) (sit : Situation) : OutageRecord :=
  k.updLegCause l fun x => { x with held := some c, situation := some sit }

theorem capture1_absent (hb : s.booking b = some x) (hl : x.leg l = none) : s.capture1 b l = s := by
  simp only [State.capture1, hb, hl]

section Open

variable (hb : s.booking b = some x) (hl : x.leg l = some lg) (ho : x.outage = some o) (hk : o.openRecord = some k)
include hb hl ho hk

theorem capture1_kept (kept : lg.exManual = true ∨ lg.situationAt (s.port lg.port).link = none ∨
    lg.situationAt (s.port lg.port).link = (k.legCause l).situation) : s.capture1 b l = s := by
  simp only [State.capture1, hb, hl, ho, Option.bind_some, hk, situationOf_eq]
  split
  · rfl
  · next free =>
    split
    · rfl
    · next sit hz =>
      rw [hz] at kept
      rw [if_pos (((kept.resolve_left free).resolve_left (by simp)).symm)]

/-- A new situation has its cause asked for, and held in the open record. -/
theorem capture1_taken (free : lg.exManual = false) (hz : lg.situationAt (s.port lg.port).link = some sit)
    (new : (k.legCause l).situation ≠ some sit) : s.capture1 b l = (s.causeFor sit lg.port).1.updBooking b fun r =>
      r.updOutage fun o => o.updRecord fun k => k.capture l (s.causeFor sit lg.port).2 sit := by
  simp only [State.capture1, hb, hl, ho, Option.bind_some, hk, situationOf_eq, free, Bool.false_eq_true, if_false, hz, new]
  rfl

/-- The record that a capture leaves, by its cause. -/
theorem capture1_given (free : lg.exManual = false) (hz : lg.situationAt (s.port lg.port).link = some sit)
    (new : (k.legCause l).situation ≠ some sit) : ∃ c, CauseGiven s lg.port sit c ∧
      (∀ n, c.value = .pending n → (s.capture1 b l).probeOf lg.port = some n) ∧
      (s.capture1 b l).booking b =
        some { x with outage := some { o with records := o.records.dropLast ++ [k.capture l c sit] } } := by
  obtain ⟨given, pending⟩ := causeFor_given sit lg.port s
  refine ⟨_, given, ?_, ?_⟩ <;> rw [capture1_taken hb hl ho hk free hz new]
  · rw [updBooking_rest]
    exact pending
  · have same := (work_causeFor (R := .counting) sit lg.port s).booking (b := b) fun _ _ => id
    obtain ⟨last, -⟩ := openRecord_eq_some.1 hk
    rw [updBooking_booking (same.trans hb), if_pos rfl, Booking.updOutage, ho, Option.map_some, OutageState.updRecord,
      updLast_of_last _ last]

end Open

/-! ## Entries (R117, R121) -/

theorem capture_kept (k : OutageRecord) (l : LegId) (c : Cause) (sit : Situation) :
    ((k.capture l c sit).start = k.start ∧ (k.capture l c sit).finish = k.finish ∧
      (k.capture l c sit).seconds = k.seconds) ∧ (k.capture l c sit).merged = k.merged :=
  ⟨updLegCause_kept k l _, by cases l <;> rfl⟩

/-- An entry into outage of a booking with one leg captures that leg alone. -/
theorem captureLegs_single (hb : s.booking b = some x) (single : x.backup = none) (m : Moment) :
    s.captureLegs b (legOrder m) = s.capture1 b .main := by
  have absent := capture1_absent (l := .backup) hb single
  obtain ⟨y, hy, same⟩ := capture1_record hb .main
  have single' : y.leg .backup = none := by rw [same.rest]; exact single
  have none_ := capture1_absent hy single'
  cases first : m.backupFirst <;> simp [State.captureLegs, legOrder, first, absent, none_]

/-- A leg that fell SILENT is in some situation. -/
theorem situationAt_silent (silent : lg.state = .silent) (link : Link) : ∃ sit, lg.situationAt link = some sit := by
  unfold Leg.situationAt
  split_ifs with h1 h2 h3 h4 h5
  · exact ⟨_, rfl⟩
  · exact ⟨_, rfl⟩
  · exact ⟨_, rfl⟩
  · exact ⟨_, rfl⟩
  · exact ⟨_, rfl⟩
  · exact absurd (.inr silent) h5

/-- The entry of a booking with one leg: a record opened, or reopened, which holds the leg's cause. -/
structure EnteredWith (s t : State) (b : BookingIx) (x : Booking) (o : OutageState) (sit : Situation) (c : Cause)
    (before : List OutageRecord) (k : OutageRecord) : Prop where
  entered : Entered o s.sec before k
  given : CauseGiven s x.main.port sit c
  record : t.booking b =
    some { x with outage := some { o.enter s.sec with records := before ++ [k.capture .main c sit] } }

theorem enterOutage_single (hb : s.booking b = some x) (single : x.backup = none) (ho : x.outage = some o)
    (free : x.main.exManual = false) (hz : x.main.situationAt (s.port x.main.port).link = some sit) (m : Moment) :
    ∃ c before k, EnteredWith s (s.enterOutage m b) b x o sit c before k := by
  let v := (s.raise .feedLost (.ofBooking b) none).updBooking b fun r => r.updOutage (·.enter s.sec)
  have only : OnlyRecords s v := (onlyRecords_raise ..).trans (onlyRecords_updBooking ..)
  have hv : v.booking b = some (x.updOutage (·.enter s.sec)) :=
    (updBooking_booking (s := s.raise .feedLost (.ofBooking b) none) hb _ b).trans (if_pos rfl)
  have hz : x.main.situationAt (v.port x.main.port).link = some sit := by rw [only.port]; exact hz
  obtain ⟨before, k, entered⟩ := enter_entered o s.sec
  have last : (o.enter s.sec).openRecord = some k :=
    openRecord_eq_some.2 ⟨by rw [entered.records, List.getLast?_concat], entered.finish⟩
  have new : (k.legCause .main).situation ≠ some sit := by rw [entered.fresh]; nofun
  obtain ⟨c, given, -, taken⟩ := capture1_given (l := .main) hv rfl (by rw [Booking.updOutage, ho]; rfl) last free hz new
  refine ⟨c, before, k, entered, given.congr only, ?_⟩
  show (v.captureLegs b (legOrder m)).booking b = _
  rw [captureLegs_single hv single, taken, entered.records, List.dropLast_concat]
  rfl

/-- Out of outage a booking with no usable leg enters it when judged (R92, R93). -/
theorem judge_enters (hb : s.booking b = some x) (runs : x.forwarding = true) (ho : x.outage = some o)
    (out : o.flag = false) (unusable : x.anyUsable = false) (m : Moment) (ls : List LegId) :
    s.judge m b ls = s.enterOutage m b := by
  simp [State.judge, hb, runs, ho, out, unusable]

/-! ## The silence of a leg (R80, R92) -/

/-- The leg written as SILENT, and LEG_SILENT raised. -/
def State.silenced (s : State) (b : BookingIx) (l : LegId) (p : PortIx) : State :=
  (s.updBooking b fun r => r.updLeg l fun z => { z with state := .silent, silenceAt := none }).raise .legSilent (.ofLeg p b l)
    none

theorem legSilent_eq (hb : s.booking b = some x) (hl : x.leg l = some lg) (runs : lg.state = .waiting ∨ lg.state = .receiving)
    (m : Moment) : s.legSilent m b l = ((s.silenced b l lg.port).judge m b [l]).watch m
      { kind := .legSilentEntries, port := some lg.port, booking := some b, leg := some l, bits := none, weight := 1 } := by
  simp only [State.legSilent, hb, hl, runs, if_true]
  rfl

theorem onlyRecords_silenced (b : BookingIx) (l : LegId) (p : PortIx) (s : State) : OnlyRecords s (s.silenced b l p) :=
  (onlyRecords_updBooking ..).trans (onlyRecords_raise ..)

theorem silenced_booking (hb : s.booking b = some x) (l : LegId) (p : PortIx) : (s.silenced b l p).booking b =
    some (x.updLeg l fun z => { z with state := .silent, silenceAt := none }) :=
  (updBooking_booking hb _ b).trans (if_pos rfl)

/-- Without actions the watch counters leave the record as the judgement does. -/
theorem legSilent_booking (free : s.NoActions) (hb : s.booking b = some x) (hl : x.leg l = some lg)
    (runs : lg.state = .waiting ∨ lg.state = .receiving) (m : Moment) :
    (s.legSilent m b l).booking b = ((s.silenced b l lg.port).judge m b [l]).booking b := by
  have silenced : (s.silenced b l lg.port).NoActions := free.congr (by rw [(onlyRecords_silenced b l lg.port s).rest])
  have judged : State.NoActions ((s.silenced b l lg.port).judge m b [l]) :=
    silenced.congr ((work_judge_has m _ (Reach.only_has b _)).counters id)
  rw [legSilent_eq hb hl runs]
  exact State.booking_congr (onlyCounts_watch judged m _).1.bookings b

/-- The one leg of a booking out of outage falls SILENT: the booking enters outage, and the leg's cause is captured. -/
theorem legSilent_enters (free : s.NoActions) (hb : s.booking b = some x) (live : x.forwarding = true)
    (single : x.backup = none) (runs : x.main.state = .receiving) (held : x.main.exManual = false) (ho : x.outage = some o)
    (out : o.flag = false)
    (hz : ({ x.main with state := .silent } : Leg).situationAt (s.port x.main.port).link = some sit) (m : Moment) :
    ∃ y c before k, EnteredWith s (s.legSilent m b .main) b y o sit c before k ∧ y.main.port = x.main.port := by
  let y := x.updLeg .main fun z => { z with state := .silent, silenceAt := none }
  let v := s.silenced b .main x.main.port
  have only : OnlyRecords s v := onlyRecords_silenced ..
  have hv : v.booking b = some y := silenced_booking hb ..
  have situation : y.main.situationAt (v.port y.main.port).link = some sit := by rw [only.port]; exact hz
  have unusable : y.anyUsable = false := by
    simp [Booking.anyUsable, Booking.legs, single, Leg.usable, y, Booking.updLeg]
  obtain ⟨c, before, k, entered, given, record⟩ := enterOutage_single hv single ho held situation m
  have sec : v.sec = s.sec := by rw [only.rest]
  rw [sec] at entered record
  refine ⟨y, c, before, k, ⟨entered, given.congr only, ?_⟩, rfl⟩
  rw [legSilent_booking free hb (l := .main) rfl (.inr runs), judge_enters hv live ho out unusable]
  exact record

/-! ## The obligation -/

/-- Settles O13: a capture writes the cause asked for, an entry opens or reopens the last record, and the silence of the
one leg of a booking makes its entry, whose record holds no situation yet. -/
theorem outageCausesAreCaptured : Obligations.OutageCausesAreCaptured := by
  refine ⟨fun b l x lg o k s hb hl ho hk => ⟨capture1_kept hb hl ho hk, fun sit free hz new => ?_⟩,
    fun o n => ⟨fun room => enter_opens room n, fun before k full last => ?_⟩,
    fun m b x due o s free hb live single runs receiving held ho out => ?_⟩
  · have work : Work (.only b) s (s.capture1 b l) := work_capture1 (Reach.only_has b s) l
    obtain ⟨c, given, pending, record⟩ := capture1_given hb hl ho hk free hz new
    refine ⟨work.calm.keepsSettings, fun i hi => work.others hi, c, given, pending, ?_⟩
    rw [record]
    cases l <;> rfl
  · intro rank carry
    have rank_eq : ∀ c : Cause, rank c = c.value.strength := by
      rintro ⟨v, _⟩
      cases v <;> rfl
    have carry_eq : ∀ c, carry c = c.carryForward := by
      intro c
      obtain ⟨held, _, carried⟩ := c
      cases carried <;> cases held <;> simp [carry, rank_eq, LegCause.carryForward, LegCause.reported, Cause.stronger]
    rw [carry_eq, carry_eq, enter_reopens full last]
    rfl
  · intro _
    have found := (atTimer_booking s m due b).trans hb
    have port : (s.atTimer m due).port x.main.port = s.port x.main.port := State.advance_port ..
    have sec : (s.atTimer m due).sec = s.sec := State.advance_sec ..
    have silent : ({ x.main with state := .silent } : Leg).state = .silent := rfl
    obtain ⟨sit, hz⟩ := situationAt_silent silent (s.port x.main.port).link
    obtain ⟨y, c, before, k, ⟨entered, given, record⟩, named⟩ := legSilent_enters (atTimer_noActions free m due) found
      (by simpa [Booking.forwarding] using live) single receiving held ho out (sit := sit) (by rw [port]; exact hz) m
    rw [sec] at entered record
    obtain ⟨⟨start, finish, seconds⟩, merged⟩ := capture_kept k .main c sit
    have settled := flush_settled m ((s.atTimer m due).legSilent m b .main)
    refine ⟨_, _, _, before, k.capture .main c sit, sit, c, silenceTimer_runs hb (l := .main) rfl runs m,
      (State.booking_congr settled.bookings b).trans record, rfl, rfl, rfl, rfl, finish.trans entered.finish, hz, rfl, rfl,
      named ▸ given, fun room => ?_, fun full => ?_⟩
    · obtain ⟨same, opened, none_, fresh⟩ := entered.opens room
      exact ⟨same, start.trans opened, seconds.trans none_, merged.trans fresh⟩
    · obtain ⟨same, reopened, old⟩ := entered.reopens full
      exact ⟨same, merged.trans reopened, fun z hz => ⟨start.trans (old z hz).1, seconds.trans (old z hz).2⟩⟩

end Sys2Proof.Machine
end
